-- ==== Sys2Proof/Word.lean ====
section
/-! DEFINITION. The widths the manual gives its words, and the sparse keyed list that State uses. -/

namespace Sys2Proof

/-- A byte of memory. -/
abbrev Byte := BitVec 8
/-- A 32-bit word: an instruction word, a token's data, an FP32 pattern. -/
abbrev Word := BitVec 32
/-- A 64-bit doubleword: a g register (R76). -/
abbrev Dword := BitVec 64
/-- The 128 bits of a configuration slot (R122). -/
abbrev Slot128 := BitVec 128
/-- The 512 bits of a tensor-ID entry (R73). -/
abbrev Entry512 := BitVec 512

/-- Sparse data by number: a list of pairs, keys strictly rising. -/
abbrev Map (α : Type) := List (Nat × α)

end Sys2Proof
end

