-- ==== Sys2Proof/Syntax.lean ====
section
/-! DEFINITION. The words of the five kinds (R25, R26, R27, R33, R37, R45, R47) as records of their fields, and
`Instr`: one constructor for each row of the opcode table (spec/95_what_each_step_holds.md). -/

namespace Sys2Proof

/-- A form A scalar word (R25), less its op and length code. -/
structure FormA where
  /-- [31:29] op modifier -/
  sub : BitVec 3
  /-- [28] inverts the guard -/
  gn : Bool
  /-- [27:25] guard predicate -/
  guard : BitVec 3
  /-- [24:20] second source -/
  b : BitVec 5
  /-- [19:15] first source -/
  a : BitVec 5
  /-- [14:10] destination -/
  d : BitVec 5
  deriving DecidableEq, Repr, Inhabited

/-- A form B scalar instruction (R26): the b field is reserved, the second word holds ext16 and imm16. -/
structure FormB where
  sub : BitVec 3
  gn : Bool
  guard : BitVec 3
  a : BitVec 5
  d : BitVec 5
  ext16 : BitVec 16
  imm16 : BitVec 16
  deriving DecidableEq, Repr, Inhabited

/-- A form C scalar instruction (R27): ext32 in the second word and lit32 in the third. -/
structure FormC where
  sub : BitVec 3
  gn : Bool
  guard : BitVec 3
  a : BitVec 5
  d : BitVec 5
  ext32 : Word
  lit32 : Word
  deriving DecidableEq, Repr, Inhabited

/-- A stream command (R33), less its command code. -/
structure StreamWord where
  /-- [31:24] a tensor ID or a sub value, by command -/
  b : BitVec 8
  /-- [23:16] a port, a unit number or a tensor ID -/
  a : BitVec 8
  /-- [15] asks for a report to a barrier object -/
  bar : Bool
  gn : Bool
  guard : BitVec 3
  /-- [10:8] stream number -/
  sn : BitVec 3
  w1 : Word
  w2 : Word
  w3 : Word
  deriving DecidableEq, Repr, Inhabited

/-- An element configuration word (R37), less its op and its reserved fields. -/
structure ElWord where
  refire : BitVec 4
  route : BitVec 8
  sub : BitVec 8
  lat : BitVec 8
  tn : BitVec 8
  flush : Bool
  rm : BitVec 3
  k : Word
  in2 : BitVec 10
  in1 : BitVec 10
  in0 : BitVec 10
  station : BitVec 6
  enable : Bool
  deriving DecidableEq, Repr, Inhabited

/-- A router operator word (R45), less its operator code and its reserved field. -/
structure RouterWord where
  out1 : BitVec 6
  out0 : BitVec 6
  ctl : BitVec 6
  inB : BitVec 6
  inA : BitVec 6
  station : BitVec 6
  enable : Bool
  deriving DecidableEq, Repr, Inhabited

/-- A layout instruction (R47), less its code. -/
structure LayoutWord where
  imm16 : BitVec 16
  y : BitVec 8
  x : BitVec 4
  deriving DecidableEq, Repr, Inhabited

/-- The steps of the part: one constructor for each row of the opcode table. A scalar instruction carries the fields of
its word. The fields of a unit's, a router operator's, a layout engine's or a stream command's word stand in the state
that holds that word (the tile's slot, the engine's program, the core's fetched words), so those constructors name the
operation alone. An act carries the numbers of what it acts on. -/
inductive Instr where
  /-- `BR_B` (R90): Branches relative to the pc by a 16-bit word offset when the guard holds. -/
  | brB (f : FormB)
  /-- `BR_C` (R90): Branches relative to the pc by a 32-bit word offset when the guard holds. -/
  | brC (f : FormC)
  /-- `BP_B` (R90): Branches by a 16-bit word offset when the named predicate is true. -/
  | bpB (f : FormB)
  /-- `BP_C` (R90): Branches by a 32-bit word offset when the named predicate is true. -/
  | bpC (f : FormC)
  /-- `CALL_B` (R90): Writes the link register and branches by a 16-bit word offset. -/
  | callB (f : FormB)
  /-- `CALL_C` (R90): Writes the link register and branches by a 32-bit word offset. -/
  | callC (f : FormC)
  /-- `RET` (R91): Sets the pc to bits 47:0 of the named register. -/
  | ret (f : FormA)
  /-- `JR` (R91): Reads the target register, writes pc+4 to the destination and jumps. -/
  | jr (f : FormA)
  /-- `DONE` (R93): Ends the current firing with a node-scope boundary and returns the core to idle. -/
  | done (f : FormA)
  /-- `LOOP_B` (R90): Decrements the counter register and branches by a 16-bit offset while it is non-zero. -/
  | loopB (f : FormB)
  /-- `LOOP_C` (R90): Decrements the counter register and branches by a 32-bit offset while it is non-zero. -/
  | loopC (f : FormC)
  /-- `WFE` (R95): Advances when the event FIFO holds a record of a woken class, and otherwise waits. -/
  | wfe (f : FormA)
  /-- `TRAP_B` (R96): Enters the trap handler with cause 0x07 and the immediate in ss.fval. -/
  | trapB (f : FormB)
  /-- `ERET` (R98): Returns from the handler to ss.fpc and restores the previous mode. -/
  | eret (f : FormA)
  /-- `BRK` (R97): Enters the handler with cause 0x08, or halts for a debugger that holds the core. -/
  | brk (f : FormA)
  /-- `ADD_A` (R99): Adds two registers at the chosen size, wrapping or saturating. -/
  | addA (f : FormA)
  /-- `ADD_B` (R99): Adds a register and a 16-bit literal. -/
  | addB (f : FormB)
  /-- `ADD_C` (R99): Adds a register and a 32-bit literal. -/
  | addC (f : FormC)
  /-- `SUB_A` (R99): Subtracts two registers at the chosen size. -/
  | subA (f : FormA)
  /-- `SUB_B` (R99): Subtracts a 16-bit literal from a register. -/
  | subB (f : FormB)
  /-- `SUB_C` (R99): Subtracts a 32-bit literal from a register. -/
  | subC (f : FormC)
  /-- `AND_A` (R99): Bitwise and of two registers. -/
  | andA (f : FormA)
  /-- `AND_B` (R99): Bitwise and with a zero-extended 16-bit literal. -/
  | andB (f : FormB)
  /-- `AND_C` (R99): Bitwise and with a zero-extended 32-bit literal. -/
  | andC (f : FormC)
  /-- `OR_A` (R99): Bitwise or of two registers. -/
  | orA (f : FormA)
  /-- `OR_B` (R99): Bitwise or with a zero-extended 16-bit literal. -/
  | orB (f : FormB)
  /-- `OR_C` (R99): Bitwise or with a zero-extended 32-bit literal. -/
  | orC (f : FormC)
  /-- `XOR_A` (R99): Bitwise xor of two registers. -/
  | xorA (f : FormA)
  /-- `XOR_B` (R99): Bitwise xor with a zero-extended 16-bit literal. -/
  | xorB (f : FormB)
  /-- `XOR_C` (R99): Bitwise xor with a zero-extended 32-bit literal. -/
  | xorC (f : FormC)
  /-- `ANDN_A` (R99): Bitwise and of a register with the complement of another. -/
  | andnA (f : FormA)
  /-- `ANDN_B` (R99): Bitwise and with the complement of a 16-bit literal. -/
  | andnB (f : FormB)
  /-- `ANDN_C` (R99): Bitwise and with the complement of a 32-bit literal. -/
  | andnC (f : FormC)
  /-- `SHL_A` (R99): Shifts left by a register count. -/
  | shlA (f : FormA)
  /-- `SHL_B` (R99): Shifts left by a 16-bit literal count. -/
  | shlB (f : FormB)
  /-- `SHL_C` (R99): Shifts left by a 32-bit literal count. -/
  | shlC (f : FormC)
  /-- `SHR_A` (R99): Shifts right logically by a register count. -/
  | shrA (f : FormA)
  /-- `SHR_B` (R99): Shifts right logically by a 16-bit literal count. -/
  | shrB (f : FormB)
  /-- `SHR_C` (R99): Shifts right logically by a 32-bit literal count. -/
  | shrC (f : FormC)
  /-- `SAR_A` (R99): Shifts right arithmetically by a register count. -/
  | sarA (f : FormA)
  /-- `SAR_B` (R99): Shifts right arithmetically by a 16-bit literal count. -/
  | sarB (f : FormB)
  /-- `SAR_C` (R99): Shifts right arithmetically by a 32-bit literal count. -/
  | sarC (f : FormC)
  /-- `ROTL_A` (R99): Rotates left by a register count. -/
  | rotlA (f : FormA)
  /-- `ROTL_B` (R99): Rotates left by a 16-bit literal count. -/
  | rotlB (f : FormB)
  /-- `ROTL_C` (R99): Rotates left by a 32-bit literal count. -/
  | rotlC (f : FormC)
  /-- `MIN_A` (R99): Signed minimum of two registers. -/
  | minA (f : FormA)
  /-- `MIN_B` (R99): Signed minimum with a 16-bit literal. -/
  | minB (f : FormB)
  /-- `MIN_C` (R99): Signed minimum with a 32-bit literal. -/
  | minC (f : FormC)
  /-- `MAX_A` (R99): Signed maximum of two registers. -/
  | maxA (f : FormA)
  /-- `MAX_B` (R99): Signed maximum with a 16-bit literal. -/
  | maxB (f : FormB)
  /-- `MAX_C` (R99): Signed maximum with a 32-bit literal. -/
  | maxC (f : FormC)
  /-- `MINU_A` (R99): Unsigned minimum of two registers. -/
  | minuA (f : FormA)
  /-- `MINU_B` (R99): Unsigned minimum with a zero-extended 16-bit literal. -/
  | minuB (f : FormB)
  /-- `MINU_C` (R99): Unsigned minimum with a zero-extended 32-bit literal. -/
  | minuC (f : FormC)
  /-- `MAXU_A` (R99): Unsigned maximum of two registers. -/
  | maxuA (f : FormA)
  /-- `MAXU_B` (R99): Unsigned maximum with a zero-extended 16-bit literal. -/
  | maxuB (f : FormB)
  /-- `MAXU_C` (R99): Unsigned maximum with a zero-extended 32-bit literal. -/
  | maxuC (f : FormC)
  /-- `SEL_A` (R101): Selects one of two registers by a predicate. -/
  | selA (f : FormA)
  /-- `SEL_B` (R101): Selects between a register and a 16-bit literal by a predicate. -/
  | selB (f : FormB)
  /-- `SEL_C` (R101): Selects between a register and a 32-bit literal by a predicate. -/
  | selC (f : FormC)
  /-- `MOV_A` (R99): Copies a register at the chosen size. -/
  | movA (f : FormA)
  /-- `MOV_B` (R99): Loads a 16-bit literal. -/
  | movB (f : FormB)
  /-- `MOV_C` (R99): Loads a 32-bit literal. -/
  | movC (f : FormC)
  /-- `MUL_A` (R99): Multiplies two registers. -/
  | mulA (f : FormA)
  /-- `MUL_B` (R99): Multiplies a register by a 16-bit literal. -/
  | mulB (f : FormB)
  /-- `MUL_C` (R99): Multiplies a register by a 32-bit literal. -/
  | mulC (f : FormC)
  /-- `MULH_A` (R99): High half of a signed product of two registers. -/
  | mulhA (f : FormA)
  /-- `MULH_B` (R99): High half of a signed product with a 16-bit literal. -/
  | mulhB (f : FormB)
  /-- `MULH_C` (R99): High half of a signed product with a 32-bit literal. -/
  | mulhC (f : FormC)
  /-- `MULHU_A` (R99): High half of an unsigned product of two registers. -/
  | mulhuA (f : FormA)
  /-- `MULHU_B` (R99): High half of an unsigned product with a 16-bit literal. -/
  | mulhuB (f : FormB)
  /-- `MULHU_C` (R99): High half of an unsigned product with a 32-bit literal. -/
  | mulhuC (f : FormC)
  /-- `DIV_A` (R100): Signed division of two registers, never trapping. -/
  | divA (f : FormA)
  /-- `DIV_B` (R100): Signed division by a 16-bit literal. -/
  | divB (f : FormB)
  /-- `DIV_C` (R100): Signed division by a 32-bit literal. -/
  | divC (f : FormC)
  /-- `DIVU_A` (R100): Unsigned division of two registers. -/
  | divuA (f : FormA)
  /-- `DIVU_B` (R100): Unsigned division by a 16-bit literal. -/
  | divuB (f : FormB)
  /-- `DIVU_C` (R100): Unsigned division by a 32-bit literal. -/
  | divuC (f : FormC)
  /-- `REM_A` (R100): Signed remainder of two registers. -/
  | remA (f : FormA)
  /-- `REM_B` (R100): Signed remainder by a 16-bit literal. -/
  | remB (f : FormB)
  /-- `REM_C` (R100): Signed remainder by a 32-bit literal. -/
  | remC (f : FormC)
  /-- `REMU_A` (R100): Unsigned remainder of two registers. -/
  | remuA (f : FormA)
  /-- `REMU_B` (R100): Unsigned remainder by a 16-bit literal. -/
  | remuB (f : FormB)
  /-- `REMU_C` (R100): Unsigned remainder by a 32-bit literal. -/
  | remuC (f : FormC)
  /-- `CLZ` (R99): Counts leading zero bits. -/
  | clz (f : FormA)
  /-- `CTZ` (R99): Counts trailing zero bits. -/
  | ctz (f : FormA)
  /-- `POPC` (R99): Counts one bits. -/
  | popc (f : FormA)
  /-- `EXT_A` (R102): Sign- or zero-extends a low field whose width a register gives. -/
  | extA (f : FormA)
  /-- `EXT_B` (R102): Sign- or zero-extends a low field whose width a literal gives. -/
  | extB (f : FormB)
  /-- `BFX` (R103): Extracts a bit field given by literal position and length. -/
  | bfx (f : FormB)
  /-- `BFI` (R103): Inserts a bit field given by literal position and length. -/
  | bfi (f : FormB)
  /-- `BREV` (R99): Reverses the order of bits. -/
  | brev (f : FormA)
  /-- `BSWAP` (R99): Reverses the order of bytes. -/
  | bswap (f : FormA)
  /-- `ADDCP_A` (R104): Adds two registers with a carry predicate read and written. -/
  | addcpA (f : FormA)
  /-- `ADDCP_B` (R104): Adds a 16-bit literal with a carry predicate. -/
  | addcpB (f : FormB)
  /-- `ADDCP_C` (R104): Adds a 32-bit literal with a carry predicate. -/
  | addcpC (f : FormC)
  /-- `CMP_A` (R105): Compares two registers and writes a predicate. -/
  | cmpA (f : FormA)
  /-- `CMP_B` (R105): Compares a register with a 16-bit literal and writes a predicate. -/
  | cmpB (f : FormB)
  /-- `CMP_C` (R105): Compares a register with a 32-bit literal and writes a predicate. -/
  | cmpC (f : FormC)
  /-- `PAND` (R106): And of two predicates. -/
  | pand (f : FormA)
  /-- `POR` (R106): Or of two predicates. -/
  | por (f : FormA)
  /-- `PXOR` (R106): Xor of two predicates. -/
  | pxor (f : FormA)
  /-- `PNOT` (R106): Complement of a predicate. -/
  | pnot (f : FormA)
  /-- `PSET` (R107): Writes predicates p1-p7 under a literal mask. -/
  | pset (f : FormB)
  /-- `PGET` (R106): Copies the eight predicates into a register. -/
  | pget (f : FormA)
  /-- `LEA_A` (R108): Computes the sum of two registers as an address. -/
  | leaA (f : FormA)
  /-- `LEA_B` (R108): Computes base plus scaled index plus 16-bit displacement. -/
  | leaB (f : FormB)
  /-- `LEA_C` (R108): Computes base plus scaled index plus 32-bit displacement. -/
  | leaC (f : FormC)
  /-- `PCREL_B` (R109): Computes pc plus a 16-bit literal. -/
  | pcrelB (f : FormB)
  /-- `PCREL_C` (R109): Computes pc plus a 32-bit literal. -/
  | pcrelC (f : FormC)
  /-- `LD_A` (R110): Loads from the scratchpad at base plus index register. -/
  | ldA (f : FormA)
  /-- `LD_B` (R110): Loads from the scratchpad at base plus 16-bit offset. -/
  | ldB (f : FormB)
  /-- `LD_C` (R110): Loads from the scratchpad at base plus 32-bit offset. -/
  | ldC (f : FormC)
  /-- `ST_A` (R110): Stores to the scratchpad at base plus index register. -/
  | stA (f : FormA)
  /-- `ST_B` (R110): Stores to the scratchpad at base plus 16-bit offset. -/
  | stB (f : FormB)
  /-- `ST_C` (R110): Stores to the scratchpad at base plus 32-bit offset. -/
  | stC (f : FormC)
  /-- `LDP_A` (R111): Loads a register pair from 16 aligned bytes at base plus index. -/
  | ldpA (f : FormA)
  /-- `LDP_B` (R111): Loads a register pair from base plus literal. -/
  | ldpB (f : FormB)
  /-- `STP_A` (R111): Stores a register pair to 16 aligned bytes at base plus index. -/
  | stpA (f : FormA)
  /-- `STP_B` (R111): Stores a register pair to base plus literal. -/
  | stpB (f : FormB)
  /-- `GLD_A` (R214): Loads 8 bytes at a virtual address through the core AGE. -/
  | gldA (f : FormA)
  /-- `GLD_B` (R214): Loads 8 bytes at a virtual address plus literal. -/
  | gldB (f : FormB)
  /-- `GST_A` (R214): Stores 8 bytes at a virtual address through the core AGE. -/
  | gstA (f : FormA)
  /-- `GST_B` (R214): Stores 8 bytes at a virtual address plus literal. -/
  | gstB (f : FormB)
  /-- `AMO` (R215): Applies an atomic operation to 8 bytes in memory and returns the old value. -/
  | amo (f : FormA)
  /-- `CAS` (R216): Compares and swaps 8 bytes atomically. -/
  | cas (f : FormA)
  /-- `PHASE` (R234): Takes a boundary of the named scope: drains the phase buffer and refreshes the snapshot. -/
  | phase (f : FormA)
  /-- `BARV_A` (R239): Arrives at a barrier, adding expected bytes from a register. -/
  | barvA (f : FormA)
  /-- `BARV_B` (R239): Arrives at a barrier, adding expected bytes from a literal. -/
  | barvB (f : FormB)
  /-- `BWAIT` (R241): Waits for a barrier to leave a phase and acquires the flipped ranges. -/
  | bwait (f : FormA)
  /-- `BEXP_A` (R240): Adds expected bytes from a register to a barrier without arriving. -/
  | bexpA (f : FormA)
  /-- `BEXP_B` (R240): Adds expected bytes from a literal to a barrier without arriving. -/
  | bexpB (f : FormB)
  /-- `TLOOK` (R219): Finds the slot that holds the granule of a virtual address. -/
  | tlook (f : FormA)
  /-- `TINS_A` (R220): Makes a slot named by a register hold a granule. -/
  | tinsA (f : FormA)
  /-- `TINS_B` (R220): Makes a slot named by a literal hold a granule. -/
  | tinsB (f : FormB)
  /-- `TEVICT` (R221): Empties a slot's tag entry and returns what it held. -/
  | tevict (f : FormA)
  /-- `FADD_A` (R114): FP32 addition of two registers, rounded once. -/
  | faddA (f : FormA)
  /-- `FADD_C` (R114): FP32 addition with a literal. -/
  | faddC (f : FormC)
  /-- `FSUB_A` (R114): FP32 subtraction of two registers. -/
  | fsubA (f : FormA)
  /-- `FSUB_C` (R114): FP32 subtraction of a literal. -/
  | fsubC (f : FormC)
  /-- `FMUL_A` (R114): FP32 multiplication of two registers. -/
  | fmulA (f : FormA)
  /-- `FMUL_C` (R114): FP32 multiplication by a literal. -/
  | fmulC (f : FormC)
  /-- `FMA_A` (R114): FP32 fused multiply-add into the destination. -/
  | fmaA (f : FormA)
  /-- `FMA_C` (R114): FP32 fused multiply-add with a literal. -/
  | fmaC (f : FormC)
  /-- `FMS_A` (R114): FP32 fused multiply-subtract. -/
  | fmsA (f : FormA)
  /-- `FMS_C` (R114): FP32 fused multiply-subtract with a literal. -/
  | fmsC (f : FormC)
  /-- `FNMA_A` (R114): FP32 negated fused multiply-add. -/
  | fnmaA (f : FormA)
  /-- `FNMA_C` (R114): FP32 negated fused multiply-add with a literal. -/
  | fnmaC (f : FormC)
  /-- `FDIV_A` (R114): FP32 division of two registers. -/
  | fdivA (f : FormA)
  /-- `FDIV_C` (R114): FP32 division by a literal. -/
  | fdivC (f : FormC)
  /-- `FSQRT` (R114): FP32 square root. -/
  | fsqrt (f : FormA)
  /-- `FMIN_A` (R115): FP32 minimum of two registers. -/
  | fminA (f : FormA)
  /-- `FMIN_C` (R115): FP32 minimum with a literal. -/
  | fminC (f : FormC)
  /-- `FMAX_A` (R115): FP32 maximum of two registers. -/
  | fmaxA (f : FormA)
  /-- `FMAX_C` (R115): FP32 maximum with a literal. -/
  | fmaxC (f : FormC)
  /-- `FCMP_A` (R116): FP32 comparison of two registers into a predicate. -/
  | fcmpA (f : FormA)
  /-- `FCMP_C` (R116): FP32 comparison with a literal into a predicate. -/
  | fcmpC (f : FormC)
  /-- `FCVT` (R117): Converts between FP32, integer, FP16 and BF16 formats by a conversion code. -/
  | fcvt (f : FormA)
  /-- `FCLASS` (R118): Classifies an FP32 value into a one-hot mask. -/
  | fclass (f : FormA)
  /-- `FSGN_A` (R119): Copies the sign of one register onto another. -/
  | fsgnA (f : FormA)
  /-- `FSGN_C` (R119): Copies the sign of a literal onto a register. -/
  | fsgnC (f : FormC)
  /-- `FRND` (R120): Rounds an FP32 value to an integral value. -/
  | frnd (f : FormA)
  /-- `FPUT_A` (R155): Pushes a DATA token from a register onto an fi port, waiting for order and room. -/
  | fputA (f : FormA)
  /-- `FPUT_B` (R155): Pushes a DATA token from a literal onto an fi port. -/
  | fputB (f : FormB)
  /-- `FGET_A` (R156): Pops the head token of an fo port, waiting until one is present. -/
  | fgetA (f : FormA)
  /-- `FGET_B` (R156): Pops the head token of an fo port, waiting at most a literal time. -/
  | fgetB (f : FormB)
  /-- `FCNT_A` (R157): Reads a port's availability at once. -/
  | fcntA (f : FormA)
  /-- `FCNT_B` (R157): Waits until a port's availability reaches a literal and reads it. -/
  | fcntB (f : FormB)
  /-- `ACRD` (R158): Reads a piece of an accumulator's value. -/
  | acrd (f : FormA)
  /-- `ACCLR` (R159): Returns an accumulator to its identity. -/
  | acclr (f : FormA)
  /-- `CFGL_A` (R153): Loads a configuration slot named by a register from 16 scratchpad bytes. -/
  | cfglA (f : FormA)
  /-- `CFGL_B` (R153): Loads a configuration slot named by a literal. -/
  | cfglB (f : FormB)
  /-- `ARGW_A` (R154): Writes the k field of a slot named by a register. -/
  | argwA (f : FormA)
  /-- `ARGW_B` (R154): Writes a 16-bit literal into a slot's k field. -/
  | argwB (f : FormB)
  /-- `ARGW_C` (R154): Writes a 32-bit literal into a slot's k field. -/
  | argwC (f : FormC)
  /-- `BSET_A` (R182): Writes a beat governor register from a register. -/
  | bsetA (f : FormA)
  /-- `BSET_B` (R182): Writes a beat governor register from a literal. -/
  | bsetB (f : FormB)
  /-- `BGET` (R182): Reads a beat governor register. -/
  | bget (f : FormA)
  /-- `BHOLD` (R182): Asks for a hold of the led region at the next boundary. -/
  | bhold (f : FormA)
  /-- `BGO` (R182): Starts a fresh beat at a held boundary or the first beat of a loaded region. -/
  | bgo (f : FormA)
  /-- `RFST_A` (R183): Reads a refire counter of a station named by a register. -/
  | rfstA (f : FormA)
  /-- `RFST_B` (R183): Reads a refire counter of a station named by a literal. -/
  | rfstB (f : FormB)
  /-- `RFCL_A` (R183): Clears a refire counter of a station named by a register. -/
  | rfclA (f : FormA)
  /-- `RFCL_B` (R183): Clears a refire counter of a station named by a literal. -/
  | rfclB (f : FormB)
  /-- `DQPUSH` (R278): Pushes 32 scratchpad bytes as the bottom record of the deque. -/
  | dqpush (f : FormA)
  /-- `DQPOP` (R278): Removes the bottom record of the deque into the scratchpad. -/
  | dqpop (f : FormA)
  /-- `DQSTEAL_A` (R278): Removes the top record of a cluster core's deque named by a register. -/
  | dqstealA (f : FormA)
  /-- `DQSTEAL_B` (R278): Removes the top record of a cluster core's deque named by a literal. -/
  | dqstealB (f : FormB)
  /-- `ARM_A` (R273): Arms or disarms the actor named by a register. -/
  | armA (f : FormA)
  /-- `ARM_B` (R273): Arms or disarms the actor named by a literal. -/
  | armB (f : FormB)
  /-- `EVGET` (R277): Removes the head record of the event FIFO into a register. -/
  | evget (f : FormA)
  /-- `GNODE_A` (R280): Submits a graph with a register node count to the walker. -/
  | gnodeA (f : FormA)
  /-- `GNODE_B` (R280): Submits a graph with a literal node count. -/
  | gnodeB (f : FormB)
  /-- `GSIG_A` (R286): Signals a SPAWN or WAIT node once. -/
  | gsigA (f : FormA)
  /-- `GSIG_B` (R286): Signals a SPAWN or WAIT node a literal number of times. -/
  | gsigB (f : FormB)
  /-- `YIELD` (R276): Fires each fireable actor once inside a resident program and resumes. -/
  | yield (f : FormA)
  /-- `GSEND_A` (R381): Issues a plain group send of 64 payload bytes to a group named by a register. -/
  | gsendA (f : FormA)
  /-- `GSEND_B` (R381): Issues a plain group send to a group named by a literal. -/
  | gsendB (f : FormB)
  /-- `GSEND_X_A` (R388): Scores a token and sends it to its best expert groups, set named by a register. -/
  | gsendXA (f : FormA)
  /-- `GSEND_X_B` (R388): Scores a token and sends it to its best expert groups, set named by a literal. -/
  | gsendXB (f : FormB)
  /-- `GSENDO_A` (R377): Issues an ordered group send to a group named by a register. -/
  | gsendoA (f : FormA)
  /-- `GSENDO_B` (R377): Issues an ordered group send to a group named by a literal. -/
  | gsendoB (f : FormB)
  /-- `GRECV_A` (R382): Takes the oldest message of a group named by a register from the receive queue. -/
  | grecvA (f : FormA)
  /-- `GRECV_B` (R382): Takes the oldest message of a group named by a literal. -/
  | grecvB (f : FormB)
  /-- `GREADY_A` (R383): Adds readiness to a group named by a register. -/
  | greadyA (f : FormA)
  /-- `GREADY_B` (R383): Adds readiness to a group named by a literal. -/
  | greadyB (f : FormB)
  /-- `GUNREADY_A` (R383): Withdraws readiness from a group named by a register. -/
  | gunreadyA (f : FormA)
  /-- `GUNREADY_B` (R383): Withdraws readiness from a group named by a literal. -/
  | gunreadyB (f : FormB)
  /-- `GACK` (R384): Acknowledges a taken send by its handle after draining the buffer. -/
  | gack (f : FormA)
  /-- `GSTAT_A` (R385): Reads or changes group state, group word in a register, operation in sub. -/
  | gstatA (f : FormA)
  /-- `GSTAT_B` (R385): Reads or changes group state, group word as a literal. -/
  | gstatB (f : FormB)
  /-- `XMASK` (R391): Reads a live member or expert mask. -/
  | xmask (f : FormA)
  /-- `SDQ` (R302): Queries a draft slot and writes the match and draft. -/
  | sdq (f : FormA)
  /-- `SDACC` (R303): Appends up to 64 accepted tokens to a draft slot. -/
  | sdacc (f : FormA)
  /-- `SDSAVE` (R308): Captures a draft slot in one step and writes its image to memory. -/
  | sdsave (f : FormA)
  /-- `SDLOAD` (R309): Marks a draft slot loading and reads an image to install. -/
  | sdload (f : FormA)
  /-- `SDCAP_A` (R304): Sets the cap and quota of a draft slot from a register. -/
  | sdcapA (f : FormA)
  /-- `SDCAP_B` (R304): Sets the cap and quota of a draft slot from a literal. -/
  | sdcapB (f : FormB)
  /-- `SDRST_A` (R305): Resets a register-counted run of draft slots. -/
  | sdrstA (f : FormA)
  /-- `SDRST_B` (R305): Resets a literal-counted run of draft slots. -/
  | sdrstB (f : FormB)
  /-- `SGET` (R343): Reads a system state register. -/
  | sget (f : FormB)
  /-- `SSET` (R343): Writes a system state register field by field. -/
  | sset (f : FormB)
  /-- `RELATCH` (R344): Drains the buffer and sends RELATCH tokens to the tenant's AGEs for a range or a resume order. -/
  | relatch (f : FormA)
  /-- `CTXSV` (R332): Saves a tile, region or tenant context through the tier engine. -/
  | ctxsv (f : FormA)
  /-- `CTXLD` (R332): Restores a tile or region context, starts a tenant or resets it. -/
  | ctxld (f : FormA)
  /-- `TIDW` (R345): Writes a tensor-ID entry from 64 scratchpad bytes in one step. -/
  | tidw (f : FormA)
  /-- `TIDR` (R345): Reads a tensor-ID entry into 64 scratchpad bytes. -/
  | tidr (f : FormA)
  /-- `PWR_A` (R407): Reads power status or sets the ceiling or latency tolerance from a register. -/
  | pwrA (f : FormA)
  /-- `PWR_B` (R407): Sets the step ceiling or latency tolerance from a literal. -/
  | pwrB (f : FormB)
  /-- `CNTR` (R347): Reads a counter. -/
  | cntr (f : FormB)
  /-- `CNTC` (R347): Clears a counter or every private counter. -/
  | cntc (f : FormB)
  /-- `WFE_WAKE` (R95): An arriving event of a woken class ends a waiting wfe. -/
  | wfeWake (t : Nat)
  /-- `BWAIT_OBSERVE` (R241): A waiting bwait observes the phase change and copies the flipped ranges into its snapshot. -/
  | bwaitObserve (t : Nat)
  /-- `FPUT_RESUME` (R131): A waiting fput places its token once earlier feeders are done and a place is free. -/
  | fputResume (t : Nat)
  /-- `FGET_RESUME` (R156): A token arrives and a waiting fget pops it. -/
  | fgetResume (t : Nat)
  /-- `FGET_TIMEOUT` (R156): The wait of a form-B fget expires and the empty-token value is written. -/
  | fgetTimeout (t : Nat)
  /-- `FCNT_RESUME` (R157): Availability reaches the threshold and a waiting fcnt completes. -/
  | fcntResume (t : Nat)
  /-- `BEAT_INSN_RESUME` (R182): A beat instruction waiting on its core's scfg acts once the load completes or faults. -/
  | beatInsnResume (t : Nat)
  /-- `GSEND_RESUME` (R381): Room frees in the retransmit buffer and a waiting send leaves. -/
  | gsendResume (t : Nat)
  /-- `GROUP_INSTALL` (R371): A waiting gstat.load or gstat.drop installs or removes the group once it has no unacknowledged send. -/
  | groupInstall (t : Nat)
  /-- `SDLOAD_INSTALL` (R309): The image has been read and checked, and one draft step installs it or faults. -/
  | sdloadInstall (cmd : Nat)
  /-- `DRAFT_WAIT_END` (R309): A draft instruction waiting on a loading slot takes its draft step when loading ends. -/
  | draftWaitEnd (t : Nat)
  /-- `RELATCH_DONE` (R327): The last RELATCH token emerges and the waiting relatch writes the sequence number. -/
  | relatchDone (t : Nat)
  /-- `RELATCH_TIMEOUT` (R344): The 2^22 fc wait of relatch expires and the tenant is frozen with 0x24. -/
  | relatchTimeout (t : Nat)
  /-- `STREAM_QUEUE_ADMIT` (R34): A core stalled on a full stream command queue places its command once an entry frees. -/
  | streamQueueAdmit (t : Nat)
  /-- `COMMAND_DISPATCH` (R249): The stream command queue hands its head command to an engine. -/
  | commandDispatch (t : Nat) (eng : Nat)
  /-- `EL_DELAY_OUTPUT` (R140): A delay element moves its oldest token into its free output slot. -/
  | elDelayOutput (t : Nat) (slot : Nat)
  /-- `MWR_EOT_DRAIN` (R207): An EOT pair at a memory node waits for earlier writes to drain, drains, and emits DONE then EOT. -/
  | mwrEotDrain (t : Nat) (m : Nat)
  /-- `RELATCH_TOKEN_CONSUME` (R208): A memory node consumes a RELATCH token by a node-scope boundary once earlier accesses complete. -/
  | relatchTokenConsume (t : Nat) (m : Nat)
  /-- `RELATCH_TOKEN_EMERGE` (R212): A non-fabric AGE's token emerges when its accesses through dropped latches complete. -/
  | relatchTokenEmerge (age : Nat)
  /-- `ROUTER_FORWARD` (R149): A router forwards, delivers locally or discards a token arriving on an incoming channel. -/
  | routerForward (t : Nat) (chan : Nat)
  /-- `ACTOR_FIRING` (R274): An idle core launches the next fireable armed actor. -/
  | actorFiring (t : Nat)
  /-- `ENGINE_READ` (R227): An engine reads bytes of its command from M. -/
  | engineRead (cmd : Nat) (k : Nat)
  /-- `ENGINE_WRITE` (R227): An engine writes bytes of its command into M. -/
  | engineWrite (cmd : Nat) (k : Nat)
  /-- `WRITE_ONCE_READ_RESUME` (R362): A load waiting on an absent write-once word completes when it becomes present. -/
  | writeOnceReadResume (t : Nat)
  /-- `ENGINE_COMPLETE` (R232): An engine appends its command's completion record once every write is in M. -/
  | engineComplete (cmd : Nat)
  /-- `ENGINE_REPORT` (R238): An engine applies the head completion record to its barrier in one atomic step. -/
  | engineReport (eng : Nat)
  /-- `SBAR_ARRIVE` (R242): A queued sbar applies its arrival once earlier reporting commands have reported. -/
  | sbarArrive (t : Nat)
  /-- `SEEP` (R230): The machine copies one byte of M into an agent's snapshot. -/
  | seep (agent : Nat) (addr : Nat)
  /-- `PAGE_WALK` (R194): An AGE walks the page tables for a page no latch holds and fills a latch. -/
  | pageWalk (age : Nat) (va : Nat) (access : Nat)
  /-- `PORT_AGE_STREAM` (R217): The port AGE moves the next element of a virtual sport or ssink. -/
  | portAgeStream (t : Nat)
  /-- `REGION_LOAD` (R164): A dispatched scfg checks the region image and begins loading. -/
  | regionLoad (cmd : Nat)
  /-- `RESIDENCY_WAIT_END` (R324): A region load waiting on residency proceeds to configure its units. -/
  | residencyWaitEnd (cmd : Nat)
  /-- `SOURCE_ITEM_ADMIT` (R188): The source station reads its next item token from an fi port. -/
  | sourceItemAdmit (leader : Nat) (port : Nat)
  /-- `ISSUE_GATE_CLOSE` (R171): At fc B-G of the beat the governor closes a resumable station's issue gate. -/
  | issueGateClose (leader : Nat) (station : Nat)
  /-- `BEAT_BOUNDARY` (R172): The beat count expires and the governor runs the boundary steps for the whole region. -/
  | beatBoundary (leader : Nat)
  /-- `SLIP_END` (R175): Every slipping item has finished and the governor completes the boundary from step 4. -/
  | slipEnd (leader : Nat)
  /-- `GOVERNOR_WINDOW` (R180): A window of 64 beats ends and the auto governor lengthens, shortens or keeps the beat. -/
  | governorWindow (leader : Nat)
  /-- `SINK_REPORT` (R173): A sink port counts its expected EOTs or its first ERR and reports. -/
  | sinkReport (leader : Nat) (sink : Nat)
  /-- `CONFIG_PARITY_ERROR` (R341): A slot failing its parity check keeps its unit from firing and asks for a hold. -/
  | configParityError (t : Nat) (slot : Nat)
  /-- `CONFIG_PARITY_REPAIR` (R341): At the token round the controller rewrites failing slots and resumes or stops with 0x1D. -/
  | configParityRepair (leader : Nat)
  /-- `RING_RENDEZVOUS` (R223): All eight sring commands of a cluster meet and rotate the window in lockstep. -/
  | ringRendezvous (cluster : Nat)
  /-- `RING_TIMEOUT` (R223): A waiting sring expires after 1,048,576 fc and the waiting commands are dropped. -/
  | ringTimeout (t : Nat)
  /-- `MATRIX_COMMAND_START` (R261): The matrix array starts a startable command from the head of a stream queue. -/
  | matrixCommandStart (t : Nat) (sn : Nat)
  /-- `SMAT_ROW` (R265): The array takes one K-block for an activation row into CSTs. -/
  | smatRow (t : Nat)
  /-- `STRIP_DELIVER` (R267): A delivered row's CSTs go down the south-edge strip to the normaliser nodes. -/
  | stripDeliver (t : Nat)
  /-- `GRAPH_NODE_RUN` (R283): The walker takes the earliest READY node and acts by its kind. -/
  | graphNodeRun (ctx : Nat)
  /-- `GRAPH_NODE_FINISH` (R283): A running node finishes and decrements its successors. -/
  | graphNodeFinish (ctx : Nat) (node : Nat)
  /-- `END_NODE` (R283): An END node, once no other node is ready or running, stores its value, posts GRAPH_END and frees the context. -/
  | endNode (ctx : Nat)
  /-- `CONTEXT_FREE` (R287): A stopped context is freed once its commands complete and regions retire. -/
  | contextFree (ctx : Nat)
  /-- `SPAWN_READ` (R289): The task scheduler reads and checks a SPAWN node's offset vector. -/
  | spawnRead (ctx : Nat) (node : Nat)
  /-- `SPAWN_TASK_PUSH` (R291): The scheduler pushes a task record onto the least-loaded deque, waiting while all are full. -/
  | spawnTaskPush (ctx : Nat) (node : Nat)
  /-- `WS_SAMPLE` (R292): A sampling interval expires and every working-set page's accessed bit is sampled and cleared. -/
  | wsSample (dev : Nat) (fn : Nat)
  /-- `PAGE_MOVE` (R323): The tier engine marks, re-latches, copies and remaps one page. -/
  | pageMove (dev : Nat) (fn : Nat) (va : Nat) (frame : Nat)
  /-- `QUANTUM_EXPIRY` (R320): A running tenant's quantum ends and the scheduler may pre-empt it. -/
  | quantumExpiry (dev : Nat) (fn : Nat)
  /-- `SOFT_PREEMPT_TIMEOUT` (R326): A region reaching no token round within 65,536 fc is frozen hard. -/
  | softPreemptTimeout (dev : Nat) (fn : Nat)
  /-- `QUANTUM_GRANT` (R316): A READY tenant is granted a quantum, its tiles restored and its working set swapped in. -/
  | quantumGrant (dev : Nat) (fn : Nat)
  /-- `HANG` (R340): A runnable tenant that makes no progress for its hang limit is frozen with 0x44. -/
  | hang (dev : Nat) (fn : Nat)
  /-- `STREAM_PAIR` (R357): Two matching stream ends pair and bind. -/
  | streamPair (txPort : Nat) (rxPort : Nat)
  /-- `STREAM_TOKEN_TRANSFER` (R358): A bound stream takes an fo token and delivers it to the far fi port. -/
  | streamTokenTransfer (txPort : Nat)
  /-- `STREAM_CLOSE_MARK` (R359): The close mark reaches the receive end and the waiting sclose unbinds it. -/
  | streamCloseMark (rxPort : Nat)
  /-- `FRAME_RECEIVE` (R369): A Belgal data frame arrives and is accepted in order or discarded with a nak. -/
  | frameReceive (link : Nat) (frame : List Word)
  /-- `NAK_RECEIVE` (R369): A nak makes the sender replay every unacknowledged frame. -/
  | nakReceive (link : Nat) (ack : Nat)
  /-- `ACK_RECEIVE` (R369): An ack frame releases acknowledged frames from the sender. -/
  | ackReceive (link : Nat) (ack : Nat)
  /-- `KEY_RENEWAL` (R365): Isatar delivers and installs a next link key, and the sender switches key epoch. -/
  | keyRenewal (link : Nat)
  /-- `LANE_FAILURE` (R363): A failed lane makes the port retrain on the remaining lanes. -/
  | laneFailure (link : Nat)
  /-- `LINK_DOWN` (R355): A link lost after sparing is rerouted, or traffic with no path raises 0x50. -/
  | linkDown (link : Nat)
  /-- `SEND_AT_ROOT` (R373): A group send reaches the root of its tree. -/
  | sendAtRoot (send : Nat)
  /-- `SEND_STEER` (R373): A send at a node is taken, forwarded to a child, bounced to the parent or parked. -/
  | sendSteer (send : Nat)
  /-- `ORDERWAIT_RELEASE` (R377): An ordered send leaves ORDERWAIT when earlier ordered sends are acknowledged or removed. -/
  | orderwaitRelease (send : Nat)
  /-- `PARKED_RESTART` (R373): A rise in root readiness restarts parked sends oldest first. -/
  | parkedRestart (group : Nat)
  /-- `GROUP_PARK_TIMEOUT` (R374): A send parked for plimit is removed and its sender takes 0x52. -/
  | groupParkTimeout (send : Nat)
  /-- `READINESS_ARRIVE` (R372): A readiness change of a member arrives at an ancestor and updates its count. -/
  | readinessArrive (msg : Nat)
  /-- `ACK_ARRIVE` (R376): An acknowledgement reaches the sender, removes the send and may post GACKED. -/
  | ackArrive (msg : Nat)
  /-- `STRUCK` (R379): A lost die or failed tenant strikes members, rebuilds trees and restarts affected sends. -/
  | struck (dev : Nat) (die : Nat) (fn : Nat)
  /-- `BIASED` (R390): A closed micro-batch's sends are all taken and the bias unit updates biases and posts BIASED. -/
  | biased (t : Nat) (set : Nat)
  /-- `DIE_LOST` (R352): A die is lost, stopping regions on it and freezing affected tenants with 0x51. -/
  | dieLost (gdie : Nat)
  /-- `THERMAL_TRIP` (R408): A die passes its trip temperature, freezing its tenants with 0x55 and stopping its clock. -/
  | thermalTrip (gdie : Nat)
  /-- `ECC_UNCORRECTABLE` (R342): An uncorrectable memory error makes the tenant fatal with 0x53. -/
  | eccUncorrectable (dev : Nat) (fn : Nat)
  /-- `SPARE_EXHAUSTED` (R342): A tile failure with no spare left makes the tenant fatal with 0x56. -/
  | spareExhausted (gdie : Nat)
  /-- `SECURITY_ALARM` (R402): Isatar logs an alarm or freezes a tenant or the device and erases keys. -/
  | securityAlarm (dev : Nat) (level : Nat) (fn : Nat)
  /-- `DOORBELL` (R396): A host write of a queue's tail doorbell makes new entries available. -/
  | doorbell (dev : Nat) (fn : Nat) (queue : Nat) (tail : Nat)
  /-- `QUEUE_ENTRY_SUBMIT` (R397): The device submits the next queue entry as a gnode once a context is free, or stops on a malformed one. -/
  | queueEntrySubmit (dev : Nat) (fn : Nat) (queue : Nat)
  /-- `QUEUE_REGISTER_WRITE` (R396): A write to a BAR0 queue control register with no row of its own. -/
  | queueRegisterWrite (dev : Nat) (fn : Nat) (queue : Nat) (off : Nat) (value : Nat)
  /-- `POWER_ON_RESET` (R399): Power-on or device reset runs the bring-up steps of Isatar. -/
  | powerOnReset (dev : Nat) (number : Nat) (base : Nat)
  /-- `TILE_RESET` (R86): A tile reset zeroes the slots and makes the core idle. -/
  | tileReset (t : Nat)
  /-- `SPDM_REQUEST` (R400): Isatar answers an SPDM request over MCTP. -/
  | spdmRequest (dev : Nat) (request : Nat)
  /-- `MANAGEMENT_MESSAGE` (R408): A management message arrives over MCTP on the host port. -/
  | managementMessage (dev : Nat) (kind : Nat) (value : Nat)
  /-- `JTAG_OPEN` (R409): An owner message makes Isatar record and open JTAG access. -/
  | jtagOpen (dev : Nat) (tenants : Nat)
  /-- `DEBUG_HOLD` (R409): A debugger holds a core at an instruction boundary. -/
  | debugHold (t : Nat)
  /-- `STEP_CHANGE_REQUEST` (R404): The governor decides a step change and asks live regions for a hold, or denies it. -/
  | stepChangeRequest (gdie : Nat) (target : Nat)
  /-- `STEP_HOLDS_DONE` (R404): Every region of the die is held and the voltage or clock starts to change. -/
  | stepHoldsDone (gdie : Nat)
  /-- `STEP_RAMP_DONE` (R404): The voltage settles or the clock locks and the second change is made. -/
  | stepRampDone (gdie : Nat)
  /-- `STEP_SWITCH_DONE` (R404): The change completes and the governor releases its holds. -/
  | stepSwitchDone (gdie : Nat)
  /-- `IDLE_ENTRY` (R406): A die idle past a threshold enters the deepest allowed idle state. -/
  | idleEntry (gdie : Nat)
  /-- `IDLE_WAKE` (R406): A doorbell, frame, request or event wakes an idle die. -/
  | idleWake (gdie : Nat)
  /-- `TAKEN_NOTICE` (R375): The taken notice of a send arrives at the sender's core, carrying the experts chosen for an expert send, which the core counts for its micro-batch. -/
  | takenNotice (msg : Nat)
  /-- `COUNTER_PERIOD_END` (R347): At the end of each cperiod the values of the shared counters that tenant reads return are fixed. -/
  | counterPeriodEnd (dev : Nat) (fn : Nat)
  /-- `HOST_CXL_MEM_ACCESS` (R395): A CXL.mem request from the host reads or writes an owner-exposed HBM range, with back-invalidate. -/
  | hostCxlMemAccess (dev : Nat) (addr : Nat) (write : Nat) (value : Nat)
  /-- `DEBUGGER_RELEASE` (R409): The debugger releases a core that it holds, and the core resumes. -/
  | debuggerRelease (t : Nat)
  /-- `DEBUGGER_ACCESS` (R409): A debugger reads or writes a held core's registers or its tile's scratchpad over JTAG. -/
  | debuggerAccess (t : Nat) (what : Nat) (index : Nat) (write : Nat) (value : Nat)
  /-- `NOP` (R92): Does nothing beyond advancing the pc; its only encoding is all zeros. -/
  | nop
  /-- `SPORT` (R185): Streams a tensor into an fi port as DATA tokens with row markers. -/
  | sport
  /-- `SSINK` (R185): Drains an fo port into a tensor row by row. -/
  | ssink
  /-- `SFILL` (R186): Places a count of tokens of one kind into an fi port. -/
  | sfill
  /-- `SAGE` (R203): Binds a tensor entry and loop nest to a fabric AGE. -/
  | sage
  /-- `SBOUND` (R205): Places one BOUND token into an fi port. -/
  | sbound
  /-- `SCFG` (R187): Loads a region image at a scratchpad address. -/
  | scfg
  /-- `SARG` (R187): Enters a value for the k of an element of this or another tile. -/
  | sarg
  /-- `SLDW` (R262): Loads the matrix array's shadow weight plane. -/
  | sldw
  /-- `SSWAP` (R263): Exchanges the active and shadow weight planes in one step. -/
  | sswap
  /-- `SMAT` (R264): Streams activation rows past the active weight plane. -/
  | smat
  /-- `SCOPY` (R256): Copies a tensor element by element with one rounding, optionally splitting and with a follow-on. -/
  | scopy
  /-- `SGATH` (R258): Gathers rows by an index list. -/
  | sgath
  /-- `SSCAT` (R258): Scatters rows by an index list. -/
  | sscat
  /-- `SLAY` (R269): Runs a layout program on a layout engine. -/
  | slay
  /-- `SRING` (R222): Rotates a scratchpad window around the cluster ring. -/
  | sring
  /-- `SBAR` (R242): Arrives at a barrier in command order. -/
  | sbar
  /-- `SWO` (R361): Binds a write-once buffer with presence bits. -/
  | swo
  /-- `SQUANT` (R259): Quantizes a tensor into a narrow format with chosen block scales. -/
  | squant
  /-- `STIER` (R325): Prefetches, pins or releases the pages of a range. -/
  | stier
  /-- `SXFER` (R356): Binds one end of a cross-chip stream. -/
  | sxfer
  /-- `SCLOSE` (R359): Unbinds one end of a cross-chip stream. -/
  | sclose
  /-- `SMARK` (R186): Places one marker token into an fi port. -/
  | smark
  /-- `EL_IADD` (R132): Word element integer add fires. -/
  | elIadd
  /-- `EL_ISUB` (R132): Word element integer subtract fires. -/
  | elIsub
  /-- `EL_IMUL` (R132): Word element integer multiply fires. -/
  | elImul
  /-- `EL_IMAC` (R132): Word element integer multiply-add fires. -/
  | elImac
  /-- `EL_IAND` (R132): Word element bitwise and fires. -/
  | elIand
  /-- `EL_IOR` (R132): Word element bitwise or fires. -/
  | elIor
  /-- `EL_IXOR` (R132): Word element bitwise xor fires. -/
  | elIxor
  /-- `EL_ISHL` (R132): Word element shift left fires. -/
  | elIshl
  /-- `EL_ISHR` (R132): Word element logical shift right fires. -/
  | elIshr
  /-- `EL_ISAR` (R132): Word element arithmetic shift right fires. -/
  | elIsar
  /-- `EL_IMIN` (R132): Word element integer minimum fires. -/
  | elImin
  /-- `EL_IMAX` (R132): Word element integer maximum fires. -/
  | elImax
  /-- `EL_ICMP` (R132): Word element integer compare fires. -/
  | elIcmp
  /-- `EL_ISEL` (R132): Word element integer select fires. -/
  | elIsel
  /-- `EL_FADD` (R133): Word element FP32 add fires. -/
  | elFadd
  /-- `EL_FSUB` (R133): Word element FP32 subtract fires. -/
  | elFsub
  /-- `EL_FMUL` (R133): Word element FP32 multiply fires. -/
  | elFmul
  /-- `EL_FMA` (R133): Word element FP32 fused multiply-add fires. -/
  | elFma
  /-- `EL_FMIN` (R133): Word element FP32 minimum fires. -/
  | elFmin
  /-- `EL_FMAX` (R133): Word element FP32 maximum fires. -/
  | elFmax
  /-- `EL_FCMP` (R133): Word element FP32 compare fires. -/
  | elFcmp
  /-- `EL_FABS` (R133): Word element FP32 absolute value fires. -/
  | elFabs
  /-- `EL_FDIV` (R133): Word element FP32 divide fires. -/
  | elFdiv
  /-- `EL_FSQRT` (R133): Word element FP32 square root fires. -/
  | elFsqrt
  /-- `EL_FRSQ` (R134): Word element reciprocal square root fires. -/
  | elFrsq
  /-- `EL_FEXP2` (R134): Word element base-2 exponential fires. -/
  | elFexp2
  /-- `EL_FLOG2` (R134): Word element base-2 logarithm fires. -/
  | elFlog2
  /-- `EL_FTANH` (R134): Word element hyperbolic tangent fires. -/
  | elFtanh
  /-- `EL_CVTIN` (R135): Decodes a narrow format to FP32. -/
  | elCvtin
  /-- `EL_CVTOUT` (R135): Converts FP32 into a narrow format. -/
  | elCvtout
  /-- `EL_PACK` (R135): Collects narrow elements into packed words. -/
  | elPack
  /-- `EL_UNPACK` (R135): Emits the elements of each arriving packed word. -/
  | elUnpack
  /-- `EL_QUANT` (R136): Block-quantizes values against a held block maximum. -/
  | elQuant
  /-- `EL_SCALE` (R136): Multiplies FP32 values by a held block scale. -/
  | elScale
  /-- `EL_ITOF` (R135): Converts an integer to FP32. -/
  | elItof
  /-- `EL_FTOI` (R135): Converts FP32 to an integer. -/
  | elFtoi
  /-- `EL_RSUM` (R137): Accumulates a sum and emits it on a row marker. -/
  | elRsum
  /-- `EL_RMAX` (R137): Accumulates a maximum and emits it on a row marker. -/
  | elRmax
  /-- `EL_RMAXABS` (R137): Accumulates a greatest magnitude and emits it on a row marker. -/
  | elRmaxabs
  /-- `EL_RMIN` (R137): Accumulates a minimum and emits it on a row marker. -/
  | elRmin
  /-- `EL_RCNT` (R137): Counts DATA tokens and emits the count on a row marker. -/
  | elRcnt
  /-- `EL_SCAN` (R138): Emits the running sum after each DATA token. -/
  | elScan
  /-- `EL_MSTRIP` (R138): Passes DATA and drops selected marker kinds. -/
  | elMstrip
  /-- `EL_MINS` (R138): Inserts an EOR after every k DATA tokens, or emits k once at region start in prefix mode. -/
  | elMins
  /-- `EL_DELAY_INTAKE` (R140): A delay element takes a token into its buffer while below depth. -/
  | elDelayIntake
  /-- `EL_CONST` (R138): Emits k for each DATA token. -/
  | elConst
  /-- `EL_IOTA` (R138): Emits a counter for each DATA token. -/
  | elIota
  /-- `EL_SEL` (R141): Selects one of two inputs by an index token. -/
  | elSel
  /-- `EL_DSEL` (R141): Passes or discards a token as one branch of a demultiplexer. -/
  | elDsel
  /-- `EL_JOIN` (R141): Fires when every used input holds a token and emits in0's. -/
  | elJoin
  /-- `EL_GATE` (R141): Passes or discards in0 by a control token. -/
  | elGate
  /-- `EL_ERR` (R141): Passes zero or emits an ERR with cause k. -/
  | elErr
  /-- `EL_MRD` (R207): A memory node reads w bits at a handle's address and emits them. -/
  | elMrd
  /-- `EL_MWR` (R207): A memory node writes w bits at a handle's address. -/
  | elMwr
  /-- `EL_MAMO` (R243): A memory node performs one 32-bit atomic and emits the old value. -/
  | elMamo
  /-- `EL_PUB` (R244): Drains the phase buffers of masked memory nodes at its scope. -/
  | elPub
  /-- `EL_ACQ` (R244): Refreshes the snapshots of masked memory nodes at its scope. -/
  | elAcq
  /-- `EL_AGEN` (R202): A fabric AGE issues the next address handle of its loop nest. -/
  | elAgen
  /-- `EL_LGEN` (R204): A fabric AGE takes a bound or emits the next loop counter token. -/
  | elLgen
  /-- `EL_MFEED` (R148): Delivers an operand to a west lane of the matrix array. -/
  | elMfeed
  /-- `EL_NORM` (R146): A normaliser node resolves a CST into FP32, BF16 or FP16. -/
  | elNorm
  /-- `EL_ACC` (R147): An accumulator relays or accumulates a routed token and emits on markers. -/
  | elAcc
  /-- `EL_CADD` (R146): A normaliser node combines two CSTs. -/
  | elCadd
  /-- `EL_LUT` (R143): A LUT island forms a 32-bit result through its tables with a carry chain. -/
  | elLut
  /-- `EL_BSPLIT` (R144): Splits a word into fields emitted as tokens. -/
  | elBsplit
  /-- `EL_BJOIN` (R144): Collects fields into one word. -/
  | elBjoin
  /-- `STEER` (R150): A router operator sends a token to one of two outputs by a control token. -/
  | steer
  /-- `MERGE` (R150): A router operator merges two incoming channels into one. -/
  | merge
  /-- `CARRY` (R151): A router operator passes a first token then loop-back tokens while control is non-zero. -/
  | carry
  /-- `FORK` (R150): A router operator copies a token to two outputs. -/
  | fork
  /-- `DROP` (R150): A router operator passes or discards a token by a control token. -/
  | drop
  /-- `LAYOUT_STOP` (R270): Waits for writes to be in M, reports bytes since the last mark and ends the program. -/
  | layoutStop
  /-- `LAYOUT_FOR` (R270): Starts a loop counter with a count. -/
  | layoutFor
  /-- `LAYOUT_NEXT` (R270): Advances a loop counter and branches while below its count. -/
  | layoutNext
  /-- `LAYOUT_RD` (R270): Reads source elements into the stage. -/
  | layoutRd
  /-- `LAYOUT_WR` (R270): Writes stage values to the destination, rounded by the write mode. -/
  | layoutWr
  /-- `LAYOUT_TR8` (R270): Transposes an 8x8 block of the stage. -/
  | layoutTr8
  /-- `LAYOUT_SWZ` (R270): Permutes stage values by an xor mask. -/
  | layoutSwz
  /-- `LAYOUT_PAD` (R270): Writes +0 into stage values. -/
  | layoutPad
  /-- `LAYOUT_CVT` (R270): Sets the write mode's rounding and flush. -/
  | layoutCvt
  /-- `LAYOUT_ADV` (R270): Adds to or sets one dimension of a cursor. -/
  | layoutAdv
  /-- `LAYOUT_MARK` (R270): Waits for writes to be in M and reports bytes written since the last mark. -/
  | layoutMark
  /-- `LAYOUT_SYNC` (R270): Waits for writes to be in M before the next read. -/
  | layoutSync
  deriving DecidableEq, Repr, Inhabited

/-- Whose turn it is to take the next step of the machine (R227: one sequence of steps). -/
inductive Turn where
  /-- the control core of the tile (device × 160 + global tile number) fetches and runs one instruction -/
  | core (tile : Nat)
  /-- the unit or router operator of the tile's configuration slot acts by its word (R122) -/
  | unit (tile : Nat) (slot : Nat)
  /-- the layout engine runs the next word of its program (R268) -/
  | layout (engine : Nat)
  /-- an act that no word encodes: a unit's, an engine's, a controller's or the outside world's -/
  | act (i : Instr)
  /-- cycles of the fabric clock pass on a die (device × 2 + die) (R412) -/
  | cycles (gdie : Nat) (n : Nat)
  /-- microseconds of a device's time base pass (R412) -/
  | micros (dev : Nat) (n : Nat)
  deriving DecidableEq, Repr, Inhabited

end Sys2Proof
end

