-- ==== Sys2Proof/Decode.lean ====
section
/-! DEFINITION. The decoder of the five kinds of word (R23 to R49), total on any bits and rejecting by name, and the
encoder. A decoder answers only words whose codes are allocated and whose reserved fields are zero (R29, R31, R36,
R42, R46, R48). -/

namespace Sys2Proof

/-- Why a word is rejected: the cause the manual gives (R31, R36, R42, R48). -/
inductive DecodeError where
  /-- 0x01, R31 steps 3 and 4 -/
  | illegalOp
  /-- 0x02, R31 step 5 -/
  | illegalForm
  /-- 0x10, R36 -/
  | streamCmd
  /-- 0x11, R36 -/
  | portRange
  /-- 0x12, R42 and R46 -/
  | elementCfg
  /-- 0x33, R48 -/
  | layoutProgram
  deriving DecidableEq, Repr

/-- The bits hi..lo of a word. -/
def bits (w : Nat) (lo len : Nat) : Nat := (w >>> lo) % 2 ^ len

/-! ### The code maps -/

/-- The constructor of op `op` in form A (R32); none where the op does not take form A. -/
def formAInstr (op : Nat) (f : FormA) : Option Instr :=
  match op with
  | 0x00 => if f = { sub := 0, gn := false, guard := 0, b := 0, a := 0, d := 0 } then some .nop else none
  | 0x04 => some (.ret f)
  | 0x05 => some (.jr f)
  | 0x06 => some (.done f)
  | 0x08 => some (.wfe f)
  | 0x0A => some (.eret f)
  | 0x0B => some (.brk f)
  | 0x10 => some (.addA f)
  | 0x11 => some (.subA f)
  | 0x12 => some (.andA f)
  | 0x13 => some (.orA f)
  | 0x14 => some (.xorA f)
  | 0x15 => some (.andnA f)
  | 0x16 => some (.shlA f)
  | 0x17 => some (.shrA f)
  | 0x18 => some (.sarA f)
  | 0x19 => some (.rotlA f)
  | 0x1A => some (.minA f)
  | 0x1B => some (.maxA f)
  | 0x1C => some (.minuA f)
  | 0x1D => some (.maxuA f)
  | 0x1E => some (.selA f)
  | 0x1F => some (.movA f)
  | 0x20 => some (.mulA f)
  | 0x21 => some (.mulhA f)
  | 0x22 => some (.mulhuA f)
  | 0x23 => some (.divA f)
  | 0x24 => some (.divuA f)
  | 0x25 => some (.remA f)
  | 0x26 => some (.remuA f)
  | 0x27 => some (.clz f)
  | 0x28 => some (.ctz f)
  | 0x29 => some (.popc f)
  | 0x2A => some (.extA f)
  | 0x2D => some (.brev f)
  | 0x2E => some (.bswap f)
  | 0x2F => some (.addcpA f)
  | 0x30 => some (.cmpA f)
  | 0x31 => some (.pand f)
  | 0x32 => some (.por f)
  | 0x33 => some (.pxor f)
  | 0x34 => some (.pnot f)
  | 0x36 => some (.pget f)
  | 0x37 => some (.leaA f)
  | 0x40 => some (.ldA f)
  | 0x41 => some (.stA f)
  | 0x42 => some (.ldpA f)
  | 0x43 => some (.stpA f)
  | 0x50 => some (.gldA f)
  | 0x51 => some (.gstA f)
  | 0x52 => some (.amo f)
  | 0x53 => some (.cas f)
  | 0x54 => some (.phase f)
  | 0x55 => some (.barvA f)
  | 0x56 => some (.bwait f)
  | 0x57 => some (.bexpA f)
  | 0x58 => some (.tlook f)
  | 0x59 => some (.tinsA f)
  | 0x5A => some (.tevict f)
  | 0x60 => some (.faddA f)
  | 0x61 => some (.fsubA f)
  | 0x62 => some (.fmulA f)
  | 0x63 => some (.fmaA f)
  | 0x64 => some (.fmsA f)
  | 0x65 => some (.fnmaA f)
  | 0x66 => some (.fdivA f)
  | 0x67 => some (.fsqrt f)
  | 0x68 => some (.fminA f)
  | 0x69 => some (.fmaxA f)
  | 0x6A => some (.fcmpA f)
  | 0x6B => some (.fcvt f)
  | 0x6C => some (.fclass f)
  | 0x6D => some (.fsgnA f)
  | 0x6E => some (.frnd f)
  | 0x70 => some (.fputA f)
  | 0x71 => some (.fgetA f)
  | 0x72 => some (.fcntA f)
  | 0x73 => some (.acrd f)
  | 0x74 => some (.acclr f)
  | 0x75 => some (.cfglA f)
  | 0x76 => some (.argwA f)
  | 0x77 => some (.bsetA f)
  | 0x78 => some (.bget f)
  | 0x79 => some (.bhold f)
  | 0x7A => some (.bgo f)
  | 0x7B => some (.rfstA f)
  | 0x7C => some (.rfclA f)
  | 0x80 => some (.dqpush f)
  | 0x81 => some (.dqpop f)
  | 0x82 => some (.dqstealA f)
  | 0x83 => some (.armA f)
  | 0x84 => some (.evget f)
  | 0x85 => some (.gnodeA f)
  | 0x86 => some (.gsigA f)
  | 0x87 => some (.yield f)
  | 0x90 => if f.sub.toNat % 2 = 1 then some (.gsendXA f) else some (.gsendA f)
  | 0x91 => some (.gsendoA f)
  | 0x92 => some (.grecvA f)
  | 0x93 => some (.greadyA f)
  | 0x94 => some (.gunreadyA f)
  | 0x95 => some (.gack f)
  | 0x96 => some (.gstatA f)
  | 0x97 => some (.xmask f)
  | 0x98 => some (.sdq f)
  | 0x99 => some (.sdacc f)
  | 0x9A => some (.sdsave f)
  | 0x9B => some (.sdload f)
  | 0x9C => some (.sdcapA f)
  | 0x9D => some (.sdrstA f)
  | 0xA2 => some (.relatch f)
  | 0xA3 => some (.ctxsv f)
  | 0xA4 => some (.ctxld f)
  | 0xA5 => some (.tidw f)
  | 0xA6 => some (.tidr f)
  | 0xA7 => some (.pwrA f)
  | _ => none

/-- The constructor of op `op` in form B (R32); none where the op does not take form B. -/
def formBInstr (op : Nat) (f : FormB) : Option Instr :=
  match op with
  | 0x01 => some (.brB f)
  | 0x02 => some (.bpB f)
  | 0x03 => some (.callB f)
  | 0x07 => some (.loopB f)
  | 0x09 => some (.trapB f)
  | 0x10 => some (.addB f)
  | 0x11 => some (.subB f)
  | 0x12 => some (.andB f)
  | 0x13 => some (.orB f)
  | 0x14 => some (.xorB f)
  | 0x15 => some (.andnB f)
  | 0x16 => some (.shlB f)
  | 0x17 => some (.shrB f)
  | 0x18 => some (.sarB f)
  | 0x19 => some (.rotlB f)
  | 0x1A => some (.minB f)
  | 0x1B => some (.maxB f)
  | 0x1C => some (.minuB f)
  | 0x1D => some (.maxuB f)
  | 0x1E => some (.selB f)
  | 0x1F => some (.movB f)
  | 0x20 => some (.mulB f)
  | 0x21 => some (.mulhB f)
  | 0x22 => some (.mulhuB f)
  | 0x23 => some (.divB f)
  | 0x24 => some (.divuB f)
  | 0x25 => some (.remB f)
  | 0x26 => some (.remuB f)
  | 0x2A => some (.extB f)
  | 0x2B => some (.bfx f)
  | 0x2C => some (.bfi f)
  | 0x2F => some (.addcpB f)
  | 0x30 => some (.cmpB f)
  | 0x35 => some (.pset f)
  | 0x37 => some (.leaB f)
  | 0x38 => some (.pcrelB f)
  | 0x40 => some (.ldB f)
  | 0x41 => some (.stB f)
  | 0x42 => some (.ldpB f)
  | 0x43 => some (.stpB f)
  | 0x50 => some (.gldB f)
  | 0x51 => some (.gstB f)
  | 0x55 => some (.barvB f)
  | 0x57 => some (.bexpB f)
  | 0x59 => some (.tinsB f)
  | 0x70 => some (.fputB f)
  | 0x71 => some (.fgetB f)
  | 0x72 => some (.fcntB f)
  | 0x75 => some (.cfglB f)
  | 0x76 => some (.argwB f)
  | 0x77 => some (.bsetB f)
  | 0x7B => some (.rfstB f)
  | 0x7C => some (.rfclB f)
  | 0x82 => some (.dqstealB f)
  | 0x83 => some (.armB f)
  | 0x85 => some (.gnodeB f)
  | 0x86 => some (.gsigB f)
  | 0x90 => if f.sub.toNat % 2 = 1 then some (.gsendXB f) else some (.gsendB f)
  | 0x91 => some (.gsendoB f)
  | 0x92 => some (.grecvB f)
  | 0x93 => some (.greadyB f)
  | 0x94 => some (.gunreadyB f)
  | 0x96 => some (.gstatB f)
  | 0x9C => some (.sdcapB f)
  | 0x9D => some (.sdrstB f)
  | 0xA0 => some (.sget f)
  | 0xA1 => some (.sset f)
  | 0xA7 => some (.pwrB f)
  | 0xA8 => some (.cntr f)
  | 0xA9 => some (.cntc f)
  | _ => none

/-- The constructor of op `op` in form C (R32); none where the op does not take form C. -/
def formCInstr (op : Nat) (f : FormC) : Option Instr :=
  match op with
  | 0x01 => some (.brC f)
  | 0x02 => some (.bpC f)
  | 0x03 => some (.callC f)
  | 0x07 => some (.loopC f)
  | 0x10 => some (.addC f)
  | 0x11 => some (.subC f)
  | 0x12 => some (.andC f)
  | 0x13 => some (.orC f)
  | 0x14 => some (.xorC f)
  | 0x15 => some (.andnC f)
  | 0x16 => some (.shlC f)
  | 0x17 => some (.shrC f)
  | 0x18 => some (.sarC f)
  | 0x19 => some (.rotlC f)
  | 0x1A => some (.minC f)
  | 0x1B => some (.maxC f)
  | 0x1C => some (.minuC f)
  | 0x1D => some (.maxuC f)
  | 0x1E => some (.selC f)
  | 0x1F => some (.movC f)
  | 0x20 => some (.mulC f)
  | 0x21 => some (.mulhC f)
  | 0x22 => some (.mulhuC f)
  | 0x23 => some (.divC f)
  | 0x24 => some (.divuC f)
  | 0x25 => some (.remC f)
  | 0x26 => some (.remuC f)
  | 0x2F => some (.addcpC f)
  | 0x30 => some (.cmpC f)
  | 0x37 => some (.leaC f)
  | 0x38 => some (.pcrelC f)
  | 0x40 => some (.ldC f)
  | 0x41 => some (.stC f)
  | 0x60 => some (.faddC f)
  | 0x61 => some (.fsubC f)
  | 0x62 => some (.fmulC f)
  | 0x63 => some (.fmaC f)
  | 0x64 => some (.fmsC f)
  | 0x65 => some (.fnmaC f)
  | 0x66 => some (.fdivC f)
  | 0x68 => some (.fminC f)
  | 0x69 => some (.fmaxC f)
  | 0x6A => some (.fcmpC f)
  | 0x6D => some (.fsgnC f)
  | 0x76 => some (.argwC f)
  | _ => none

/-- The op code of a form A constructor and its fields (R32). -/
def asFormA : Instr → Option (Nat × FormA)
  | .nop => some (0x00, { sub := 0, gn := false, guard := 0, b := 0, a := 0, d := 0 })
  | .ret f => some (0x04, f)
  | .jr f => some (0x05, f)
  | .done f => some (0x06, f)
  | .wfe f => some (0x08, f)
  | .eret f => some (0x0A, f)
  | .brk f => some (0x0B, f)
  | .addA f => some (0x10, f)
  | .subA f => some (0x11, f)
  | .andA f => some (0x12, f)
  | .orA f => some (0x13, f)
  | .xorA f => some (0x14, f)
  | .andnA f => some (0x15, f)
  | .shlA f => some (0x16, f)
  | .shrA f => some (0x17, f)
  | .sarA f => some (0x18, f)
  | .rotlA f => some (0x19, f)
  | .minA f => some (0x1A, f)
  | .maxA f => some (0x1B, f)
  | .minuA f => some (0x1C, f)
  | .maxuA f => some (0x1D, f)
  | .selA f => some (0x1E, f)
  | .movA f => some (0x1F, f)
  | .mulA f => some (0x20, f)
  | .mulhA f => some (0x21, f)
  | .mulhuA f => some (0x22, f)
  | .divA f => some (0x23, f)
  | .divuA f => some (0x24, f)
  | .remA f => some (0x25, f)
  | .remuA f => some (0x26, f)
  | .clz f => some (0x27, f)
  | .ctz f => some (0x28, f)
  | .popc f => some (0x29, f)
  | .extA f => some (0x2A, f)
  | .brev f => some (0x2D, f)
  | .bswap f => some (0x2E, f)
  | .addcpA f => some (0x2F, f)
  | .cmpA f => some (0x30, f)
  | .pand f => some (0x31, f)
  | .por f => some (0x32, f)
  | .pxor f => some (0x33, f)
  | .pnot f => some (0x34, f)
  | .pget f => some (0x36, f)
  | .leaA f => some (0x37, f)
  | .ldA f => some (0x40, f)
  | .stA f => some (0x41, f)
  | .ldpA f => some (0x42, f)
  | .stpA f => some (0x43, f)
  | .gldA f => some (0x50, f)
  | .gstA f => some (0x51, f)
  | .amo f => some (0x52, f)
  | .cas f => some (0x53, f)
  | .phase f => some (0x54, f)
  | .barvA f => some (0x55, f)
  | .bwait f => some (0x56, f)
  | .bexpA f => some (0x57, f)
  | .tlook f => some (0x58, f)
  | .tinsA f => some (0x59, f)
  | .tevict f => some (0x5A, f)
  | .faddA f => some (0x60, f)
  | .fsubA f => some (0x61, f)
  | .fmulA f => some (0x62, f)
  | .fmaA f => some (0x63, f)
  | .fmsA f => some (0x64, f)
  | .fnmaA f => some (0x65, f)
  | .fdivA f => some (0x66, f)
  | .fsqrt f => some (0x67, f)
  | .fminA f => some (0x68, f)
  | .fmaxA f => some (0x69, f)
  | .fcmpA f => some (0x6A, f)
  | .fcvt f => some (0x6B, f)
  | .fclass f => some (0x6C, f)
  | .fsgnA f => some (0x6D, f)
  | .frnd f => some (0x6E, f)
  | .fputA f => some (0x70, f)
  | .fgetA f => some (0x71, f)
  | .fcntA f => some (0x72, f)
  | .acrd f => some (0x73, f)
  | .acclr f => some (0x74, f)
  | .cfglA f => some (0x75, f)
  | .argwA f => some (0x76, f)
  | .bsetA f => some (0x77, f)
  | .bget f => some (0x78, f)
  | .bhold f => some (0x79, f)
  | .bgo f => some (0x7A, f)
  | .rfstA f => some (0x7B, f)
  | .rfclA f => some (0x7C, f)
  | .dqpush f => some (0x80, f)
  | .dqpop f => some (0x81, f)
  | .dqstealA f => some (0x82, f)
  | .armA f => some (0x83, f)
  | .evget f => some (0x84, f)
  | .gnodeA f => some (0x85, f)
  | .gsigA f => some (0x86, f)
  | .yield f => some (0x87, f)
  | .gsendA f => some (0x90, f)
  | .gsendXA f => some (0x90, f)
  | .gsendoA f => some (0x91, f)
  | .grecvA f => some (0x92, f)
  | .greadyA f => some (0x93, f)
  | .gunreadyA f => some (0x94, f)
  | .gack f => some (0x95, f)
  | .gstatA f => some (0x96, f)
  | .xmask f => some (0x97, f)
  | .sdq f => some (0x98, f)
  | .sdacc f => some (0x99, f)
  | .sdsave f => some (0x9A, f)
  | .sdload f => some (0x9B, f)
  | .sdcapA f => some (0x9C, f)
  | .sdrstA f => some (0x9D, f)
  | .relatch f => some (0xA2, f)
  | .ctxsv f => some (0xA3, f)
  | .ctxld f => some (0xA4, f)
  | .tidw f => some (0xA5, f)
  | .tidr f => some (0xA6, f)
  | .pwrA f => some (0xA7, f)
  | _ => none

/-- The op code of a form B constructor and its fields (R32). -/
def asFormB : Instr → Option (Nat × FormB)
  | .brB f => some (0x01, f)
  | .bpB f => some (0x02, f)
  | .callB f => some (0x03, f)
  | .loopB f => some (0x07, f)
  | .trapB f => some (0x09, f)
  | .addB f => some (0x10, f)
  | .subB f => some (0x11, f)
  | .andB f => some (0x12, f)
  | .orB f => some (0x13, f)
  | .xorB f => some (0x14, f)
  | .andnB f => some (0x15, f)
  | .shlB f => some (0x16, f)
  | .shrB f => some (0x17, f)
  | .sarB f => some (0x18, f)
  | .rotlB f => some (0x19, f)
  | .minB f => some (0x1A, f)
  | .maxB f => some (0x1B, f)
  | .minuB f => some (0x1C, f)
  | .maxuB f => some (0x1D, f)
  | .selB f => some (0x1E, f)
  | .movB f => some (0x1F, f)
  | .mulB f => some (0x20, f)
  | .mulhB f => some (0x21, f)
  | .mulhuB f => some (0x22, f)
  | .divB f => some (0x23, f)
  | .divuB f => some (0x24, f)
  | .remB f => some (0x25, f)
  | .remuB f => some (0x26, f)
  | .extB f => some (0x2A, f)
  | .bfx f => some (0x2B, f)
  | .bfi f => some (0x2C, f)
  | .addcpB f => some (0x2F, f)
  | .cmpB f => some (0x30, f)
  | .pset f => some (0x35, f)
  | .leaB f => some (0x37, f)
  | .pcrelB f => some (0x38, f)
  | .ldB f => some (0x40, f)
  | .stB f => some (0x41, f)
  | .ldpB f => some (0x42, f)
  | .stpB f => some (0x43, f)
  | .gldB f => some (0x50, f)
  | .gstB f => some (0x51, f)
  | .barvB f => some (0x55, f)
  | .bexpB f => some (0x57, f)
  | .tinsB f => some (0x59, f)
  | .fputB f => some (0x70, f)
  | .fgetB f => some (0x71, f)
  | .fcntB f => some (0x72, f)
  | .cfglB f => some (0x75, f)
  | .argwB f => some (0x76, f)
  | .bsetB f => some (0x77, f)
  | .rfstB f => some (0x7B, f)
  | .rfclB f => some (0x7C, f)
  | .dqstealB f => some (0x82, f)
  | .armB f => some (0x83, f)
  | .gnodeB f => some (0x85, f)
  | .gsigB f => some (0x86, f)
  | .gsendB f => some (0x90, f)
  | .gsendXB f => some (0x90, f)
  | .gsendoB f => some (0x91, f)
  | .grecvB f => some (0x92, f)
  | .greadyB f => some (0x93, f)
  | .gunreadyB f => some (0x94, f)
  | .gstatB f => some (0x96, f)
  | .sdcapB f => some (0x9C, f)
  | .sdrstB f => some (0x9D, f)
  | .sget f => some (0xA0, f)
  | .sset f => some (0xA1, f)
  | .pwrB f => some (0xA7, f)
  | .cntr f => some (0xA8, f)
  | .cntc f => some (0xA9, f)
  | _ => none

/-- The op code of a form C constructor and its fields (R32). -/
def asFormC : Instr → Option (Nat × FormC)
  | .brC f => some (0x01, f)
  | .bpC f => some (0x02, f)
  | .callC f => some (0x03, f)
  | .loopC f => some (0x07, f)
  | .addC f => some (0x10, f)
  | .subC f => some (0x11, f)
  | .andC f => some (0x12, f)
  | .orC f => some (0x13, f)
  | .xorC f => some (0x14, f)
  | .andnC f => some (0x15, f)
  | .shlC f => some (0x16, f)
  | .shrC f => some (0x17, f)
  | .sarC f => some (0x18, f)
  | .rotlC f => some (0x19, f)
  | .minC f => some (0x1A, f)
  | .maxC f => some (0x1B, f)
  | .minuC f => some (0x1C, f)
  | .maxuC f => some (0x1D, f)
  | .selC f => some (0x1E, f)
  | .movC f => some (0x1F, f)
  | .mulC f => some (0x20, f)
  | .mulhC f => some (0x21, f)
  | .mulhuC f => some (0x22, f)
  | .divC f => some (0x23, f)
  | .divuC f => some (0x24, f)
  | .remC f => some (0x25, f)
  | .remuC f => some (0x26, f)
  | .addcpC f => some (0x2F, f)
  | .cmpC f => some (0x30, f)
  | .leaC f => some (0x37, f)
  | .pcrelC f => some (0x38, f)
  | .ldC f => some (0x40, f)
  | .stC f => some (0x41, f)
  | .faddC f => some (0x60, f)
  | .fsubC f => some (0x61, f)
  | .fmulC f => some (0x62, f)
  | .fmaC f => some (0x63, f)
  | .fmsC f => some (0x64, f)
  | .fnmaC f => some (0x65, f)
  | .fdivC f => some (0x66, f)
  | .fminC f => some (0x68, f)
  | .fmaxC f => some (0x69, f)
  | .fcmpC f => some (0x6A, f)
  | .fsgnC f => some (0x6D, f)
  | .argwC f => some (0x76, f)
  | _ => none

/-- The constructor of a stream command code (R35). -/
def streamInstr (code : Nat) : Option Instr :=
  match code with
  | 0x00 => some .sport
  | 0x01 => some .ssink
  | 0x02 => some .sfill
  | 0x03 => some .sage
  | 0x04 => some .sbound
  | 0x05 => some .scfg
  | 0x06 => some .sarg
  | 0x07 => some .sldw
  | 0x08 => some .sswap
  | 0x09 => some .smat
  | 0x0A => some .scopy
  | 0x0B => some .sgath
  | 0x0C => some .sscat
  | 0x0D => some .slay
  | 0x0E => some .sring
  | 0x0F => some .sbar
  | 0x10 => some .swo
  | 0x11 => some .squant
  | 0x12 => some .stier
  | 0x13 => some .sxfer
  | 0x14 => some .sclose
  | 0x15 => some .smark
  | _ => none

/-- The code of a stream command (R35). -/
def asStream : Instr → Option Nat
  | .sport => some 0x00
  | .ssink => some 0x01
  | .sfill => some 0x02
  | .sage => some 0x03
  | .sbound => some 0x04
  | .scfg => some 0x05
  | .sarg => some 0x06
  | .sldw => some 0x07
  | .sswap => some 0x08
  | .smat => some 0x09
  | .scopy => some 0x0A
  | .sgath => some 0x0B
  | .sscat => some 0x0C
  | .slay => some 0x0D
  | .sring => some 0x0E
  | .sbar => some 0x0F
  | .swo => some 0x10
  | .squant => some 0x11
  | .stier => some 0x12
  | .sxfer => some 0x13
  | .sclose => some 0x14
  | .smark => some 0x15
  | _ => none

/-- The constructor of an element operation code (R41). -/
def elInstr (op : Nat) : Option Instr :=
  match op with
  | 0x00 => some .elIadd
  | 0x01 => some .elIsub
  | 0x02 => some .elImul
  | 0x03 => some .elImac
  | 0x04 => some .elIand
  | 0x05 => some .elIor
  | 0x06 => some .elIxor
  | 0x07 => some .elIshl
  | 0x08 => some .elIshr
  | 0x09 => some .elIsar
  | 0x0A => some .elImin
  | 0x0B => some .elImax
  | 0x0C => some .elIcmp
  | 0x0D => some .elIsel
  | 0x10 => some .elFadd
  | 0x11 => some .elFsub
  | 0x12 => some .elFmul
  | 0x13 => some .elFma
  | 0x14 => some .elFmin
  | 0x15 => some .elFmax
  | 0x16 => some .elFcmp
  | 0x17 => some .elFabs
  | 0x18 => some .elFdiv
  | 0x19 => some .elFsqrt
  | 0x1A => some .elFrsq
  | 0x1B => some .elFexp2
  | 0x1C => some .elFlog2
  | 0x1D => some .elFtanh
  | 0x20 => some .elCvtin
  | 0x21 => some .elCvtout
  | 0x22 => some .elPack
  | 0x23 => some .elUnpack
  | 0x24 => some .elQuant
  | 0x25 => some .elScale
  | 0x26 => some .elItof
  | 0x27 => some .elFtoi
  | 0x28 => some .elRsum
  | 0x29 => some .elRmax
  | 0x2A => some .elRmaxabs
  | 0x2B => some .elRmin
  | 0x2C => some .elRcnt
  | 0x2D => some .elScan
  | 0x2E => some .elMstrip
  | 0x2F => some .elMins
  | 0x30 => some .elDelayIntake
  | 0x32 => some .elConst
  | 0x33 => some .elIota
  | 0x34 => some .elSel
  | 0x35 => some .elDsel
  | 0x36 => some .elJoin
  | 0x37 => some .elGate
  | 0x38 => some .elErr
  | 0x3A => some .elMrd
  | 0x3B => some .elMwr
  | 0x3C => some .elMamo
  | 0x3D => some .elPub
  | 0x3E => some .elAcq
  | 0x40 => some .elAgen
  | 0x41 => some .elLgen
  | 0x48 => some .elMfeed
  | 0x49 => some .elNorm
  | 0x4A => some .elAcc
  | 0x4B => some .elCadd
  | 0x50 => some .elLut
  | 0x51 => some .elBsplit
  | 0x52 => some .elBjoin
  | _ => none

/-- The code of an element operation (R41). -/
def asEl : Instr → Option Nat
  | .elIadd => some 0x00
  | .elIsub => some 0x01
  | .elImul => some 0x02
  | .elImac => some 0x03
  | .elIand => some 0x04
  | .elIor => some 0x05
  | .elIxor => some 0x06
  | .elIshl => some 0x07
  | .elIshr => some 0x08
  | .elIsar => some 0x09
  | .elImin => some 0x0A
  | .elImax => some 0x0B
  | .elIcmp => some 0x0C
  | .elIsel => some 0x0D
  | .elFadd => some 0x10
  | .elFsub => some 0x11
  | .elFmul => some 0x12
  | .elFma => some 0x13
  | .elFmin => some 0x14
  | .elFmax => some 0x15
  | .elFcmp => some 0x16
  | .elFabs => some 0x17
  | .elFdiv => some 0x18
  | .elFsqrt => some 0x19
  | .elFrsq => some 0x1A
  | .elFexp2 => some 0x1B
  | .elFlog2 => some 0x1C
  | .elFtanh => some 0x1D
  | .elCvtin => some 0x20
  | .elCvtout => some 0x21
  | .elPack => some 0x22
  | .elUnpack => some 0x23
  | .elQuant => some 0x24
  | .elScale => some 0x25
  | .elItof => some 0x26
  | .elFtoi => some 0x27
  | .elRsum => some 0x28
  | .elRmax => some 0x29
  | .elRmaxabs => some 0x2A
  | .elRmin => some 0x2B
  | .elRcnt => some 0x2C
  | .elScan => some 0x2D
  | .elMstrip => some 0x2E
  | .elMins => some 0x2F
  | .elDelayIntake => some 0x30
  | .elConst => some 0x32
  | .elIota => some 0x33
  | .elSel => some 0x34
  | .elDsel => some 0x35
  | .elJoin => some 0x36
  | .elGate => some 0x37
  | .elErr => some 0x38
  | .elMrd => some 0x3A
  | .elMwr => some 0x3B
  | .elMamo => some 0x3C
  | .elPub => some 0x3D
  | .elAcq => some 0x3E
  | .elAgen => some 0x40
  | .elLgen => some 0x41
  | .elMfeed => some 0x48
  | .elNorm => some 0x49
  | .elAcc => some 0x4A
  | .elCadd => some 0x4B
  | .elLut => some 0x50
  | .elBsplit => some 0x51
  | .elBjoin => some 0x52
  | _ => none

/-- The constructor of a router operator code (R45). -/
def routerInstr (op : Nat) : Option Instr :=
  match op with
  | 0 => some .steer
  | 1 => some .merge
  | 2 => some .carry
  | 3 => some .fork
  | 4 => some .drop
  | _ => none

/-- The code of a router operator (R45). -/
def asRouter : Instr → Option Nat
  | .steer => some 0
  | .merge => some 1
  | .carry => some 2
  | .fork => some 3
  | .drop => some 4
  | _ => none

/-- The constructor of a layout code (R47). -/
def layoutInstr (code : Nat) : Option Instr :=
  match code with
  | 0x0 => some .layoutStop
  | 0x1 => some .layoutFor
  | 0x2 => some .layoutNext
  | 0x3 => some .layoutRd
  | 0x4 => some .layoutWr
  | 0x5 => some .layoutTr8
  | 0x6 => some .layoutSwz
  | 0x7 => some .layoutPad
  | 0x8 => some .layoutCvt
  | 0x9 => some .layoutAdv
  | 0xA => some .layoutMark
  | 0xB => some .layoutSync
  | _ => none

/-- The code of a layout instruction (R47). -/
def asLayout : Instr → Option Nat
  | .layoutStop => some 0x0
  | .layoutFor => some 0x1
  | .layoutNext => some 0x2
  | .layoutRd => some 0x3
  | .layoutWr => some 0x4
  | .layoutTr8 => some 0x5
  | .layoutSwz => some 0x6
  | .layoutPad => some 0x7
  | .layoutCvt => some 0x8
  | .layoutAdv => some 0x9
  | .layoutMark => some 0xA
  | .layoutSync => some 0xB
  | _ => none

/-! ### Scalar words (R25 to R32) -/

/-- Is the op code allocated (R32)? -/
def opAllocated (op : Nat) : Bool :=
  op ≤ 0x0B || (0x10 ≤ op && op ≤ 0x38) || (0x40 ≤ op && op ≤ 0x43) || (0x50 ≤ op && op ≤ 0x5A)
    || (0x60 ≤ op && op ≤ 0x6E) || (0x70 ≤ op && op ≤ 0x7C) || (0x80 ≤ op && op ≤ 0x87)
    || (0x90 ≤ op && op ≤ 0x9D) || (0xA0 ≤ op && op ≤ 0xA9)

/-- Ops of rows 0x1 and 0x2, `lea` and `pcrel` whose sub[1:0] carries a size (R29, R99, R108, R109). -/
def takesSize (op : Nat) : Bool :=
  (0x10 ≤ op && op ≤ 0x2E && op ≠ 0x1E && op ≠ 0x2C) || op = 0x37 || op = 0x38

/-- Ops that accept `.sat` (R89). -/
def takesSat (op : Nat) : Bool := op = 0x10 || op = 0x11 || op = 0x16 || op = 0x20

/-- Is the sub value allocated for the op (R31 step 4)? A sub that is merely reserved is judged at step 5. -/
def subAllocated (op : Nat) (sub : BitVec 3) : Bool :=
  let s := sub.toNat
  if op = 0x2A || op = 0x2B then s = 0 || s = 2
  else if takesSize op then s < 4 || takesSat op
  else match op with
    | 0x40 => s < 7
    | 0x41 => s < 4
    | 0x50 => s % 4 = 0 || s % 4 = 1
    | 0x51 => s % 4 = 0 || s % 4 = 2
    | 0x54 => s < 5
    | 0x55 => s % 4 = 0 || s % 4 = 2
    | 0x56 => s % 4 = 0 || s % 4 = 1
    | 0x60 | 0x61 | 0x62 | 0x63 | 0x64 | 0x65 | 0x66 | 0x67 | 0x6B | 0x6E => s < 7
    | 0x68 | 0x69 | 0x6A | 0x6C | 0x6D => s = 0
    | 0x73 => s < 4
    | 0x77 => s < 7
    | 0x7B => s < 7
    | 0x7C => s < 7 && s ≠ 2
    | 0x96 => s < 7
    | 0x97 => s < 2
    | 0xA2 => s % 4 ≠ 0
    | 0xA7 => s < 3
    | _ => true

/-- The bits of sub that the op's modifier uses (R29, R30); the others are reserved. -/
def subMask (op : Nat) : Nat :=
  if takesSize op then 7
  else match op with
    | 0x1E | 0x2F | 0x30 | 0x40 | 0x41 | 0x52 | 0x54 => 7
    | 0x50 | 0x51 | 0x53 | 0x55 | 0x56 => 3
    | 0x60 | 0x61 | 0x62 | 0x63 | 0x64 | 0x65 | 0x66 | 0x67 | 0x68 | 0x69 | 0x6A | 0x6B | 0x6C | 0x6D | 0x6E => 7
    | 0x70 | 0x71 | 0x83 | 0x90 | 0x9A | 0x9B | 0x9D => 1
    | 0x72 | 0xA2 => 3
    | 0x73 | 0x77 | 0x78 | 0x7B | 0x7C | 0x96 | 0x97 | 0xA3 | 0xA7 => 7
    | 0xA4 => 6
    | _ => 0

/-- The bits of d that the op uses (R29). -/
def dMask (op : Nat) : Nat :=
  match op with
  | 0x03 | 0x05 | 0x07 => 31
  | 0x30 => 15
  | 0x31 | 0x32 | 0x33 | 0x34 => 7
  | 0x36 | 0x37 | 0x38 => 31
  | 0x40 | 0x41 | 0x42 | 0x43 | 0x50 | 0x51 | 0x52 | 0x53 | 0x55 | 0x58 | 0x5A => 31
  | 0x70 | 0x71 | 0x72 | 0x73 | 0x78 | 0x7B => 31
  | 0x80 | 0x81 | 0x82 | 0x84 | 0x85 => 31
  | 0x90 | 0x91 | 0x92 | 0x93 | 0x94 | 0x96 | 0x97 | 0x98 | 0x99 | 0x9A | 0x9B => 31
  | 0xA0 | 0xA2 | 0xA3 | 0xA4 | 0xA7 | 0xA8 => 31
  | _ => if (0x10 ≤ op && op ≤ 0x2F) || (0x60 ≤ op && op ≤ 0x6E) then 31 else 0

/-- The bits of a that the op uses; `imm` tells forms B and C, in which `fput`, `argw`, `bset`, `rfst`, `rfcl` and
`pwr` leave a reserved (R29, R154, R155, R182, R183, R407). -/
def aMask (op : Nat) (imm : Bool) : Nat :=
  match op with
  | 0x02 => 7
  | 0x04 | 0x05 => 31
  | 0x1F => 0
  | 0x30 => 31
  | 0x31 | 0x32 | 0x33 | 0x34 => 7
  | 0x37 => 31
  | 0x40 | 0x41 | 0x42 | 0x43 => 31
  | 0x50 | 0x51 | 0x52 | 0x53 | 0x55 | 0x56 | 0x57 | 0x58 | 0x59 | 0x5A => 31
  | 0x70 | 0x76 | 0x77 | 0x7B | 0x7C => if imm then 0 else 31
  | 0x71 | 0x72 | 0x75 => 31
  | 0x73 | 0x74 => 15
  | 0x80 | 0x81 | 0x82 | 0x83 | 0x85 | 0x86 => 31
  | 0x90 | 0x91 | 0x92 | 0x93 | 0x94 | 0x95 | 0x96 | 0x97 => 31
  | 0x98 | 0x99 | 0x9A | 0x9B | 0x9C | 0x9D => 31
  | 0xA1 | 0xA2 | 0xA3 | 0xA4 | 0xA5 | 0xA6 => 31
  | _ => if (0x10 ≤ op && op ≤ 0x2F) || (0x60 ≤ op && op ≤ 0x6E) then 31 else 0

/-- The bits of b that the op uses in form A (R29); b is reserved in forms B and C (R26, R27). -/
def bMask (op : Nat) : Nat :=
  match op with
  | 0x27 | 0x28 | 0x29 | 0x2D | 0x2E => 0
  | 0x30 => 31
  | 0x31 | 0x32 | 0x33 => 7
  | 0x37 => 31
  | 0x40 | 0x41 | 0x42 | 0x43 | 0x50 | 0x51 | 0x53 | 0x55 | 0x56 | 0x57 | 0x59 => 31
  | 0x52 => 3
  | 0x67 | 0x6C | 0x6E => 0
  | 0x75 | 0x76 => 31
  | 0x82 | 0x83 | 0x85 => 31
  | 0x90 | 0x91 | 0x92 | 0x93 | 0x94 | 0x96 | 0x98 | 0x99 | 0x9A | 0x9B | 0x9C | 0x9D => 31
  | 0xA2 | 0xA3 | 0xA4 | 0xA5 | 0xA6 | 0xA7 => 31
  | _ => if (0x10 ≤ op && op ≤ 0x2F) || (0x60 ≤ op && op ≤ 0x6E) then 31 else 0

/-- The bits of ext16 that the op uses (R26): `pset` (R107), `lea` (R108), `argw` (R154). -/
def ext16Mask (op : Nat) : Nat :=
  match op with
  | 0x35 => 0xFE
  | 0x37 => 0xFF
  | 0x76 => 0x1FF
  | _ => 0

/-- The bits of ext32 that the op uses (R27): `lea` (R108), `argw` (R154), the flush of row 0x6 (R113). -/
def ext32Mask (op : Nat) : Nat :=
  match op with
  | 0x37 => 0xFF
  | 0x76 => 0x1FF
  | 0x60 | 0x61 | 0x62 | 0x63 | 0x64 | 0x65 | 0x66 | 0x68 | 0x69 | 0x6A => 3
  | _ => 0

/-- No bit outside the mask is set. -/
def within (v mask : Nat) : Bool := v &&& mask = v

/-- Values that an entry rejects with 0x02 in any form: d = 0 of `loop` (R90), an odd d of `ldp` and `stp` (R111), and
the reserved d, a or b that depend on sub (R273, R301, R332, R385, R407). -/
def entryOk (op sub d a : Nat) : Bool :=
  match op with
  | 0x07 => d ≠ 0
  | 0x42 | 0x43 => d % 2 = 0
  | 0x83 => sub % 2 = 0 || a = 0
  | 0x96 => match sub with
    | 4 => d = 0
    | 5 => d = 0 && a = 0
    | _ => a = 0
  | 0x9A | 0x9B => sub % 2 = 1 || d = 0
  | 0xA3 | 0xA4 => 4 ≤ sub || d = 0
  | 0xA7 => a = 0 && (sub = 0 || d = 0)
  | _ => true

/-- Reserved fields of a form A word are zero, and no field holds a value its entry rejects (R29, R31 step 5). -/
def fieldsOkA (op : Nat) (f : FormA) : Bool :=
  within f.sub.toNat (subMask op) && within f.d.toNat (dMask op) && within f.a.toNat (aMask op false)
    && within f.b.toNat (bMask op) && entryOk op f.sub.toNat f.d.toNat f.a.toNat
    && (op ≠ 0x6B || f.b.toNat < 12)                                            -- R117
    && (!(op = 0x7B || op = 0x7C) || !(f.sub = 5 || f.sub = 6) || f.a = 0)      -- R183
    && (op ≠ 0xA7 || f.sub ≠ 0 || f.b = 0)                                      -- R407

/-- As `fieldsOkA` for form B: ext16 and the immediates that entries bar (R103, R107, R156, R157, R183, R343, R407). -/
def fieldsOkB (op : Nat) (f : FormB) : Bool :=
  let imm := f.imm16.toNat
  within f.sub.toNat (subMask op) && within f.d.toNat (dMask op) && within f.a.toNat (aMask op true)
    && within f.ext16.toNat (ext16Mask op) && entryOk op f.sub.toNat f.d.toNat f.a.toNat
    && (match op with
      | 0x2B | 0x2C => within imm 0x3F3F
      | 0x35 => within imm 0xFE
      | 0x71 => imm < 2 ^ 15
      | 0x72 => 1 ≤ imm && imm ≤ 32
      | 0x7B | 0x7C => !(f.sub = 5 || f.sub = 6) || imm = 0
      | 0xA0 | 0xA1 => imm < 11
      | 0xA7 => f.sub ≠ 0
      | _ => true)

/-- As `fieldsOkA` for form C: ext32, whose flush value 11 is barred (R113). -/
def fieldsOkC (op : Nat) (f : FormC) : Bool :=
  within f.sub.toNat (subMask op) && within f.d.toNat (dMask op) && within f.a.toNat (aMask op true)
    && within f.ext32.toNat (ext32Mask op) && entryOk op f.sub.toNat f.d.toNat f.a.toNat
    && (op / 16 ≠ 6 || f.ext32.toNat % 4 ≠ 3)

/-- The fields of a form A first word (R25). -/
def unpackA (w : Word) : FormA :=
  { sub := w.extractLsb' 29 3, gn := w.getLsbD 28, guard := w.extractLsb' 25 3, b := w.extractLsb' 20 5
    a := w.extractLsb' 15 5, d := w.extractLsb' 10 5 }

/-- The fields of a form B instruction (R26), less the reserved b. -/
def unpackB (w x : Word) : FormB :=
  { sub := w.extractLsb' 29 3, gn := w.getLsbD 28, guard := w.extractLsb' 25 3, a := w.extractLsb' 15 5
    d := w.extractLsb' 10 5, ext16 := x.extractLsb' 16 16, imm16 := x.extractLsb' 0 16 }

/-- The fields of a form C instruction (R27), less the reserved b. -/
def unpackC (w x y : Word) : FormC :=
  { sub := w.extractLsb' 29 3, gn := w.getLsbD 28, guard := w.extractLsb' 25 3, a := w.extractLsb' 15 5
    d := w.extractLsb' 10 5, ext32 := x, lit32 := y }

/-- The fields of a stream command (R33). -/
def unpackStream (w x y z : Word) : StreamWord :=
  { b := w.extractLsb' 24 8, a := w.extractLsb' 16 8, bar := w.getLsbD 15, gn := w.getLsbD 14
    guard := w.extractLsb' 11 3, sn := w.extractLsb' 8 3, w1 := x, w2 := y, w3 := z }

/-- The length code of a first word (R23): how many words the instruction has. -/
def wordCount (w : Word) : Nat := (w.extractLsb' 0 2).toNat + 1

/-! ### Stream commands (R33 to R36) -/

/-- The bits of W1, W2 and W3 that the command's entry names (R184, R203, R205, R222, R242, R253, R262, R264, R269,
R325, R356, R359, R361). The barrier register's field is a named field whether bar is set or not (DEDUCED, log entry 5). -/
def streamMasks (code : Nat) : Nat × Nat × Nat :=
  match code with
  | 0x00 | 0x01 => (0x3F, 0x1F, 0x1F)
  | 0x02 => (0x1F, 0x1F, 0x1F)
  | 0x03 => (0x3F, 0x3FF, 0x3FF)
  | 0x04 => (0x1F, 0, 0)
  | 0x05 => (0x1F, 0, 0x1F)
  | 0x06 => (0x1F, 0x1FF, 0)
  | 0x07 => (0x3F, 0, 0x1F)
  | 0x08 => (0, 0, 0)
  | 0x09 => (0x7F, 0x7F, 0x1F)
  | 0x0A => (0x3F, 0x3F, 0x1FFF)
  | 0x0B | 0x0C => (0x3F, 0x3F, 0x7FF)
  | 0x0D => (0x1F, 0x3, 0x1F)
  | 0x0E => (0x1F, 0x1F, 0x1F)
  | 0x0F => (0x1F, 0x1F, 0)
  | 0x10 => (0x1F, 0, 0x1F)
  | 0x11 => (0x3F, 0x3F, 0x1F)
  | 0x12 => (0x1F, 0x1F, 0x1F)
  | 0x13 => (0x3F, 0x1F, 0x1F)
  | 0x14 => (0x20, 0, 0x1F)
  | 0x15 => (0x1F, 0, 0)
  | _ => (0, 0, 0)

/-- The cases of 0x10 that the word alone decides (R35, R36, R253, R264, R184). -/
def streamFieldsOk (code : Nat) (c : StreamWord) : Bool :=
  let (m1, m2, m3) := streamMasks code
  within c.w1.toNat m1 && within c.w2.toNat m2 && within c.w3.toNat m3
    -- A and B reserved
    && (!(code = 0x05 || code = 0x08 || code = 0x0E || code = 0x0F) || c.a = 0)
    && (!(code = 0x04 || code = 0x05 || code = 0x06 || code = 0x07 || code = 0x08 || code = 0x0E || code = 0x0F
          || code = 0x10 || code = 0x14) || c.b = 0)
    -- sn used by sldw, sswap, smat, and by scopy with a follow-on
    && (code = 0x07 || code = 0x08 || code = 0x09 || (code = 0x0A && c.w3.getLsbD 5) || c.sn = 0)
    -- bar not allowed
    && (!(code = 0x03 || code = 0x04 || code = 0x06 || code = 0x08 || code = 0x0F || code = 0x15) || !c.bar)
    -- sub values of B
    && (code ≠ 0x02 || c.b.toNat ≤ 6) && (code ≠ 0x12 || c.b.toNat ≤ 2)
    && (code ≠ 0x15 || (1 ≤ c.b.toNat && c.b.toNat ≤ 6))
    -- smat from mfeed: W1[5:0] reserved; smark of EOR and EOT: data register reserved
    && (code ≠ 0x09 || !c.w1.getLsbD 6 || c.w1.toNat % 64 = 0)
    && (code ≠ 0x15 || 3 ≤ c.b.toNat || c.w1 = 0)

/-- A names a port of 0–63 or an address-generator element of 0–15 where the command says so (R36). -/
def streamRangeOk (code : Nat) (c : StreamWord) : Bool :=
  match code with
  | 0x00 | 0x01 | 0x02 | 0x04 | 0x13 | 0x14 | 0x15 => c.a.toNat < 64
  | 0x03 => c.a.toNat < 16
  | _ => true

/-- Steps 3 to 5 of R31 on the words of one instruction; words beyond its length are not read. -/
def decodeScalar (w x y z : Word) : Except DecodeError Instr :=
  if wordCount w = 4 then
    let c := unpackStream w x y z
    let code := bits w.toNat 2 6
    match streamInstr code with
    | none => .error .streamCmd
    | some i =>
      if !streamFieldsOk code c then .error .streamCmd
      else if !streamRangeOk code c then .error .portRange
      else .ok i
  else
    let op := bits w.toNat 2 8
    if !opAllocated op then .error .illegalOp
    else if !subAllocated op (w.extractLsb' 29 3) then .error .illegalOp
    else
      let bZero := w.extractLsb' 20 5 = 0
      let answer :=
        match wordCount w with
        | 1 => if fieldsOkA op (unpackA w) then formAInstr op (unpackA w) else none
        | 2 => if bZero && fieldsOkB op (unpackB w x) then formBInstr op (unpackB w x) else none
        | _ => if bZero && fieldsOkC op (unpackC w x y) then formCInstr op (unpackC w x y) else none
      match answer with
      | some i => .ok i
      | none => .error .illegalForm

/-! ### Element configuration words (R37 to R42) -/

/-- A selector of R38. -/
def selectorOk (v : Nat) : Bool := v < 376 || v = 1023

/-- A route of R39. -/
def routeOk (v : Nat) : Bool :=
  v = 0 || (0x40 ≤ v && v ≤ 0x7F) || (0x80 ≤ v && v ≤ 0xA7) || (0xC0 ≤ v && v ≤ 0xCF)

/-- The sub values and the k values that the op defines, and zero in what it reserves of k and the inputs (R16, R132 to R148, R202 to
R207, R243, R244). -/
def elSubOk (op : Nat) (c : ElWord) : Bool :=
  let s := c.sub.toNat
  let k := c.k.toNat
  match op with
  | 0x00 | 0x01 | 0x02 | 0x03 | 0x07 => s < 4
  | 0x0A | 0x0B => s = 0 || s = 2
  | 0x0C => s < 8
  | 0x16 => s < 4
  | 0x24 | 0x26 | 0x27 => s < 2
  | 0x28 | 0x29 | 0x2B | 0x2D => s < 2
  | 0x2C => s < 2
  | 0x2E => s < 8
  | 0x2F => s = 1 || (s = 0 && 1 ≤ k && k ≤ 2 ^ 31)
  | 0x30 => s = 0 && 1 ≤ k && k ≤ 1024
  | 0x35 => k < 256
  | 0x38 => s = 0 && k ≤ 0x5F
  | 0x3A | 0x3B => s < 16 && k = 0
  | 0x3C => s < 128 && k < 4
  | 0x3D | 0x3E => s % 8 < 5 && s < 16 && 0 < k && k < 2 ^ 16
  | 0x40 => s % 4 < 3 && s / 4 < 3 && k = 0 && c.in1 = 0 && c.in2 = 0
  | 0x41 => s < 4
  | 0x48 => s < 128
  | 0x49 => (s % 4 < 3 && (s / 4 = 0 || s / 4 = 4)) && (s < 16 || c.in0 = 1023)
  | 0x4A => s < 6 && k < 2
  | 0x4B => (s = 0 || s = 16) && (s < 16 || c.in0 = 1023)
  | 0x50 => s = 0 && k < 2
  | 0x51 | 0x52 => s < 5
  | _ => s = 0

/-- The checks of R42 that need no other slot; a word with enable = 0 is stored without them. -/
def elFieldsOk (op : Nat) (c : ElWord) : Bool :=
  !c.enable || (selectorOk c.in0.toNat && selectorOk c.in1.toNat && selectorOk c.in2.toNat && routeOk c.route.toNat
    && c.rm ≠ 7 && elSubOk op c)

/-- The fields of an element configuration word (R37). -/
def unpackEl (w : Slot128) : ElWord :=
  { refire := w.extractLsb' 116 4, route := w.extractLsb' 108 8, sub := w.extractLsb' 100 8, lat := w.extractLsb' 92 8
    tn := w.extractLsb' 84 8, flush := w.getLsbD 83, rm := w.extractLsb' 80 3, k := w.extractLsb' 48 32
    in2 := w.extractLsb' 36 10, in1 := w.extractLsb' 26 10, in0 := w.extractLsb' 16 10
    station := w.extractLsb' 8 6, enable := w.getLsbD 7 }

/-- The reserved fields of an element configuration word hold zero (R37). -/
def elReservedOk (w : Slot128) : Bool :=
  w.extractLsb' 120 8 = 0 && w.extractLsb' 46 2 = 0 && w.extractLsb' 14 2 = 0

/-- An element configuration word as an instruction (R37, R41, R42). -/
def decodeEl (w : Slot128) : Except DecodeError Instr :=
  let op := (w.extractLsb' 0 7).toNat
  let c := unpackEl w
  match elInstr op with
  | none => .error .elementCfg
  | some i => if elReservedOk w && elFieldsOk op c then .ok i else .error .elementCfg

/-! ### Router operator words (R45, R46) -/

/-- A channel field that is used holds 0–39; one that is not holds 63 (R46). -/
def channelOk (used : Bool) (v : BitVec 6) : Bool := if used then v.toNat < 40 else v = 63

/-- The channel fields of R45 under R46. -/
def routerFieldsOk (op : Nat) (c : RouterWord) : Bool :=
  !c.enable || (channelOk true c.inA
    && channelOk (op = 1 || op = 2) c.inB
    && channelOk (op = 0 || op = 2 || op = 4) c.ctl
    && channelOk true c.out0
    && channelOk (op = 0 || op = 3) c.out1)

/-- The fields of a router operator word (R45). -/
def unpackRouter (w : BitVec 64) : RouterWord :=
  { out1 := w.extractLsb' 34 6, out0 := w.extractLsb' 28 6, ctl := w.extractLsb' 22 6, inB := w.extractLsb' 16 6
    inA := w.extractLsb' 10 6, station := w.extractLsb' 4 6, enable := w.getLsbD 3 }

/-- A router operator word as an instruction (R45, R46). -/
def decodeRouter (w : BitVec 64) : Except DecodeError Instr :=
  let op := (w.extractLsb' 0 3).toNat
  let c := unpackRouter w
  match routerInstr op with
  | none => .error .elementCfg
  | some i => if w.extractLsb' 40 24 = 0 && routerFieldsOk op c then .ok i else .error .elementCfg

/-! ### Layout instructions (R47, R48, R270) -/

/-- Reserved fields zero and every field in the range of R270 (R48, R269). -/
def layoutFieldsOk (code : Nat) (c : LayoutWord) : Bool :=
  let x := c.x.toNat
  let y := c.y.toNat
  let i := c.imm16.toNat
  match code with
  | 0x0 | 0xA | 0xB => x = 0 && y = 0 && i = 0
  | 0x1 => x < 8 && (if i = 0 then y < 4 else y = 0)
  | 0x2 => x < 8 && y = 0 && i < 64
  | 0x3 | 0x4 => x ≤ 8 && 1 ≤ i && i ≤ 256
  | 0x5 => x = 0 && y % 64 = 0 && i = 0
  | 0x6 => x ≤ 8 && i < 2 ^ x && i < 256
  | 0x7 => x = 0 && 1 ≤ i && i ≤ 256
  | 0x8 => x < 7 && y < 3 && i = 0
  | 0x9 => x < 2 && y &&& 0x83 = y
  | _ => false

/-- The fields of a layout word (R47). -/
def unpackLayout (w : Word) : LayoutWord :=
  { imm16 := w.extractLsb' 16 16, y := w.extractLsb' 8 8, x := w.extractLsb' 4 4 }

/-- A layout word as an instruction (R47, R48). -/
def decodeLayout (w : Word) : Except DecodeError Instr :=
  let code := (w.extractLsb' 0 4).toNat
  let c := unpackLayout w
  match layoutInstr code with
  | none => .error .layoutProgram
  | some i => if layoutFieldsOk code c then .ok i else .error .layoutProgram

/-! ### The encoder -/

/-- A form A word (R25). -/
def packA (op : Nat) (f : FormA) : Word :=
  f.sub ++ BitVec.ofBool f.gn ++ f.guard ++ f.b ++ f.a ++ f.d ++ BitVec.ofNat 8 op ++ 0#2

/-- The two words of form B (R26). -/
def packB (op : Nat) (f : FormB) : List Word :=
  [f.sub ++ BitVec.ofBool f.gn ++ f.guard ++ 0#5 ++ f.a ++ f.d ++ BitVec.ofNat 8 op ++ 1#2, f.ext16 ++ f.imm16]

/-- The three words of form C (R27). -/
def packC (op : Nat) (f : FormC) : List Word :=
  [f.sub ++ BitVec.ofBool f.gn ++ f.guard ++ 0#5 ++ f.a ++ f.d ++ BitVec.ofNat 8 op ++ 2#2, f.ext32, f.lit32]

/-- The four words of a stream command (R33). -/
def packStream (code : Nat) (c : StreamWord) : List Word :=
  [c.b ++ c.a ++ BitVec.ofBool c.bar ++ BitVec.ofBool c.gn ++ c.guard ++ c.sn ++ BitVec.ofNat 6 code ++ 3#2,
   c.w1, c.w2, c.w3]

/-- An element configuration word (R37). -/
def packEl (op : Nat) (c : ElWord) : Slot128 :=
  0#8 ++ c.refire ++ c.route ++ c.sub ++ c.lat ++ c.tn ++ BitVec.ofBool c.flush ++ c.rm ++ c.k ++ 0#2 ++ c.in2 ++ c.in1
    ++ c.in0 ++ 0#2 ++ c.station ++ BitVec.ofBool c.enable ++ BitVec.ofNat 7 op

/-- A router operator word (R45). -/
def packRouter (op : Nat) (c : RouterWord) : BitVec 64 :=
  0#24 ++ c.out1 ++ c.out0 ++ c.ctl ++ c.inB ++ c.inA ++ c.station ++ BitVec.ofBool c.enable ++ BitVec.ofNat 3 op

/-- A layout word (R47). -/
def packLayout (code : Nat) (c : LayoutWord) : Word := c.imm16 ++ c.y ++ c.x ++ BitVec.ofNat 4 code

/-- The words of a scalar instruction, first word first; none for what no such word encodes. -/
def encode (i : Instr) : Option (List Word) :=
  match asFormA i with
  | some (op, f) => some [packA op f]
  | none => match asFormB i with
    | some (op, f) => some (packB op f)
    | none => (asFormC i).map fun p => packC p.1 p.2

/-- The words of a stream command with the fields c; none for any other instruction. -/
def encodeStream (i : Instr) (c : StreamWord) : Option (List Word) := (asStream i).map fun code => packStream code c

/-- The configuration word of an element operation with the fields c; none for any other instruction. -/
def encodeEl (i : Instr) (c : ElWord) : Option Slot128 := (asEl i).map fun op => packEl op c

/-- The word of a router operator with the fields c; none for any other instruction. -/
def encodeRouter (i : Instr) (c : RouterWord) : Option (BitVec 64) := (asRouter i).map fun op => packRouter op c

/-- The word of a layout instruction with the fields c; none for any other instruction. -/
def encodeLayout (i : Instr) (c : LayoutWord) : Option Word := (asLayout i).map fun code => packLayout code c

/-- Decode of a word list, words beyond the list read as zero. -/
def decodeWords (ws : List Word) : Except DecodeError Instr :=
  decodeScalar (ws.getD 0 0) (ws.getD 1 0) (ws.getD 2 0) (ws.getD 3 0)

/-- The instruction that the decoder reads from an instruction whose bits are w, numbered as the opcode table numbers
them; every bit above nbits is 0. A word of a layout program stands in another memory than the core's, so a word
that the core's decoder rejects is read as a layout word where it is one (R47). -/
def decodeTableWord (nbits w : Nat) : Option Instr :=
  let v := w % 2 ^ nbits
  let at' (n : Nat) : Word := BitVec.ofNat 32 (v >>> (32 * n))
  match decodeScalar (at' 0) (at' 1) (at' 2) (at' 3) with
  | .ok i => some i
  | .error _ =>
    match decodeLayout (at' 0) with
    | .ok i => some i
    | .error _ => none

end Sys2Proof
end

