-- ==== Sys2Proof/Config.lean ====
section
/-! DEFINITION. What the manual leaves open: free values, each an opaque constant that nothing can evaluate. -/

namespace Sys2Proof

/-- The turn that comes when the schedule lists none: any agent's, at any time (R227; DESIGN CHOICE, log entry 1). -/
opaque Config.sched : Nat → Turn

/-- A free 64-bit value, by the count of free values taken (DESIGN CHOICE, log entry 2). -/
opaque Config.freeDword : Nat → BitVec 64

/-- Which of the two FP32 values that bracket an inexact result `frsq` (0), `fexp2` (1), `flog2` (2) or `ftanh` (3)
returns for a source: true for the upper (R134: a fixed function of the input bits; DEDUCED, log entry 11). -/
opaque Config.approxUp : Nat → BitVec 32 → Bool

/-- Whether the 2 × 4 block of a cluster has four rows (R3 does not turn it; DEDUCED, log entry 12). -/
opaque Config.tall : Bool

/-- How the places of a cluster's block, counted along its rows, are dealt to a die's positions 0–7: for each position in
turn, which of the places left it takes (R3 does not say; DEDUCED, log entry 12). -/
opaque Config.spotPick : Nat → Nat → Nat

/-- How the blocks of a die, counted along its rows, are dealt to its clusters, in the same way (R3 does not say;
DEDUCED, log entry 12). -/
opaque Config.blockPick : Nat → Nat → Nat

/-- In how many columns the ten blocks of a die stand: the first, second, third or fourth of 1, 2, 5 and 10 (R2 does not say;
DEDUCED, log entry 12). -/
opaque Config.blockColumns : Nat

/-- What the host's translation answers for an access to its memory (R395): 0 a translation, another number a page fault; by the
count of free values taken, the frame and the access (DESIGN CHOICE, log entry 57). -/
opaque Config.ats : Nat → Nat → Nat → Nat

/-- The split of a carry-save value between S and C: what C holds, by the value (R65: not architectural; DEDUCED, log entry 13). -/
opaque Config.carryPart : Nat → BitVec 112

/-- The SM3 digest of a tile image's bytes. The manual names the hash and does not define it (R330; DESIGN CHOICE, log entry 14). -/
opaque Config.sm3 : List Byte → BitVec 256

/-- SM4 of a key and a block. The manual names the cipher and does not define it (R365; DESIGN CHOICE, log entry 14). -/
opaque Config.sm4 : BitVec 128 → BitVec 128 → BitVec 128

/-- Whether some path of links joins two devices while the directions of ports in a list are down; the manual does not place
the links (R353, R355; DEDUCED, log entry 12). -/
opaque Config.linkPath : List Nat → Nat → Nat → Bool

/-- The sending direction at the other end of an incoming direction of a port (R363, R365; DEDUCED, log entry 12). -/
opaque Config.linkPeer : Nat → Nat

end Sys2Proof
end

