-- ==== Sys2Proof/Machine/State.lean ====
section
/-! DEFINITION. The machine's state as plain data: a node of devices (R353), its dies and tiles (R2 to R4), its memory
M and every agent's phase buffer and snapshot (R226), its regions, commands, engines, tenants, streams, groups and
links. Numbering: a tile of the node is device × 160 + global tile number (R3), a die is device × 2 + die; a function
is 0 to 15 for a tenant and 16 for the owner (R313). A sparse map lists only what has left its reset value. -/

namespace Sys2Proof.Machine

/-- Bytes of memory by address, strictly rising, no entry equal to what an unlisted address reads as. -/
abbrev Memory := List Host.Cell

/-- A set of byte ranges: (first address, length). -/
abbrev Ranges := List (Nat × Nat)

/-- A token (R43). -/
structure Token where
  kind : BitVec 3
  data : Word
  deriving DecidableEq, Repr, Inhabited

/-- An entry of a phase buffer: the store it belongs to, its address and its byte (R226). The store's number lets a
write-once word tell one write of several bytes from several (R362). -/
structure PbEntry where
  store : Nat
  addr : Nat
  byte : Byte
  deriving DecidableEq, Repr, Inhabited

/-- A buffered agent's two parts (R226): PB in program order (oldest first), and SV, one value per byte. -/
structure View where
  /-- PB(a): entries in program order (R226); reset empty -/
  pb : List PbEntry
  /-- SV(a): one value per byte (R226); reset equal to M -/
  sv : Memory
  deriving DecidableEq, Repr, Inhabited

/-- A translation latch (R200). -/
structure Latch where
  /-- latch number 0–15 -/
  num : Nat
  /-- VA page base -/
  va : Nat
  /-- page size in bytes: 2^16 or 2^25 -/
  size : Nat
  /-- node-physical frame -/
  frame : Nat
  /-- node-physical address of the leaf entry it came from (R292) -/
  leaf : Nat
  r : Bool
  w : Bool
  /-- accesses in flight that name the latch (R200) -/
  refs : Nat
  /-- dropped by a RELATCH token: it serves no new address, and only decodes the handles issued before (R212) -/
  dropped : Bool
  /-- the next access through it sets accessed again, after a working-set sample (R292) -/
  sampled : Bool
  deriving DecidableEq, Repr, Inhabited

/-- A stopped AGE's fault record (R210), as the 512 bits written. -/
abbrev AgeRecord := BitVec 512

/-- An address-generator element's translation state (R199, R200, R209, R212). -/
structure Age where
  /-- up to 16 latches, most recently used first (R200) -/
  latches : List Latch
  /-- the record of the fault that stopped it (R209); none while it runs -/
  stopped : Option AgeRecord
  /-- RELATCH tokens held: sequence number, first VA and length of the range (R212) -/
  relatch : List (Nat × Nat × Nat)
  deriving DecidableEq, Repr, Inhabited

/-- The empty AGE. -/
def Age.reset : Age := { latches := [], stopped := none, relatch := [] }

/-- What a waiting core waits for (R326 step 1 lists the waiting instructions); the pc stays at the instruction. -/
inductive Wait where
  /-- `wfe` (R95) -/
  | wfe
  /-- `bwait`: barrier address, parity, `.acq` (R241) -/
  | bwait (addr : Dword) (parity : Bool) (acq : Bool)
  /-- `fput`: port, data, its length in bytes, the stream commands on the port issued before it (R131, R155) -/
  | fput (port : Nat) (data : Word) (len : Nat) (before : List Nat)
  /-- `fget`: port, destination, limit in fc for form B, fc at the start, earlier drainers (R156) -/
  | fget (port : Nat) (d : BitVec 5) (limit : Option Nat) (since : Nat) (before : List Nat)
  /-- form B `fcnt`: 1 = fo, port, threshold, destination (R157) -/
  | fcnt (fo : Bool) (port : Nat) (min : Nat) (d : BitVec 5)
  /-- an instruction of class fabric behind a stream command of its core (R152, R182) -/
  | beat (i : Instr)
  /-- `gsend`, `gsendo` waiting for room in the retransmit buffer (R381) -/
  | gsend (i : Instr)
  /-- `gstat.load`, `gstat.drop` waiting for unacknowledged sends (R371) -/
  | install (i : Instr)
  /-- a draft instruction on a loading slot (R309) -/
  | draft (i : Instr)
  /-- a stream command stalled at step 4 of R34: the captured command -/
  | streamQueue (cmd : Nat)
  /-- `relatch` that has sent its tokens: sequence number, destination, tenant, fc it has waited while running -/
  | relatch (seq : Nat) (d : BitVec 5) (fn : Nat) (since : Nat)
  /-- a load of an absent write-once word (R362) -/
  | writeOnce (i : Instr)
  deriving DecidableEq, Repr, Inhabited

/-- Whether a core runs (R86, R87, R95, R409). -/
inductive CoreRun where
  | idle
  | running
  | waiting (w : Wait)
  /-- stopped by a code raised with ss.mode.ih = 1, or of class Region or Tenant (R87, R336) -/
  | stopped (cause : BitVec 7)
  deriving DecidableEq, Repr, Inhabited

/-- An armed actor (R272, R273). -/
structure Actor where
  desc : BitVec 128
  /-- g24–g31 saved at `done` (R274) -/
  saved : Vector Dword 8
  deriving DecidableEq, Repr, Inhabited

/-- What `yield` keeps of the resident program (R276): every register that a firing can write, and the actors still to
fire. -/
structure YieldFrame where
  g : Vector Dword 32
  p : BitVec 8
  pc : BitVec 48
  /-- ss.cause, ss.fpc, ss.fval -/
  cause : BitVec 7
  fpc : Dword
  fval : Dword
  /-- ss.mode, ss.fpmode and ss.evmask.wake -/
  mode : Dword
  fpmode : Dword
  wake : BitVec 16
  actor : Option Nat
  left : List Nat
  deriving DecidableEq, Repr, Inhabited

/-- A group send in its sender's retransmit buffer and on its way (R373, R376). -/
inductive SendState where
  | issued
  | orderWait
  /-- AT a record -/
  | at (node : Nat)
  /-- TAKEN by the member of a record -/
  | taken (taker : Nat)
  /-- PARKED since a µs of the root's device -/
  | parked (since : Nat)
  deriving DecidableEq, Repr, Inhabited

/-- A send (R373 to R377). -/
structure Send where
  /-- the handle (R375) -/
  handle : Nat
  /-- sender tile of the node -/
  sender : Nat
  fn : Nat
  group : Nat
  /-- the expert set of an expert send (R388) -/
  set : Option Nat
  ordered : Bool
  /-- asks for GACKED -/
  ask : Bool
  payload : List Byte
  state : SendState
  /-- T per record on its path: the children tried since the send last came down to the record (R373) -/
  tried : Map (List Nat)
  /-- micro-batch of an expert send (R390) -/
  batch : Nat
  deriving DecidableEq, Repr, Inhabited

/-- A message taken and waiting in a receive queue (R372, R375). -/
structure Message where
  handle : Nat
  group : Nat
  payload : List Byte
  deriving DecidableEq, Repr, Inhabited

/-- A core's part of an expert set (R388, R390): bias copy, the open micro-batch, the closed ones, and the counts. -/
structure ExpertCore where
  bias : List Word
  batch : Nat
  /-- closed micro-batches not yet stepped, oldest first -/
  closed : List Nat
  /-- by expert of the set (group × E + expert): those that taken notices have named since the last step -/
  counts : Map Nat
  /-- the copy engine whose address generator the write of the biases has stopped (R209, R390) -/
  stopped : Option Nat
  deriving DecidableEq, Repr, Inhabited

/-- The control core (R76 to R82, R86, R94, R278, R34) and what it owns of later layers. -/
structure Core where
  /-- g0–g31, 64 bits each (R76); reset 0 (R86) -/
  g : Vector Dword 32
  /-- p0–p7 (R77); bit 0 is not read; reset 0 (R86) -/
  p : BitVec 8
  /-- pc, 48 bits (R78); reset 0 (R86) -/
  pc : BitVec 48
  /-- ss.cause [6:0] (R79); reset 0 -/
  cause : BitVec 7
  /-- ss.fpc, 64 bits (R79); reset 0 -/
  fpc : Dword
  /-- ss.fval, 64 bits (R79); reset 0 -/
  fval : Dword
  /-- ss.mode.m [1:0] (R80); reset 10 -/
  m : BitVec 2
  /-- ss.mode.pm [3:2] (R80); reset 0 -/
  pm : BitVec 2
  /-- ss.mode.ih [4] (R80); reset 0 -/
  ih : Bool
  /-- ss.fpmode.rm [2:0] (R81); reset 000 -/
  rm : BitVec 3
  /-- ss.fpmode.flush [3] (R81); reset 0 -/
  flush : Bool
  /-- ss.fpmode.flags [8:4] (R81, R64); reset 0 -/
  flags : BitVec 5
  /-- ss.fpmode.srgen [63:32], the core's generator G (R81, R60); reset 1 -/
  srgen : Word
  /-- ss.evmask.wake [15:0] (R82); reset 0xFFFF -/
  wake : BitVec 16
  /-- ss.evmask.lost [63] (R82); reset 0 -/
  lost : Bool
  /-- ss.vcycle (R79, R343); reset 0 -/
  vcycle : Dword
  /-- ss.tenant [4:0] (R79): the function of the program that a launch last started; reset 0 -/
  tenant : BitVec 5
  /-- the function whose tile it is, in the layout of ss.tenant (R315); reset 0 -/
  fn : BitVec 5
  /-- idle, running, waiting or stopped (R86); reset idle -/
  run : CoreRun
  /-- the actor whose firing runs (R274); reset none -/
  actor : Option Nat
  /-- a `yield` in progress (R276); reset none -/
  yielding : Option YieldFrame
  /-- armed actors by number 0–15 (R273); reset none -/
  actors : Map Actor
  /-- actors whose `arm` or disarm waits for the end of their firing (R273): descriptor, or none to disarm -/
  rearm : Map (Option (BitVec 128))
  /-- the actor that fired last (R274); reset 15 -/
  lastFired : Nat
  /-- event FIFO, head first, at most 64 (R94); reset empty -/
  events : List Dword
  /-- deque, top first, bottom last, at most 256 records of 32 bytes (R278); reset empty -/
  deque : List (List Byte)
  /-- stream command queue, oldest first, at most 64 command numbers (R34); reset empty -/
  queue : List Nat
  /-- stream commands with bar = 1 that ended in a fault and so never report (R242, R251); reset empty -/
  unreported : List Nat
  /-- imprecise faults found and not yet taken: code and ss.fval (R164, R251); reset none -/
  imprecise : List (BitVec 7 × Dword)
  /-- phase buffer and snapshot (R226) -/
  view : View
  /-- core AGE (R199) -/
  age : Age
  /-- sequence number of the next send (R375); reset 0 -/
  sendSeq : BitVec 16
  /-- readiness R(m) per group (R372); reset 0 -/
  ready : Map Nat
  /-- receive queue, oldest first, at most 64 (R372); reset empty -/
  received : List Message
  /-- handles received by `grecv` and not yet acknowledged (R384) -/
  toAck : List Nat
  /-- expert sets: bias copy and micro-batches (R388, R390) -/
  experts : Map ExpertCore
  /-- counters 0x100, 0x101, 0x103: instructions retired, fc waiting, actor firings (R347); reset 0 -/
  retired : Dword
  waitFc : Dword
  firings : Dword
  /-- what `cntc` took from the count of instructions retired (R347); reset 0 -/
  retiredBase : Dword
  /-- a debugger holds the core (R409); reset 0 -/
  held : Bool
  /-- a debugger that has let the core run on still has it, and it halts at a `brk` (R97); reset 0 -/
  attached : Bool
  deriving DecidableEq, Repr, Inhabited

/-- The core after tile reset (R86, R79 to R82); what the manual gives no reset value is DESIGN CHOICE, log entry 4. -/
def Core.reset : Core :=
  { g := Vector.replicate 32 0, p := 0, pc := 0, cause := 0, fpc := 0, fval := 0, m := 2, pm := 0, ih := false
    rm := 0, flush := false, flags := 0, srgen := 1, wake := 0xFFFF, lost := false, vcycle := 0, tenant := 0, fn := 0
    run := .idle, actor := none, yielding := none, actors := [], rearm := [], lastFired := 15, events := []
    deque := [], queue := [], unreported := [], imprecise := [], view := { pb := [], sv := [] }, age := Age.reset, sendSeq := 0
    ready := [], received := [], toAck := [], experts := [], retired := 0, waitFc := 0, firings := 0, retiredBase := 0
    held := false, attached := false }

/-- An fi or fo port (R130, R131). -/
structure Port where
  /-- tokens, head first, at most 32 -/
  q : List Token
  /-- units that have consumed the head (fi) -/
  taken : List Nat
  /-- stream commands that feed or drain it and are not done, in issue order (R131) -/
  owners : List Nat
  deriving DecidableEq, Repr, Inhabited

/-- A unit's run-time state (R126, R127). -/
structure UnitState where
  /-- results standing in or waiting for the output slot, oldest first (R127) -/
  out : List Token
  /-- units that have consumed the head of `out` -/
  taken : List Nat
  /-- the route target has accepted the head of `out` -/
  routed : Bool
  /-- the operation's own words: running value, count, counter (R137, R138, R147, R204) -/
  w : List Word
  /-- buffered tokens: delay, pack, CST group parts (R138, R135, R145) -/
  buf : List Token
  /-- held block scale token of quant and scale (R136) -/
  held : Option Token
  /-- generator G for SR (R60) -/
  gen : Word
  /-- the unit's AGE latches and stop, for a0–a15 (R200) -/
  age : Age
  /-- bindings of `sage` in issue order: command numbers, at most four (R203) -/
  bindings : List Nat
  /-- handles issued since binding (R202, R206) -/
  count : Nat
  /-- the phase buffer and snapshot of a memory node (R225) -/
  view : View
  /-- mrd, mwr, mamo: accesses performed and an EOT pair waiting to drain (R207) -/
  drain : Bool
  deriving DecidableEq, Repr, Inhabited

/-- A unit before anything has reached it; its generator is 1 until a load seeds it (DESIGN CHOICE, log entry 4). -/
def UnitState.reset : UnitState :=
  { out := [], taken := [], routed := false, w := [], buf := [], held := none, gen := 1, age := Age.reset
    bindings := [], count := 0, view := { pb := [], sv := [] }, drain := false }

/-- One incoming router channel with entry local or operator (R149): tokens, who has consumed the head, and the fc at
which each token for a merge came (R150). -/
structure Channel where
  q : List Token
  taken : List Nat
  times : List Nat
  deriving DecidableEq, Repr, Inhabited

/-- The class of a D-format value or of a CST state (R58, R65). -/
inductive NumClass where
  | fin | posInf | negInf | invalid
  deriving DecidableEq, Repr, Inhabited

/-- A D-format value (R58). -/
structure DVal where
  cls : NumClass
  sign : Bool
  x : BitVec 10
  m : BitVec 16
  deriving DecidableEq, Repr, Inhabited

/-- A carry-save token (R65): only the sum S + C is architectural, so the two words are held as they stand. -/
structure Cst where
  s : BitVec 112
  c : BitVec 112
  e : BitVec 12
  st : NumClass
  deriving DecidableEq, Repr, Inhabited

/-- A weight plane (R261): depth, and rows k of 128 values; rows at or above the list read zero. -/
structure Plane where
  depth : Nat
  rows : List (List DVal)
  deriving DecidableEq, Repr, Inhabited

/-- The matrix array (R261). -/
structure Array128 where
  active : Plane
  shadow : Plane
  /-- held buffer: row × 128 + column (R261) -/
  held : Map Cst
  /-- owning stream and the owner's M (R266) -/
  owner : Option (Nat × Nat)
  /-- eight command queues, command numbers, head first (R261) -/
  queues : Map (List Nat)
  /-- commands started and not complete, with the plane each started with (R263) -/
  running : List (Nat × Plane)
  /-- a delivered row standing at the strip: command number, CSTs by column, columns delivered (R267) -/
  strip : Option (Nat × List Cst)
  /-- west lane queues fed by mfeed (R148) -/
  lanes : Map (List Token)
  age : Age
  deriving DecidableEq, Repr, Inhabited

/-- The array after tile reset (R261): planes zero with depth 0. -/
def Array128.reset : Array128 :=
  { active := { depth := 0, rows := [] }, shadow := { depth := 0, rows := [] }, held := [], owner := none
    queues := [], running := [], strip := none, lanes := [], age := Age.reset }

/-- A bound write-once buffer (R361, R362). -/
structure WriteOnce where
  cmd : Nat
  /-- node-physical address of the buffer -/
  base : Nat
  words : Nat
  /-- indices of the words present -/
  present : List Nat
  bar : Option Dword
  deriving DecidableEq, Repr, Inhabited

/-- One end of a cross-chip stream (R356 to R360). -/
structure StreamEnd where
  cmd : Nat
  /-- receive end -/
  rx : Bool
  /-- far device, tile and port as the register gave them -/
  far : BitVec 20
  depth : Nat
  /-- the stream's name B and the node tenant -/
  name : BitVec 8
  fn : Nat
  bar : Option Dword
  paired : Bool
  /-- the command that bound the other end of the pair -/
  peer : Nat
  /-- tokens that have left the fo port and not been consumed at the fi port (send end) -/
  out : Nat
  /-- tokens carried since binding -/
  carried : Nat
  /-- the close mark has come (receive end) -/
  marked : Bool
  /-- the `sclose` that has reached the port, and the tokens still to send (send end) -/
  closing : Option (Nat × Nat)
  deriving DecidableEq, Repr, Inhabited

/-- A tile (R4). -/
structure Tile where
  core : Core
  /-- configuration slots 0–426 that differ from tile reset (R122) -/
  slots : Map Slot128
  units : Map UnitState
  /-- fi0–fi63 and fo0–fo63 (R130); reset empty -/
  fi : Map Port
  fo : Map Port
  /-- incoming channels with entry local or operator (R149); reset empty -/
  chanIn : Map Channel
  /-- outgoing channels, at most 16 tokens (R149); reset empty -/
  chanOut : Map (List Token)
  /-- entries of the tag table that are not zero: slot to bits [52:10], valid above the tag VA[51:10] (R218); reset empty -/
  tags : Map (BitVec 43)
  array : Array128
  /-- port AGE, ingress AGE (R199) -/
  portAge : Age
  ingressAge : Age
  /-- leader of the live region that holds the tile (R152); reset none -/
  live : Option Nat
  /-- values in the argument network: slot and k, oldest first (R154) -/
  argNet : List (Nat × Word)
  /-- write-once buffers, at most four (R361) -/
  writeOnce : List WriteOnce
  /-- stream ends by port: fo p at p, fi p at 64 + p (R356) -/
  streams : Map StreamEnd
  /-- an `sring` at the rendezvous: command number and the fc it arrived (R223) -/
  ring : Option (Nat × Nat)
  /-- slots whose parity has failed (R341) -/
  parity : List Nat
  /-- counter 0x102: unit firings of the tile (R347) -/
  unitFirings : Dword
  deriving DecidableEq, Repr, Inhabited

/-- A tile after tile reset (R86, R122, R218, R261). -/
def Tile.reset : Tile :=
  { core := Core.reset, slots := [], units := [], fi := [], fo := [], chanIn := [], chanOut := [], tags := []
    array := Array128.reset, portAge := Age.reset, ingressAge := Age.reset, live := none, argNet := []
    writeOnce := [], streams := [], ring := none, parity := [], unitFirings := 0 }

/-- An exact value or a special, as a decoder gives it (R20, R52, R55). A NaN keeps its sign, its quiet bit and its
payload as the 22 bits below the quiet bit of FP32. -/
inductive Val where
  | zero (neg : Bool)
  /-- (−1)^neg × m × 2^e, m not 0 -/
  | fin (neg : Bool) (m : Nat) (e : Int)
  | inf (neg : Bool)
  | nan (neg quiet : Bool) (payload : Nat)
  | nar
  deriving DecidableEq, Repr, Inhabited

/-- A write of a layout engine that has not reached M (R271): its bytes, the bit at which the element begins in the
first, its width and its pattern. -/
structure LayoutWrite where
  pas : List Nat
  bit : Nat
  width : Nat
  value : Nat
  deriving DecidableEq, Repr, Inhabited

/-- A layout engine's own state for its command (R268). -/
structure LayoutRun where
  cmd : Nat
  pc : Nat
  prog : List Word
  /-- loop counters lc0–lc7 and their counts -/
  lc : Vector Nat 8
  count : Vector Nat 8
  /-- source and destination cursors -/
  sc : Vector Int 4
  dc : Vector Int 4
  /-- 256 values, each held exactly as decoded; an index not listed holds +0 -/
  stage : Map Val
  rm : BitVec 3
  flush : Bool
  /-- ranges written since the last mark -/
  ranges : Ranges
  /-- writes on their way to M, oldest first (R271) -/
  pending : List LayoutWrite
  /-- elements that the `rd` or `wr` at pc has moved: where it goes on after a stop (R251) -/
  elem : Nat
  deriving DecidableEq, Repr, Inhabited

/-- How far a command has come (R34, R249, R232): stalled at step 4 of R34, in the queue, with its engine, with every
byte moved, and completed; `suspended` has lost its engine with a save of its tile (R326). -/
inductive CmdStage where
  | stalled | queued | suspended | running | complete | done
  deriving DecidableEq, Repr, Inhabited

/-- What a command is, beside the 22 stream command codes. -/
inductive CmdKind where
  /-- a stream command of the code (R35) -/
  | stream (code : Nat)
  /-- sdsave and sdload (R307): die and slot -/
  | sdsave (gdie slot : Nat)
  | sdload (gdie slot : Nat)
  /-- ctxsv and ctxld (R332): target word and VA -/
  | ctxsv (target : Dword) (hard rep : Bool)
  | ctxld (target : Dword) (reset : Bool)
  /-- a TIER node (R282) -/
  | tier (op : Nat)
  deriving DecidableEq, Repr, Inhabited

/-- A command issued and not finished (R33, R34). It acts only on what it captured at issue. -/
structure Cmd where
  kind : CmdKind
  /-- W0 to W3 -/
  w0 : Word
  w1 : Word
  w2 : Word
  w3 : Word
  /-- issuing tile, function, user mode, address of W0 -/
  tile : Nat
  fn : Nat
  user : Bool
  pc : BitVec 48
  /-- g registers that W1 to W3 name (R34) -/
  regs : Map Dword
  /-- captured entries of A and B (R34, R75) -/
  entA : Entry512
  entB : Entry512
  /-- barrier address when bar = 1 -/
  bar : Option Dword
  /-- the graph context and node that issued it (R282) -/
  graph : Option (Nat × Nat)
  stage : CmdStage
  /-- engine that carries it -/
  engine : Nat
  /-- elements read and written -/
  rd : Nat
  wr : Nat
  /-- elements read and not yet written: index and value bits -/
  staged : Map Nat
  /-- index lists, layout programs, images and other words captured or read -/
  words : List Nat
  /-- bytes counted and ranges for the report (R237) -/
  bytes : Nat
  ranges : Ranges
  /-- flags raised (R252) -/
  flags : BitVec 5
  /-- SR generator (R60) -/
  gen : Word
  /-- follow-on command number (R260) -/
  follow : Option Nat
  /-- elements moved by a port command (R217), blocks or rows done by another -/
  moved : Nat
  /-- elements written -/
  did : List Nat
  /-- while suspended: what the layout engine held, and the record that stopped the engine's address generator (R329) -/
  layout : Option LayoutRun
  ageStop : Option AgeRecord
  deriving DecidableEq, Repr, Inhabited

/-- A completion record of CQ(e) (R226, R232). -/
structure Completion where
  cmd : Nat
  tile : Nat
  fn : Nat
  bar : Dword
  bytes : Nat
  expect : Nat
  arrivals : Nat
  ranges : Ranges
  /-- a stream command of the tile's core made it (R242) -/
  own : Bool
  /-- an `sring` made it: until the report, its window counts as under rotation (R224) -/
  ring : Bool
  deriving DecidableEq, Repr, Inhabited

/-- An item in a refire loop (R172 step 3). -/
structure GreenItem where
  serial : Nat
  /-- the boundary, counted in beats run, at which it went green -/
  since : Nat
  /-- progress words of the units by tile × 512 + slot (R169) -/
  progress : Map (List Word)
  /-- unconsumed tokens of the station's inlets, and the readers of each head, by queue key -/
  inlets : Map (List Token × List Nat)
  /-- of fi ports that the station reads beside a queue: the tokens not consumed and the readers of the head, by tile × 64 + port -/
  ports : Map (List Token × List Nat)
  /-- the source queues by which the item's closing token has come (R188) -/
  admitted : List Nat
  /-- what already stands in the station's outlets and stays with the item, and the outlets it has closed -/
  outlets : Map (List Token)
  closed : List Nat
  deriving DecidableEq, Repr, Inhabited

/-- A station of a live region (R162, R170, R183). -/
structure Station where
  length : Nat
  lead : Nat
  places : Nat
  yield : Nat
  resumable : Bool
  /-- the item in the station: its serial, or none for a bubble (R170) -/
  item : Option Nat
  /-- the item has not finished: outlets that its closing token has left (R170) -/
  closed : List Nat
  /-- issue gate closed (R171) -/
  gate : Bool
  /-- refire loop, head first (R172) -/
  loop : List GreenItem
  green : Word
  reent : Word
  peak : Word
  slips : Word
  deriving DecidableEq, Repr, Inhabited

/-- A sink (R173). -/
structure Sink where
  eots : Nat
  ordered : Bool
  port : Nat
  tile : Nat
  /-- EOTs counted -/
  seen : Nat
  reported : Bool
  /-- an ERR has been counted -/
  err : Bool
  /-- reorder window: serial to tokens, and the next serial to place -/
  window : Map (List Token)
  next : Nat
  deriving DecidableEq, Repr, Inhabited

/-- A queue between two stations, or from a port to the source station (R170, R188). A token stands beside the serial
of its item, which is no part of it; 4096 marks a token that a bubble's beat gave. -/
structure BoundaryQueue where
  /-- the station that fills it -/
  src : Nat
  /-- what fills it this beat, at most 32 -/
  fill : List (Nat × Token)
  /-- what its reader holds -/
  inlet : List (Nat × Token)
  /-- units that have consumed the head of `inlet` -/
  taken : List Nat
  /-- a source queue whose item's closing token has come (R188) -/
  closed : Bool
  /-- the fc of a source queue's last token, of which one comes per fc (R188) -/
  last : Option Nat
  deriving DecidableEq, Repr, Inhabited

/-- Where a region stands (R164, R165, R172, R175, R341). -/
inductive RegionPhase where
  /-- checked, waiting on residency (R324) -/
  | waiting
  | held
  | running
  /-- some items slip (R175): the slipping stations -/
  | slipping (stations : List Nat) (since : Nat)
  deriving DecidableEq, Repr, Inhabited

/-- A live region, by its leader tile (R161 to R183). -/
structure Region where
  cmd : Nat
  image : Nat
  fn : Nat
  user : Bool
  tiles : List Nat
  phase : RegionPhase
  /-- governor registers (R179) -/
  beat : Nat
  floor : Nat
  ceiling : Nat
  step : Nat
  mode : Nat
  hyslo : Nat
  hyshi : Nat
  slipceil : Nat
  evmask : BitVec 3
  cword : Nat
  beats : Nat
  /-- a beat length that came in the beat now running, to be latched at its end (R181) -/
  latched : Option Nat
  /-- a latched length, which runs from the next boundary on (R180, R181) -/
  nextBeat : Option Nat
  /-- a length that came in a hold or a slip, for the next beat that starts (R181) -/
  direct : Option Nat
  stations : List Station
  sinks : List Sink
  queues : Map BoundaryQueue
  /-- source queues by their key, as boundary queues have one (R188) -/
  source : Map BoundaryQueue
  /-- step 6 of the last boundary issued a bubble by R174 -/
  gated : Bool
  /-- a slot's parity has held the region in the midst of its beat (R341) -/
  paused : Bool
  /-- GREEN events of this boundary, posted at its step 7 (R172): station and data -/
  greens : List (Nat × Nat)
  serial : Nat
  /-- fc at which the beat started -/
  beatStart : Nat
  rslip : Word
  yields : Word
  /-- window of the auto governor (R180): beats, greens, slips -/
  winBeats : Nat
  winGreens : Nat
  winSlips : Nat
  flags : BitVec 5
  /-- cause of the first ERR that a sink counted (R177) -/
  err : Option (BitVec 7)
  /-- a hold asked by `bhold`, or the held state after a load (R165, R182) -/
  holdAsked : Bool
  /-- holds asked by the power governor and the parity controller (R404, R341) -/
  govHold : Bool
  parityHold : Bool
  /-- a soft pre-emption asks for a hold: the fc of the request, and whether the region is to be frozen hard (R326) -/
  preempt : Option (Nat × Bool)
  /-- captured tensor entries by tile × 512 + slot (R75) -/
  entries : Map Entry512
  /-- the slots that the load has checked and has not yet put in its tiles (R324), and the image's size -/
  slots : Map (Map Slot128)
  size : Nat
  /-- the governing node's count of tiles (R318), the context and node of a REGION node -/
  graph : Option (Nat × Nat)
  deriving DecidableEq, Repr, Inhabited

/-- A draft slot (R295). -/
structure DraftSlot where
  window : List (BitVec 24)
  cap : Nat
  quota : Nat
  total : Dword
  dropped : Dword
  loading : Bool
  deriving DecidableEq, Repr, Inhabited

/-- A draft slot after die reset (R295). -/
def DraftSlot.reset : DraftSlot := { window := [], cap := 0, quota := 0, total := 0, dropped := 0, loading := false }

/-- The state of a graph node (R283). -/
inductive NodeState where
  | waiting | ready | running | done
  deriving DecidableEq, Repr, Inhabited

/-- A SPAWN in progress (R289, R291): tasks not pushed, and how many have not signalled. -/
structure Spawn where
  tasks : List (List Byte)
  left : Nat
  deriving DecidableEq, Repr, Inhabited

/-- Where a region that a graph loaded stands (R282, R287): live, or retired, with or without err. -/
inductive GraphRegion where
  | live | retired | failed
  deriving DecidableEq, Repr, Inhabited

/-- A graph walker context (R280 to R287), by die × 64 + context. -/
structure GraphCtx where
  fn : Nat
  /-- the mode of the submitting core was user -/
  user : Bool
  home : Nat
  va : Nat
  n : Nat
  /-- nodes that submission has set (R280) -/
  started : Nat
  /-- their kinds, as submission read them -/
  kinds : Map Nat
  /-- states that are not WAITING (R283) -/
  nodes : Map NodeState
  /-- ready list, earliest first -/
  ready : List Nat
  /-- stopped by a context fault -/
  stopped : Option (BitVec 7)
  /-- regions that its REGION nodes loaded, by node -/
  regions : Map GraphRegion
  spawns : Map Spawn
  /-- signals that have come for its WAIT nodes and are not in their records yet (R286) -/
  received : Map Nat
  flags : BitVec 5
  age : Age
  /-- the act that a stop or a wait has broken off, what its accesses read (a write or another effect gives 0), and how many
  of them this run of it has passed: it goes on at the access that faulted (R209, R280) -/
  act : Nat
  trail : List Nat
  passed : Nat
  deriving DecidableEq, Repr, Inhabited

/-- A direction of a Belgal port (R363 to R369), by (die × 8 + port) × 2, plus 1 for the incoming one. -/
structure Link where
  /-- lanes that work, of 8 -/
  lanes : Nat
  down : Bool
  /-- incoming: data frames accepted since training, and the words of their blocks in order -/
  accepted : Nat
  payload : List (List Word)
  /-- outgoing: the count F of the first unacknowledged data frame; the unacknowledged frames, oldest first: the key epoch
  parity and the blocks of each -/
  sentBase : Nat
  unacked : List (Bool × List (List Word))
  /-- outgoing: frames put on the wire since training, oldest first -/
  outbox : List (List Word)
  /-- key epoch parity of new frames, and the keys held by their parity -/
  kep : Bool
  keys : Map (BitVec 128)
  /-- outgoing: data frames first sent under the key in force (R365) -/
  used : Nat
  deriving DecidableEq, Repr, Inhabited

/-- A direction before its first training: eight lanes, no key. -/
def Link.reset : Link :=
  { lanes := 8, down := false, accepted := 0, payload := [], sentBase := 0, unacked := [], outbox := [], kep := false, keys := []
    used := 0 }

/-- The states of a step change (R404). -/
inductive StepState where
  | run
  | holding (target : Nat)
  | ramp (target : Nat)
  | switch (target : Nat)
  deriving DecidableEq, Repr, Inhabited

/-- A die. -/
structure Die where
  /-- ss.cycle: fc since die reset (R79); reset 0 -/
  cycle : Nat
  /-- copy engines 0–7, layout engines 8–9: the command carried -/
  engines : Map Nat
  engineAge : Map Age
  layouts : Map LayoutRun
  /-- completion queues CQ(e) by engine number (R226) -/
  cq : Map (List Completion)
  /-- tensor-ID tables by function × 256 + ID (R73, R345); reset 0 -/
  tids : Map Entry512
  /-- suffix draft memory (R295) -/
  draft : Map DraftSlot
  /-- power: step, ceiling, tolerance, vfloor, vnow, denied, throttled (R403, R407) -/
  step : Nat
  ceiling : Nat
  tolerance : Nat
  vfloor : Nat
  vnow : Nat
  denied : Bool
  throttled : Bool
  stepState : StepState
  /-- idle state 0 (active) to 3 (R406), and µs for which the die has been quiet -/
  idle : Nat
  idleMicros : Nat
  /-- the die is lost (R352) -/
  lost : Bool
  /-- its clock has stopped at its trip temperature (R408) -/
  stopped : Bool
  /-- tiles that failed with no spare left (R3, R342) -/
  disabled : List Nat
  /-- shared counters 0x300–0x304 (R347); reset 0 -/
  counters : Map Dword
  deriving DecidableEq, Repr, Inhabited

/-- A die after die reset; vfloor is fused, and 0x90 is the manual's example (R407); it and what has no reset
value in the manual are DESIGN CHOICE, log entry 4. -/
def Die.reset : Die :=
  { cycle := 0, engines := [], engineAge := [], layouts := [], cq := [], tids := [], draft := [], step := 0
    ceiling := 0, tolerance := 0, vfloor := 0x90, vnow := 0xAA, denied := false, throttled := false
    stepState := .run, idle := 0, idleMicros := 0, lost := false, stopped := false, disabled := [], counters := [] }

/-- A tenant's state (R316). -/
inductive TenantState where
  | absent | ready | running | stopped | fatal
  deriving DecidableEq, Repr, Inhabited

/-- A page of a working-set record (R292, R322): VA base, size, history. -/
structure WsPage where
  va : Nat
  size : Nat
  history : BitVec 4
  deriving DecidableEq, Repr, Inhabited

/-- A page under move (R323): its VA, size, the frame it goes to and the number of its re-latch. -/
structure TierMove where
  va : Nat
  size : Nat
  frame : Nat
  seq : Word
  deriving DecidableEq, Repr, Inhabited

/-- A region control block as the device holds it (R317). -/
structure Rcb where
  parent : Option Nat
  bits : BitVec 392
  deriving DecidableEq, Repr, Inhabited

/-- A tenant or the owner function on one device (R313 to R322). -/
structure Tenant where
  state : TenantState
  lastCause : BitVec 7
  stopSeq : Word
  /-- the descriptor as read at the tenant start -/
  desc : BitVec 2048
  rcbs : List Rcb
  /-- working-set records by governing node (R322) -/
  ws : Map (List WsPage)
  /-- pinned pages (R325): governing node and VA -/
  pinned : List (Nat × Nat)
  /-- frames lent by the tier pool (R322): base and size -/
  lent : List (Nat × Nat)
  /-- pages marked as under move (R323) -/
  moving : List TierMove
  /-- records written to each fault domain since the tenant start, by its queue's VA (R338) -/
  faults : Map Nat
  quantumLeft : Nat
  waited : Nat
  passedOver : Nat
  /-- µs away since a quantum expiry (R320) -/
  away : Option Nat
  /-- its tiles are being saved (R326) -/
  leaving : Bool
  /-- it was runnable when its tiles were saved (R319) -/
  work : Bool
  /-- commands completed, and what marked its progress at the last µs (R340) -/
  completed : Nat
  progress : List Nat
  /-- µs without progress (R340) -/
  idleMicros : Nat
  /-- counters 0x200–0x207 (R347) -/
  counters : Map Dword
  /-- shared-counter values fixed at the last period end (R347), and µs of the period now running -/
  period : Map Dword
  periodAge : Nat
  /-- µs of the sampling interval now running, and whether its sample has been taken (R292) -/
  sampleAge : Nat
  sampled : Bool
  /-- the tenant's memory key (R401) -/
  key : Option (BitVec 128)
  deriving DecidableEq, Repr, Inhabited

/-- A tenant before its first start (R399 step 5; DESIGN CHOICE, log entry 4, but for its state). -/
def Tenant.reset : Tenant :=
  { state := .absent, lastCause := 0, stopSeq := 0, desc := 0, rcbs := [], ws := [], pinned := [], lent := [], moving := []
    faults := [], quantumLeft := 0, waited := 0, passedOver := 0, away := none, leaving := false, work := true
    completed := 0, progress := [], idleMicros := 0
    counters := [], period := [], periodAge := 0, sampleAge := 0, sampled := false, key := none }

/-- A submission queue's registers (R396). -/
structure SubQueue where
  qbase : Dword
  err : Bool
  enable : Bool
  qsize : BitVec 5
  tail : BitVec 16
  head : BitVec 16
  deriving DecidableEq, Repr, Inhabited

/-- A device. -/
structure Device where
  /-- device number set at boot (R353, R399) -/
  number : Nat
  /-- out of reset (R399) -/
  up : Bool
  /-- the number that a management message has set for the next bring-up (R399, R408) -/
  nextNumber : Option Nat
  /-- tenant table base, owner VA (R313) -/
  table : Nat
  tenants : Map Tenant
  /-- tenants chosen at an expiry, which start once every tenant they conflict with is READY (R320) -/
  chosen : List Nat
  /-- µs of the device time base since device reset: counter 0x000 (R412, R347) -/
  micros : Nat
  /-- ss.cycle of d0 and d1 as tenant reads see it: at the last µs tick (R343) -/
  tickCycle : Nat × Nat
  /-- next re-latch number (R344) -/
  relatchSeq : Word
  /-- submission queues by function × 8 + queue (R396) -/
  queues : Map SubQueue
  /-- MSI-X: messages raised by function × 4096 + vector, masked vectors, table sizes (R398) -/
  msix : List Nat
  msixMasked : List Nat
  msixPending : List Nat
  msixSize : Map Nat
  /-- populated far CXL memory in bytes (R193) -/
  farBytes : Nat
  /-- HBM ranges exposed to CXL.mem: (local base, size), at most 2 (R395) -/
  hdm : List (Nat × Nat)
  /-- SPDM measurement blocks (R399, R400) and the error log (R402) -/
  measured : Map Nat
  errorLog : List Nat
  /-- tenants whose tiles may be debugged; the JTAG port is open (R409) -/
  debug : Nat
  jtag : Bool
  /-- the owner's memory key; every key erased after a level 3 alarm (R401, R402) -/
  ownerKey : Option (BitVec 128)
  frozen : Bool
  deriving DecidableEq, Repr, Inhabited

/-- A device before bring-up (DESIGN CHOICE, log entry 4). -/
def Device.reset : Device :=
  { number := 0, up := true, nextNumber := none, table := 0, tenants := [], chosen := [], micros := 0, tickCycle := (0, 0), relatchSeq := 0
    queues := [], msix := [], msixMasked := [], msixPending := [], msixSize := [], farBytes := 0, hdm := []
    measured := [], errorLog := [], debug := 0, jtag := false, ownerKey := none, frozen := false }

/-- An installed group (R370, R372, R373), by function × 256 + group. -/
structure Group where
  plimit : Nat
  /-- devices on which it is installed (R371) -/
  devs : List Nat
  /-- records: device, tile, parent, member -/
  dev : List Nat
  tile : List Nat
  parent : List Nat
  member : List Bool
  /-- records that have left the tree by a strike (R379) -/
  struck : List Nat
  root : Nat
  /-- signed count of each record at its parent (R372) -/
  counts : Map Int
  /-- park list, oldest first: keys of sends -/
  parked : List Nat
  /-- sends that are to restart at the root, in order: parked ones after a rise of readiness, and those that a strike has brought
  there (R373, R379) -/
  restarts : List Nat
  deriving DecidableEq, Repr, Inhabited

/-- An installed expert set on a device (R387), by (device × 17 + function) × 16 + set. -/
structure ExpertSet where
  groups : Nat
  experts : Nat
  kg : Nat
  ke : Nat
  gbase : Nat
  step : Word
  bias : Nat
  intake : Nat
  cap : Nat
  masks : List (BitVec 16)
  deriving DecidableEq, Repr, Inhabited

/-- A readiness change on its way to the root (R372): the group's key, the member that made it, the record whose count it
is to change next, and the amount. -/
structure ReadyMsg where
  group : Nat
  member : Nat
  node : Nat
  amount : Int
  deriving DecidableEq, Repr, Inhabited

/-- A notice on its way to a sender (R375, R376): taken with the experts chosen, or acknowledged. -/
structure Notice where
  /-- the key of the send: its handle, and its function × 2^64 -/
  send : Nat
  ack : Bool
  /-- the tile that sends the notice -/
  tile : Nat
  /-- of a taken notice: the sender, expert set, micro-batch, group of the set and experts chosen -/
  sender : Nat
  set : Option Nat
  batch : Nat
  index : Nat
  chosen : BitVec 14
  deriving DecidableEq, Repr, Inhabited

/-- A RELATCH in progress (R212, R344): tokens not yet emerged, by AGE number. -/
structure Relatch where
  dev : Nat
  seq : Word
  fn : Nat
  left : List Nat
  deriving DecidableEq, Repr, Inhabited

/-- What an image holds in its implementation section (R330): the tile as it stood, its commands, and the region it led. -/
structure SavedTile where
  tile : Tile
  cmds : Map Cmd
  region : Option Region
  /-- the tiles saved in the same run of images -/
  run : List Nat
  deriving DecidableEq, Repr, Inhabited

/-- What a device section holds beside the tensor-ID tables (R330): the walker contexts, the tenant's counters, and its tier
records: working sets, pins and lent frames (R346). -/
structure SavedDevice where
  contexts : Map GraphCtx
  counters : Map Dword
  ws : Map (List WsPage)
  pinned : List (Nat × Nat)
  lent : List (Nat × Nat)
  deriving DecidableEq, Repr, Inhabited

/-- A write of the device itself that waits for the end of a page's move (R323): a fault record, with the handler tile and
the record's number in its domain (R338), or a tenant's status (R313). -/
structure HeldWrite where
  gdie : Nat
  fn : Nat
  va : Nat
  data : List Byte
  notify : Option (Nat × Nat)
  deriving DecidableEq, Repr, Inhabited

/-- A step of the atomic order of an address (R226): a drain or an atomic of a buffered agent, the update of a barrier
(R238), or the update of a page-table or queue word by the machine itself. -/
inductive OrderStep where
  | drain (agent : Nat)
  | atomic (agent : Nat)
  | update
  | machine
  deriving DecidableEq, Repr, Inhabited

/-- The whole node. -/
structure State where
  /-- whose turns come next, the next first; the model's own field (DESIGN CHOICE, log entry 1) -/
  sched : List Turn
  /-- count of free values taken; the model's own field (DESIGN CHOICE, log entry 2) -/
  tick : Nat
  /-- the tile, slot and engine whose turn it is; the model's own fields (DESIGN CHOICE, log entry 1) -/
  cur : Nat
  slot : Nat
  engine : Nat
  /-- the fields of the stream command words fetched last; the model's own field (DESIGN CHOICE, log entry 1) -/
  ir : StreamWord
  /-- M: node-physical memory (R226, R193) -/
  mem : Memory
  tiles : Map Tile
  dies : Map Die
  devices : Map Device
  /-- device numbers of the node (R353) -/
  node : List Nat
  cmds : Map Cmd
  nextCmd : Nat
  regions : Map Region
  contexts : Map GraphCtx
  /-- Ranges(b) and F(b) by node-physical address of the barrier (R226) -/
  barRanges : Map Ranges
  barFlipped : Map Ranges
  /-- atomic order (R226): for each address, the atomic steps and drains that changed it, earliest first -/
  order : Map (List OrderStep)
  /-- writes of the devices that wait for the end of a move, earliest first (R323) -/
  heldWrites : List HeldWrite
  groups : Map Group
  experts : Map ExpertSet
  /-- unacknowledged sends (R376) -/
  sends : List Send
  readyMsgs : Map ReadyMsg
  notices : Map Notice
  nextMsg : Nat
  /-- strikes to come (R379): device, die or 2, function -/
  strikes : List (Nat × Nat × Nat)
  links : Map Link
  relatches : List Relatch
  /-- tokens of cross-chip streams in transit, by the command that bound the receive end; kind 7 stands for the close mark (R358, R359) -/
  transit : Map (List Token)
  /-- what was saved, by the number the image's implementation section holds (R330; DESIGN CHOICE, log entry 14) -/
  saved : Map SavedTile
  nextSaved : Nat
  /-- what was saved with a device section, by the number that it holds -/
  savedDevices : Map SavedDevice
  /-- the number of what a save has taken away from a tile and no restore has brought back, by tile × 32 + function (R326) -/
  away : Map Nat
  /-- reports to barriers in scratchpads that a save has taken away: they are applied as the tile comes back (R307) -/
  owed : List Completion
  deriving DecidableEq, Repr, Inhabited

/-- Right after reset: device 0 alone in its node, every tile as tile reset leaves it, nothing scheduled. -/
def State.reset : State :=
  { sched := [], tick := 0, cur := 0, slot := 0, engine := 0, ir := default, mem := [], tiles := [], dies := [], devices := []
    node := [0], cmds := [], nextCmd := 0, regions := [], contexts := [], barRanges := [], barFlipped := [], order := [], heldWrites := []
    groups := [], experts := [], sends := [], readyMsgs := [], notices := [], nextMsg := 0, strikes := [], links := []
    relatches := [], transit := [], saved := [], nextSaved := 1, savedDevices := []
    away := [], owed := [] }

/-- Why a step stops for good. -/
inductive Fault where
  /-- Raised by an act of the host or a debugger that names an address at which the manual places no memory (R193):
  the manual gives such an access no effect. Safe: the machine stops where the hardware may go on. -/
  | unpopulated (addr : Nat)
  deriving DecidableEq, Repr

/-- Why a step has no meaning. -/
inductive Refusal where
  /-- Raised by `exec` for an instruction the model gives no meaning. Safe: nothing is claimed of it. -/
  | notModelled (mnemonic : String)
  deriving DecidableEq, Repr

end Sys2Proof.Machine
end

