-- ==== Sys2Proof/Machine/Base.lean ====
section
/-! DEFINITION. The named operations that every family uses: sparse maps, memory, phase buffers and snapshots (R226 to
R233), registers (R76 to R82), the tiles, dies and devices of the node, events (R94) and barrier updates (R238). -/

namespace Sys2Proof.Machine

/-! ### Sparse maps -/

/-- The value at key k, if listed. -/
def mapGet {α : Type} : Map α → Nat → Option α
  | [], _ => none
  | (j, v) :: r, k => if j = k then some v else mapGet r k

/-- Write v at key k, keeping the keys rising. -/
def mapSet {α : Type} : Map α → Nat → α → Map α
  | [], k, v => [(k, v)]
  | (j, u) :: r, k, v => if k < j then (k, v) :: (j, u) :: r else if k = j then (k, v) :: r else (j, u) :: mapSet r k v

/-- Remove key k. -/
def mapErase {α : Type} (m : Map α) (k : Nat) : Map α := m.filter fun p => p.1 ≠ k

/-! ### Bits and bytes -/

/-- Byte i of a number, little-endian. -/
def byteOf (v i : Nat) : Byte := BitVec.ofNat 8 (v >>> (8 * i))

/-- The n low bytes of a number, lowest first. -/
def toBytes (v n : Nat) : List Byte := (List.range n).map (byteOf v)

/-- The number whose little-endian bytes are given. -/
def ofBytes : List Byte → Nat
  | [] => 0
  | b :: r => b.toNat + 256 * ofBytes r

/-- SignExt(v, n) of R20: the integer whose n-bit two's-complement form is v[n−1:0]. -/
def signExt (v n : Nat) : Int :=
  let u := v % 2 ^ n
  if n = 0 then 0 else if u < 2 ^ (n - 1) then (u : Int) else (u : Int) - (2 : Int) ^ n

/-- ZeroExt(v, n) of R20. -/
def zeroExt (v n : Nat) : Nat := v % 2 ^ n

/-- An integer stored modulo 2^64 (R18). -/
def toDword (x : Int) : Dword := BitVec.ofInt 64 x

/-- Does the range hold the address? -/
def inRange (base len a : Nat) : Bool := base ≤ a && a < base + len

/-! ### Memory M -/

/-- What an address that memory does not list reads as (DESIGN CHOICE, log entry 3). -/
def unlisted : Byte := 0

/-- The byte at an address. -/
def Memory.get : Memory → Nat → Byte
  | [], _ => unlisted
  | (a, b) :: r, x => if a = x then b else if x < a then unlisted else Memory.get r x

/-- Write a byte; an entry equal to what an unlisted address reads as is removed. -/
def Memory.set : Memory → Nat → Byte → Memory
  | [], x, v => if v = unlisted then [] else [(x, v)]
  | (a, b) :: r, x, v =>
    if x < a then (if v = unlisted then (a, b) :: r else (x, v) :: (a, b) :: r)
    else if x = a then (if v = unlisted then r else (x, v) :: r)
    else (a, b) :: Memory.set r x v

/-- The canonical form: addresses strictly rising, no entry equal to what an unlisted address reads as. -/
def Memory.wf : Memory → Bool
  | [] => true
  | [(_, b)] => b ≠ unlisted
  | (a, b) :: (a', b') :: r => b ≠ unlisted && a < a' && Memory.wf ((a', b') :: r)

/-- n bytes at an address, lowest first. -/
def Memory.read (m : Memory) (a n : Nat) : List Byte := (List.range n).map fun i => m.get (a + i)

/-- Write bytes upward from an address. -/
def Memory.write (m : Memory) (a : Nat) : List Byte → Memory
  | [] => m
  | b :: r => Memory.write (m.set a b) (a + 1) r

/-- The little-endian number of n bytes at an address. -/
def Memory.num (m : Memory) (a n : Nat) : Nat := ofBytes (m.read a n)

/-- Take m for the addresses that p picks and old for the others. -/
def Memory.over (old m : Memory) (p : Nat → Bool) : Memory :=
  (m.filter fun c => p c.1).foldl (fun acc c => acc.set c.1 c.2) (old.filter fun c => !p c.1)

/-! ### Node-physical addresses (R193) -/

/-- First node-physical address of the scratchpad of a tile of the node. -/
def spBase (t : Nat) : Nat := (t / 160) * 2 ^ 50 + 2 ^ 49 + (t % 160) * 0x400000

/-- Device field of a node-physical address (DEDUCED, log entry 30). -/
def paDevice (a : Nat) : Nat := a / 2 ^ 50

/-- The tile of the node whose scratchpad holds the address, if any. -/
def spTile (a : Nat) : Option Nat :=
  let l := a % 2 ^ 50
  if 2 ^ 49 ≤ l && l < 2 ^ 49 + 160 * 0x400000 && (l - 2 ^ 49) % 0x400000 < 0x300000 then
    some (paDevice a * 160 + (l - 2 ^ 49) / 0x400000)
  else none

/-- Last plain scratchpad address (R83). -/
def spLast : Nat := 0x2FFFFF

/-- Size of the supervisor area (R83). -/
def supervisorArea : Nat := 0x1000

/-- The scope sets of R228, judged from a tile of the node: 0 tile, 1 cluster, 2 die, 3 device, 4 node. -/
def inScope (t scope a : Nat) : Bool :=
  match scope with
  | 0 => spTile a = some t
  | 1 => match spTile a with
    | some u => u / 8 = t / 8
    | none => false
  | 2 => match spTile a with
    | some u => u / 80 = t / 80
    | none => false
  | 3 => paDevice a = t / 160
  | _ => true

/-! ### Tiles, dies, devices -/

/-- A tile of the node. -/
def State.tile (s : State) (t : Nat) : Tile := (mapGet s.tiles t).getD Tile.reset

/-- Replace a tile. -/
def State.setTile (s : State) (t : Nat) (x : Tile) : State := { s with tiles := mapSet s.tiles t x }

/-- Die of a tile of the node: device × 2 + die. -/
def dieOf (t : Nat) : Nat := t / 80

/-- Device of a tile of the node. -/
def deviceOf (t : Nat) : Nat := t / 160

/-- A die. -/
def State.die (s : State) (d : Nat) : Die := (mapGet s.dies d).getD Die.reset

/-- Replace a die. -/
def State.setDie (s : State) (d : Nat) (x : Die) : State := { s with dies := mapSet s.dies d x }

/-- A device of the node. -/
def State.device (s : State) (d : Nat) : Device := (mapGet s.devices d).getD Device.reset

/-- Replace a device. -/
def State.setDevice (s : State) (d : Nat) (x : Device) : State := { s with devices := mapSet s.devices d x }

/-- A tenant of a device; function 16 is the owner. -/
def State.tenant (s : State) (d fn : Nat) : Tenant := (mapGet (s.device d).tenants fn).getD Tenant.reset

/-- Replace a tenant of a device. -/
def State.setTenant (s : State) (d fn : Nat) (x : Tenant) : State :=
  s.setDevice d { s.device d with tenants := mapSet (s.device d).tenants fn x }

/-- A private counter of a tenant grows (R347). -/
def State.count (s : State) (d fn n k : Nat) : State :=
  let x := s.tenant d fn
  s.setTenant d fn { x with counters := mapSet x.counters n (((mapGet x.counters n).getD 0) + BitVec.ofNat 64 k) }

/-- A shared counter of a die grows (R347). -/
def State.addShared (s : State) (gdie n k : Nat) : State :=
  let d := s.die gdie
  s.setDie gdie { d with counters := mapSet d.counters n (((mapGet d.counters n).getD 0) + BitVec.ofNat 64 k) }

/-- The core of a tile. -/
def State.coreOf (s : State) (t : Nat) : Core := (s.tile t).core

/-- Replace the core of a tile. -/
def State.setCore (s : State) (t : Nat) (c : Core) : State := s.setTile t { s.tile t with core := c }

/-- The core whose turn it is. -/
def State.core (s : State) : Core := s.coreOf s.cur

/-- Replace the core whose turn it is. -/
def State.withCore (s : State) (c : Core) : State := s.setCore s.cur c

/-- A unit's run-time state. -/
def Tile.unitAt (x : Tile) (slot : Nat) : UnitState := (mapGet x.units slot).getD UnitState.reset

/-- Replace a unit's run-time state. -/
def State.setUnit (s : State) (t slot : Nat) (u : UnitState) : State :=
  s.setTile t { s.tile t with units := mapSet (s.tile t).units slot u }

/-- A function number 0–16 as a core holds it: bit 4 marks the owner (R79). -/
def fnOf (b : BitVec 5) : Nat := if b.getLsbD 4 then 16 else b.toNat

/-- A function number as ss.tenant holds it. -/
def fnBits (fn : Nat) : BitVec 5 := if fn = 16 then 0x10 else BitVec.ofNat 5 fn

/-! ### Registers (R76, R77) -/

/-- g[r]: g0 reads zero. -/
def Core.reg (c : Core) (r : BitVec 5) : Dword := if r = 0 then 0 else c.g[r.toNat]

/-- g[r] := v: a write to g0 has no effect. -/
def Core.setReg (c : Core) (r : BitVec 5) (v : Dword) : Core := if r = 0 then c else { c with g := c.g.set r.toNat v }

/-- p[i]: p0 reads true. -/
def Core.pred (c : Core) (i : BitVec 3) : Bool := i = 0 || c.p.getLsbD i.toNat

/-- p[i] := v: a write to p0 has no effect. -/
def Core.setPred (c : Core) (i : BitVec 3) (v : Bool) : Core :=
  if i = 0 then c
  else { c with p := (c.p &&& ~~~(1#8 <<< i.toNat)) ||| (if v then 1#8 <<< i.toNat else 0#8) }

/-- ss.mode as software reads it (R80). -/
def Core.mode (c : Core) : Dword := BitVec.setWidth 64 (BitVec.ofBool c.ih ++ c.pm ++ c.m)

/-- Is the core in user mode? -/
def Core.user (c : Core) : Bool := c.m = 0

/-! ### Phase buffers and snapshots (R226 to R229) -/

/-- The latest entry for an address in a phase buffer. -/
def lastEntry (pb : List PbEntry) (a : Nat) : Option Byte :=
  pb.foldl (fun acc e => if e.addr = a then some e.byte else acc) none

/-- The number of the next store in a phase buffer. -/
def nextStore (pb : List PbEntry) : Nat := pb.foldl (fun n e => max n (e.store + 1)) 0

/-- A store appends its bytes to PB (R227). -/
def View.store (v : View) (a : Nat) (bs : List Byte) : View :=
  { v with pb := v.pb ++ bs.mapIdx fun i b => { store := nextStore v.pb, addr := a + i, byte := b } }

/-- A store whose bytes are given with their addresses. -/
def View.storeCells (v : View) (cells : List Host.Cell) : View :=
  { v with pb := v.pb ++ cells.map fun c => { store := nextStore v.pb, addr := c.1, byte := c.2 } }

/-! ### Writes that reach M, with write-once words (R362) -/

/-- The write-once buffer of a tile that holds an address, with its word index. -/
def woFind (ws : List WriteOnce) (a : Nat) : Option (WriteOnce × Nat) :=
  (ws.find? fun w => inRange w.base (4 * w.words) a).map fun w => (w, (a - w.base) / 4)

/-- Is the byte in a bound write-once word that is already present? -/
def State.woPresent (s : State) (a : Nat) : Bool :=
  match spTile a with
  | none => false
  | some t => match woFind (s.tile t).writeOnce a with
    | some (w, i) => w.present.contains i
    | none => false

/-- Is the byte in a bound write-once word that is absent? -/
def State.woAbsent (s : State) (a : Nat) : Bool :=
  match spTile a with
  | none => false
  | some t => match woFind (s.tile t).writeOnce a with
    | some (w, i) => !w.present.contains i
    | none => false

/-- Is the byte in a bound write-once word? -/
def State.woBound (s : State) (a : Nat) : Bool := s.woPresent a || s.woAbsent a

/-- The byte that a load or fetch of an agent returns: its own latest buffered store, else SV (R227), but M for a word of
a bound write-once buffer (R362). -/
def State.viewByte (s : State) (v : View) (a : Nat) : Byte :=
  match lastEntry v.pb a with
  | some b => b
  | none => if s.woBound a then s.mem.get a else v.sv.get a

/-- n bytes as an agent's loads give them. -/
def State.viewRead (s : State) (v : View) (a n : Nat) : List Byte := (List.range n).map fun i => s.viewByte v (a + i)

/-- The little-endian number of n loaded bytes. -/
def State.viewNum (s : State) (v : View) (a n : Nat) : Nat := ofBytes (s.viewRead v a n)

/-- Append a completion record to CQ(e) of a die (R227 complete). -/
def State.pushCq (s : State) (d eng : Nat) (r : Completion) : State :=
  let x := s.die d
  s.setDie d { x with cq := mapSet x.cq eng ((mapGet x.cq eng).getD [] ++ [r]) }

/-- The engine number that stands for a tile's ports and write-once buffers in CQ (R225). -/
def portEngine (t : Nat) : Nat := 2 ^ 20 + t

/-- The engine number of a tile's matrix array. -/
def arrayEngine (t : Nat) : Nat := 2 ^ 21 + t

/-- A command of a tenant completes: what marks its progress (R340). -/
def State.cmdDone (s : State) (c : Cmd) : State :=
  let x := s.tenant (deviceOf c.tile) c.fn
  s.setTenant (deviceOf c.tile) c.fn { x with completed := x.completed + 1 }

/-- Mark a word of a buffer present; when all are, the binding ends and the command leaves its core's queue, if it stands in it
yet, and reports (R362). -/
def State.woMark (s : State) (a : Nat) : State :=
  match spTile a with
  | none => s
  | some t =>
    let x := s.tile t
    match woFind x.writeOnce a with
    | none => s
    | some (w, i) =>
      if w.present.contains i then s
      else
        let w' := { w with present := i :: w.present }
        let others := x.writeOnce.filter fun v => v.cmd ≠ w.cmd
        if w'.present.length = w'.words then
          let c := (mapGet s.cmds w.cmd).getD default
          let s := s.setTile t { x with writeOnce := others }
          let x := s.tile c.tile
          let s := s.setTile c.tile { x with core := { x.core with queue := x.core.queue.filter (· ≠ w.cmd) } }
          let s := ({ s with cmds := mapErase s.cmds w.cmd } : State).cmdDone c
          match w.bar with
          | none => s
          | some b => s.pushCq (dieOf t) (portEngine t)
              { cmd := w.cmd, tile := t, fn := c.fn, bar := b, bytes := 4 * w.words, expect := 0, arrivals := 0
                ranges := [(w.base, 4 * w.words)], own := c.graph.isNone, ring := false }
        else s.setTile t { x with writeOnce := w' :: others }

/-- One write of several bytes reaches M: bytes of present write-once words are discarded, and each absent word that
the write touches becomes present (R362). -/
def State.writeCells (s : State) (cells : List Host.Cell) : State :=
  let kept := cells.filter fun c => !s.woPresent c.1
  let touched := kept.filter fun c => s.woAbsent c.1
  let s := { s with mem := kept.foldl (fun m c => m.set c.1 c.2) s.mem }
  touched.foldl (fun s c => s.woMark c.1) s

/-- One write of consecutive bytes reaches M. -/
def State.writeM (s : State) (a : Nat) (bs : List Byte) : State := s.writeCells (bs.mapIdx fun i b => (a + i, b))

/-- The number of a core as a buffered agent in the atomic order. -/
def coreAgent (t : Nat) : Nat := t * 512 + 511
/-- The number of a memory node as a buffered agent in the atomic order. -/
def nodeAgent (t slot : Nat) : Nat := t * 512 + slot

/-- A step joins the atomic order of the addresses that it changes (R226, R233). -/
def State.note (s : State) (k : OrderStep) (pas : List Nat) : State :=
  { s with order := pas.foldl (fun m a => mapSet m a ((mapGet m a).getD [] ++ [k])) s.order }

/-- An atomic step of the machine itself that writes bytes: they reach M, and it joins the atomic order (R233 step 2). -/
def State.machineWrite (s : State) (a : Nat) (bs : List Byte) : State :=
  (s.writeM a bs).note .machine ((List.range bs.length).map (a + ·))

/-- The stores of a phase buffer, in order, each as the cells that p picks. -/
def storesOf (pb : List PbEntry) (p : Nat → Bool) : List (List Host.Cell) :=
  (List.range (nextStore pb)).map fun n =>
    (pb.filter fun e => e.store = n && p e.addr).map fun e => (e.addr, e.byte)

/-- Drain of the addresses p picks (R227): entries go into M in list order and leave PB, and SV takes M over the bytes
drained. Each drained address has the drain in its atomic order (R226). Answers the new machine (M) and the new view. -/
def drainView (s : State) (who : Nat) (v : View) (p : Nat → Bool) : State × View :=
  let s' := (storesOf v.pb p).foldl (fun s cs => s.writeCells cs) s
  let drained := v.pb.filter fun e => p e.addr
  (s'.note (.drain who) ((drained.map PbEntry.addr).filter fun a => !s.woPresent a).eraseDups,
    { pb := v.pb.filter (fun e => !p e.addr)
      sv := drained.foldl (fun sv e => sv.set e.addr (s'.mem.get e.addr)) v.sv })

/-- Refresh of the addresses p picks (R227). -/
def refreshView (m : Memory) (v : View) (p : Nat → Bool) : View := { v with sv := v.sv.over m p }

/-- Refresh at node scope: SV becomes M. -/
def refreshNode (m : Memory) (v : View) : View := { v with sv := m }

/-- A core drains at a scope (R229). -/
def State.drainCore (s : State) (t scope : Nat) : State :=
  let (s', v) := drainView s (coreAgent t) (s.coreOf t).view (inScope t scope)
  s'.setCore t { s'.coreOf t with view := v }

/-- A core refreshes at a scope (R229). -/
def State.refreshCore (s : State) (t scope : Nat) : State :=
  let c := s.coreOf t
  let v := if scope = 4 then refreshNode s.mem c.view else refreshView s.mem c.view (inScope t scope)
  s.setCore t { c with view := v }

/-- A memory node drains at a scope. -/
def State.drainNode (s : State) (t slot scope : Nat) : State :=
  let (s', v) := drainView s (nodeAgent t slot) ((s.tile t).unitAt slot).view (inScope t scope)
  s'.setUnit t slot { (s'.tile t).unitAt slot with view := v }

/-- A memory node refreshes at a scope. -/
def State.refreshUnit (s : State) (t slot scope : Nat) : State :=
  let u := (s.tile t).unitAt slot
  let v := if scope = 4 then refreshNode s.mem u.view else refreshView s.mem u.view (inScope t scope)
  s.setUnit t slot { u with view := v }

/-! ### Events and imprecise faults -/

/-- An event record (R94). -/
def eventRecord (kind source data : Nat) : Dword :=
  BitVec.ofNat 64 (kind % 256 + 256 * (source % 256) + 65536 * (data % 2 ^ 48))

/-- A die that is lost, or whose clock is stopped or gated, takes no turn (R352, R406, R408). -/
def State.dieStopped (s : State) (gdie : Nat) : Bool := (s.die gdie).lost || (s.die gdie).stopped || (s.die gdie).idle ≠ 0

/-- A tile that failed with no spare left is disabled (R3, R342). -/
def State.disabled (s : State) (t : Nat) : Bool := (s.die (dieOf t)).disabled.contains t

/-- A tile does nothing: it is disabled, or its die is lost or has its clock stopped or gated. -/
def State.tileStops (s : State) (t : Nat) : Bool := s.dieStopped (dieOf t) || s.disabled t

/-- The region that holds a live tile. -/
def State.regionOf (s : State) (t : Nat) : Option (Nat × Region) :=
  match (s.tile t).live with
  | none => none
  | some l => (mapGet s.regions l).map fun r => (l, r)

/-- What wakes a die (R406). -/
def State.wakeDie (s : State) (gdie : Nat) : State :=
  if (s.die gdie).idle = 0 then s else s.setDie gdie { s.die gdie with idle := 0, idleMicros := 0 }

/-- An event enters a core's FIFO, or is dropped with ss.evmask.lost set when 64 are held (R94); it wakes the core's die
(R406). -/
def State.post (s : State) (t kind source data : Nat) : State :=
  let s := s.wakeDie (dieOf t)
  let c := s.coreOf t
  if c.events.length < 64 then s.setCore t { c with events := c.events ++ [eventRecord kind source data] }
  else s.setCore t { c with lost := true }

/-- A core is to take a code before its next instruction (R164, R251). -/
def State.imprecise (s : State) (t : Nat) (code : BitVec 7) (fval : Nat) : State :=
  let c := s.coreOf t
  s.setCore t { c with imprecise := c.imprecise ++ [(code, BitVec.ofNat 64 fval)] }

/-! ### Barrier objects (R235 to R238) -/

/-- Node-physical address of the barrier that a barrier address names (R235). -/
def barrierPa (a : Dword) : Nat :=
  ((a.toNat / 2 ^ 30) % 64) * 2 ^ 50 + 2 ^ 49 + ((a.toNat / 2 ^ 22) % 256) * 0x400000 + a.toNat % 2 ^ 22

/-- An update of a barrier (R237). -/
structure BarUpdate where
  bytes : Nat
  expect : Nat
  arrivals : Nat
  ranges : Ranges
  deriving DecidableEq, Repr

/-- The bytes of a barrier (R236). -/
def barrierBytes (pa : Nat) : List Nat := (List.range 16).map (pa + ·)

/-- R238: the update in one atomic step; the cause where it fails, with nothing changed. -/
def State.barrierUpdate (s : State) (pa : Nat) (u : BarUpdate) : Except (BitVec 7) State :=
  let lo := s.mem.num pa 8
  let hi := s.mem.num (pa + 8) 8
  let bytes := lo % 2 ^ 48
  let arr := lo / 2 ^ 48
  let expect := hi % 2 ^ 48
  let arrexp := hi / 2 ^ 48 % 2 ^ 15
  let phase := hi / 2 ^ 63
  let na := arr + u.arrivals
  let nb := bytes + u.bytes
  let ne := expect + u.expect
  if arrexp = 0 then .error 0x2A
  else if nb ≥ 2 ^ 48 || ne ≥ 2 ^ 48 then .error 0x2A
  else if na > arrexp || (na = arrexp && nb > ne) then .error 0x29
  else
    let rs := (mapGet s.barRanges pa).getD [] ++ u.ranges
    if na = arrexp && nb = ne then
      let s := s.writeM pa (toBytes 0 8 ++ toBytes ((1 - phase) * 2 ^ 63 + arrexp * 2 ^ 48) 8)
      .ok (({ s with barFlipped := mapSet s.barFlipped pa rs, barRanges := mapErase s.barRanges pa } : State).note .update
        (barrierBytes pa))
    else
      let s := s.writeM pa (toBytes (na * 2 ^ 48 + nb) 8 ++ toBytes (phase * 2 ^ 63 + arrexp * 2 ^ 48 + ne) 8)
      .ok (({ s with barRanges := mapSet s.barRanges pa rs } : State).note .update (barrierBytes pa))

/-- The phase bit of a barrier, read from M (R241). -/
def State.barrierPhase (s : State) (pa : Nat) : Bool := s.mem.num (pa + 8) 8 / 2 ^ 63 = 1

/-! ### The tensor-ID tables (R73, R345) -/

/-- Entry id of a function on a die; reset zero. -/
def State.tid (s : State) (gdie fn id : Nat) : Entry512 := (mapGet (s.die gdie).tids (fn * 256 + id)).getD 0

/-- Write an entry of a function on a die. -/
def State.setTid (s : State) (gdie fn id : Nat) (e : Entry512) : State :=
  s.setDie gdie { s.die gdie with tids := mapSet (s.die gdie).tids (fn * 256 + id) e }

end Sys2Proof.Machine
end

