-- ==== Sys2Proof/Machine/Translate.lean ====
section
/-! DEFINITION. Translation: what a tenant descriptor grants (R313, R314), the walk (R194 to R197), the latches of an
address generator (R200), region control blocks and governing nodes (R317, R318), working-set records (R322, R350),
and fault records and fault domains (R209, R210, R338). -/

namespace Sys2Proof.Machine

/-! ### Fields of the tenant descriptor (R313) -/

/-- Bits [hi:lo] of a descriptor. -/
def descField (d : BitVec 2048) (hi lo : Nat) : Nat := d.toNat / 2 ^ lo % 2 ^ (hi + 1 - lo)

/-- The descriptor a function's tiles run under. -/
def State.desc (s : State) (dev fn : Nat) : BitVec 2048 := (s.tenant dev fn).desc

/-- Does the tile set of a tenant hold the global tile? Every tile belongs to the owner function (R315). -/
def State.ownsTile (s : State) (dev fn t : Nat) : Bool :=
  t < 160 && (fn = 16 || (s.desc dev fn).toNat.testBit t)

/-- A tenant that is RUNNING holds the tile. -/
def State.tenantOn (s : State) (t : Nat) : Bool :=
  (s.device (deviceOf t)).tenants.any fun x => x.1 ≠ 16 && x.2.state = .running && s.ownsTile (deviceOf t) x.1 (t % 160)

/-- The granted ranges of grants 0 to 3 of a descriptor (R314): (base, length). -/
def descGrants (d : BitVec 2048) : Ranges :=
  (List.range 4).map fun g =>
    let v := descField d (64 * g + 575) (64 * g + 512)
    (v % 2 ^ 31 * 2 ^ 25, v / 2 ^ 31 % 2 ^ 31 * 2 ^ 25)

/-- Everything granted to a tenant: its grants and the frames lent to it (R314, R322). -/
def State.grants (s : State) (dev fn : Nat) : Ranges := descGrants (s.desc dev fn) ++ (s.tenant dev fn).lent

/-- Do the ranges, together, hold the n bytes at a, the bytes lying in one range? -/
def coveredBy (rs : Ranges) (a n : Nat) : Bool := rs.any fun r => r.1 ≤ a && a + n ≤ r.1 + r.2

/-- Size of the HBM of a device. -/
def hbmBytes : Nat := 0x4800000000

/-- First local address of a die's draft index area (R193). -/
def draftIndexBase (die : Nat) : Nat := 0x4600000000 + die * 0x100000000

/-- The address lies in a device's window onto host memory (R193). -/
def hostWindow (a : Nat) : Bool := 2 ^ 48 ≤ a % 2 ^ 50 && a % 2 ^ 50 < 2 ^ 49

/-- The host port of a device: d0 carries it, and without d0 there is none (R2, R399). A device in reset keeps it for CXL.io and
MCTP. -/
def State.hostPort (s : State) (dev : Nat) : Bool := !(s.die (2 * dev)).lost

/-- The address lies in a device's far CXL memory (R193). -/
def farWindow (a : Nat) : Bool := 2 ^ 42 ≤ a % 2 ^ 50 && a % 2 ^ 50 < 2 ^ 43

/-- The address lies behind a port of a lost die: the host port stands on d0 alone and the far-memory port on d1 alone (R2, R399;
DEDUCED, log entry 73). -/
def State.portLost (s : State) (a : Nat) : Bool :=
  let d := paDevice a
  (hostWindow a && (s.die (2 * d)).lost) || (farWindow a && (s.die (2 * d + 1)).lost)

/-- Is the node-physical address populated (R193)? A lost die takes what lies behind its port with it. -/
def State.populated (s : State) (a : Nat) : Bool :=
  let d := paDevice a
  let l := a % 2 ^ 50
  s.node.contains d && !s.portLost a &&
    (l < hbmBytes || (farWindow a && l < 2 ^ 42 + (s.device d).farBytes) || hostWindow a || (spTile a).isSome)

/-- May a walk of the function reach the n bytes at a (R193, R314)? Another device's memory is judged against the tenant of the same
number there (R354; DEDUCED, log entry 30). The owner makes no grant check (R348). -/
def State.reachable (s : State) (fn a n : Nat) : Bool :=
  s.populated a && s.populated (a + n - 1) && (fn = 16 || coveredBy (s.grants (paDevice a) fn) a n)

/-- Translation root of a function on a die (R194, R313). -/
def State.root (s : State) (gdie fn : Nat) : Nat :=
  if gdie % 2 = 0 then descField (s.desc (gdie / 2) fn) 311 256 else descField (s.desc (gdie / 2) fn) 375 320

/-! ### The walk -/

/-- A walk that fails: cause, level, the entry read (R196, R210). -/
structure WalkFault where
  cause : BitVec 7
  level : Nat
  pte : Nat
  deriving DecidableEq, Repr, Inhabited

/-- What a walk finds: where the leaf entry lies, the entry, its level. -/
structure Leaf where
  addr : Nat
  pte : Nat
  level : Nat
  deriving DecidableEq, Repr, Inhabited

/-- Access kinds: 0 read, 1 write, 2 atomic (R210). -/
def pteAllows (pte access : Nat) : Bool :=
  match access with
  | 0 => pte.testBit 2
  | 1 => pte.testBit 3
  | _ => pte.testBit 2 && pte.testBit 3

/-- The frame or table a page-table entry names (R195). -/
def pteAddr (pte : Nat) : Nat := pte / 2 ^ 12 % 2 ^ 44 * 2 ^ 12

/-- Page size of a leaf's level (R194). -/
def pageSize (level : Nat) : Nat := if level = 1 then 2 ^ 16 else 2 ^ 25

/-- Is the entry malformed at its level (R196, second check)? -/
def pteMalformed (pte level : Nat) : Bool :=
  pte / 2 ^ 56 ≠ 0 || pte / 2 ^ 7 % 2 ^ 5 ≠ 0 || pte.testBit 4 ||
  (pte.testBit 1 && 3 ≤ level) || (!pte.testBit 1 && level = 1) ||
  (pte.testBit 1 && level = 2 && pteAddr pte % 2 ^ 25 ≠ 0) ||
  (pte.testBit 1 && level = 1 && pteAddr pte % 2 ^ 16 ≠ 0)

/-- What an access that no path can carry meets (DEDUCED, log entry 46). -/
def linkFault : WalkFault := { cause := 0x50, level := 0, pte := 0 }

/-- R194, from the table t at a level downward; `ok` is the check of R193 on (address, bytes), and `path` tells whether some
path carries the read of a table (R355). -/
def walkFrom (m : Memory) (ok : Nat → Nat → Bool) (path : Nat → Bool) (va access : Nat) : Nat → Nat → Except WalkFault Leaf
  | 0, _ => .error { cause := 0x20, level := 0, pte := 0 }
  | l + 1, t =>
    let addr := t + 8 * (va / 2 ^ (16 + 9 * l) % 512)
    let pte := m.num addr 8
    let no (c : BitVec 7) : Except WalkFault Leaf := .error { cause := c, level := l + 1, pte := pte }
    if !path addr then .error linkFault
    else if !pte.testBit 0 then no 0x20
    else if pteMalformed pte (l + 1) then no 0x20
    else if !ok (pteAddr pte) (if pte.testBit 1 then pageSize (l + 1) else 4096) then no 0x22
    else if pte.testBit 1 then
      if pteAllows pte access then .ok { addr := addr, pte := pte, level := l + 1 } else no 0x21
    else walkFrom m ok path va access l (pteAddr pte)

/-! ### Paths between devices (R353, R355) -/

/-- Directions of ports that are down. -/
def State.downLinks (s : State) : List Nat := (s.links.filter fun l => l.2.down).map Prod.fst

/-- No path carries what goes from one device to another. -/
def State.noPath (s : State) (a b : Nat) : Bool := a ≠ b && s.downLinks ≠ [] && !Config.linkPath s.downLinks a b

/-- R238 for a barrier named from a device: 0x50 where no path carries the update (R355). -/
def State.updateBarrier (s : State) (dev : Nat) (a : Dword) (u : BarUpdate) : Except (BitVec 7) State :=
  if s.noPath dev (paDevice (barrierPa a)) then .error 0x50 else s.barrierUpdate (barrierPa a) u

/-- The leaf of a VA of a function on a die; the root table itself must be reachable (R193; DEDUCED, log entry 15). -/
def State.findLeaf (s : State) (gdie fn va access : Nat) : Except WalkFault Leaf :=
  let root := s.root gdie fn
  if !s.reachable fn root 4096 then .error { cause := 0x22, level := 4, pte := 0 }
  else walkFrom s.mem (s.reachable fn) (fun a => !s.noPath (gdie / 2) (paDevice a)) va access 4 root

/-! ### Region control blocks (R317, R318) -/

/-- Bits [hi:lo] of a region control block. -/
def Rcb.field (r : Rcb) (hi lo : Nat) : Nat := r.bits.toNat / 2 ^ lo % 2 ^ (hi + 1 - lo)

/-- The node that governs a tile: the leaf that names it as leader, or the root (R318). -/
def Tenant.governing (x : Tenant) (tile : Nat) : Nat :=
  (x.rcbs.findIdx? fun r => r.field 7 0 = 1 && r.field 391 384 = tile % 160).getD 0

/-- A field's effective value: the parent's where the inherit bit is set (R317). A tree is at most eight deep. -/
def Tenant.effective (x : Tenant) (inherit hi lo : Nat) : Nat → Nat → Nat
  | 0, _ => 0
  | fuel + 1, node =>
    match x.rcbs[node]? with
    | none => 0
    | some r =>
      match r.parent with
      | some p => if r.field inherit inherit = 1 then x.effective inherit hi lo fuel p else r.field hi lo
      | none => r.field hi lo

/-- Effective tile budget of a node. -/
def Tenant.tbud (x : Tenant) (n : Nat) : Nat := x.effective 16 199 192 9 n
/-- Effective HBM budget of a node in 32 MiB units. -/
def Tenant.hbm (x : Tenant) (n : Nat) : Nat := x.effective 17 239 208 9 n
/-- Effective residency threshold of a node. -/
def Tenant.thresh (x : Tenant) (n : Nat) : Nat := x.effective 20 278 272 9 n
/-- Effective fault queue of a node. -/
def Tenant.faultq (x : Tenant) (n : Nat) : Nat := x.effective 21 355 304 9 n
/-- Effective handler tile of a node. -/
def Tenant.handler (x : Tenant) (n : Nat) : Nat := x.effective 21 295 288 9 n
/-- The priority of a tenant: its root's. -/
def Tenant.priority (x : Tenant) : Nat := x.effective 19 11 8 9 0
/-- The quantum of a tenant in µs: its root's; 0 stands for 2,000. -/
def Tenant.quantum (x : Tenant) : Nat :=
  let q := x.effective 24 271 256 9 0
  if q = 0 then 2000 else q

/-- The nodes from one up to the root. -/
def Tenant.pathUp (x : Tenant) : Nat → Nat → List Nat
  | 0, _ => []
  | fuel + 1, node =>
    match x.rcbs[node]? with
    | none => []
    | some r => node :: (match r.parent with
      | some p => x.pathUp fuel p
      | none => [])

/-! ### Working-set records -/

/-- A page enters its governing node's record at the walk that first reaches it, with history 0001 (R350). The owner
keeps no record (R413). -/
def State.wsEnter (s : State) (dev fn tile va size : Nat) : State :=
  if fn = 16 then s
  else
    let x := s.tenant dev fn
    let n := x.governing tile
    let ps := (mapGet x.ws n).getD []
    if ps.any fun p => p.va = va then s
    else s.setTenant dev fn { x with ws := mapSet x.ws n (ps ++ [{ va := va, size := size, history := 1 }]) }

/-- The cause with which the host's translation refuses an access to host memory (R395); none where it translates it. The
host decides (DESIGN CHOICE, log entry 57), but an owner walk meets 0x22 at an unpopulated address alone (R348). -/
def State.hostRefuses (s : State) (fn frame access : Nat) : Option (BitVec 7) :=
  if !hostWindow frame then none
  else match Config.ats s.tick frame access with
    | 0 => none
    | 1 => some 0x20
    | 2 => some 0x21
    | _ => some (if fn = 16 then 0x20 else 0x22)

/-- A walk (R194). One that ends at a leaf sets accessed, and dirty for a write or an atomic, in one atomic step (R197). A
page of host memory is also translated by the host, which may refuse it (R395). -/
def State.walk (s : State) (gdie fn va access : Nat) : State × Except WalkFault Leaf :=
  match s.findLeaf gdie fn va access with
  | .error f => (s, .error f)
  | .ok l =>
    let s : State := if hostWindow (pteAddr l.pte) then { s with tick := s.tick + 1 } else s
    match s.hostRefuses fn (pteAddr l.pte) access with
    | some c => (s, .error { cause := c, level := l.level, pte := l.pte })
    | none =>
      let pte := l.pte ||| 2 ^ 5 ||| (if access = 0 then 0 else 2 ^ 6)
      (s.machineWrite l.addr (toBytes pte 8), .ok l)

/-- What an address generator's translation comes to. -/
inductive Xlat where
  /-- the node-physical address and the latch that gave it -/
  | ok (s : State) (g : Age) (pa : Nat) (l : Latch)
  /-- the fault, and what the walk has done before it: the bits it set stay set (R197) -/
  | fault (s : State) (g : Age) (f : WalkFault)
  /-- every latch is named by an access in flight, or the page is under move (R323) -/
  | wait

/-- What a read or write of a run of virtual addresses comes to: done, with what it gives; the first VA that faults, after
what came before it; or a page under move, where nothing has been done (R323). -/
inductive VaResult (α : Type) where
  | ok (s : State) (a : α)
  | fault (s : State) (va : Nat) (f : WalkFault)
  | wait

/-- An access of a device has no way to an address: no path to its device (R355), or a port that is lost with its die
(DEDUCED, log entry 73). -/
def State.noWay (s : State) (dev pa : Nat) : Bool := s.noPath dev (paDevice pa) || s.portLost pa

/-- An access of an address generator of a die has its address: it goes there, or nothing carries it. -/
def State.carried (s : State) (gdie : Nat) (g : Age) (pa : Nat) (l : Latch) : Xlat :=
  if s.noWay (gdie / 2) pa then .fault s g linkFault else .ok s g pa l

/-! ### Latches -/

/-- The latch's page overlaps n bytes at a VA; no bytes overlap nothing (R212, R344). -/
def Latch.meets (l : Latch) (va n : Nat) : Bool := n ≠ 0 && l.va < va + n && va < l.va + l.size

/-- Does the latch serve the access (R200)? -/
def Latch.serves (l : Latch) (va access : Nat) : Bool :=
  !l.dropped && inRange l.va l.size va &&
    (match access with
     | 0 => l.r
     | 1 => l.w
     | _ => l.r && l.w)

/-- The lowest latch number not in use. -/
def Age.free (g : Age) : Option Nat :=
  (List.range 16).find? fun n => !g.latches.any fun l => l.num = n && !(l.dropped && l.refs = 0)

/-- Put a translation in a latch (R200): an empty latch if there is one, else the least recently used latch that no access
in flight names; none while every latch is named. -/
def Age.fill (g : Age) (new : Latch) : Option (Age × Latch) :=
  let victim := match g.free with
    | some n => some n
    | none => (g.latches.reverse.find? fun (l : Latch) => l.refs = 0).map Latch.num
  victim.map fun n =>
    let l := { new with num := n }
    ({ g with latches := l :: g.latches.filter fun k => k.num ≠ n }, l)

/-- Make a latch the most recently used. -/
def Age.touch (g : Age) (l : Latch) : Age :=
  { g with latches := l :: g.latches.filter fun k => k.num ≠ l.num }

/-- Is the page of a VA under move (R323)? -/
def Tenant.underMove (x : Tenant) (va : Nat) : Bool := x.moving.any fun m => inRange m.va m.size va

/-- R200 for one address: R192's check, a latch that serves, or a walk and a fill. `tile` governs the record. -/
def State.translate (s : State) (gdie fn tile : Nat) (g : Age) (va access : Nat) : Xlat :=
  if va ≥ 2 ^ 52 then .fault s g { cause := 0x20, level := 0, pte := 0 }
  else match g.latches.find? fun l => l.serves va access with
    | some l =>
      let s := if l.sampled then s.machineWrite l.leaf (toBytes (s.mem.num l.leaf 8 ||| 2 ^ 5) 8) else s
      let l := { l with sampled := false }
      s.carried gdie (g.touch l) (l.frame + (va - l.va)) l
    | none => if (s.tenant (gdie / 2) fn).underMove va then .wait else match s.walk gdie fn va access with
      | (s, .error f) => .fault s g f
      | (s, .ok lf) =>
        let size := pageSize lf.level
        let s' := s.wsEnter (gdie / 2) fn tile (va / size * size) size
        let new : Latch :=
          { num := 0, va := va / size * size, size := size, frame := pteAddr lf.pte, leaf := lf.addr
            r := lf.pte.testBit 2, w := access ≠ 0 && lf.pte.testBit 3, refs := 0, dropped := false, sampled := false }
        match g.fill new with
        | some (g', l) => s'.carried gdie g' (l.frame + (va - l.va)) l
        | none => .wait

/-! ### Where the address generators stand (DESIGN CHOICE, log entry 1) -/

/-- Kinds of address generator (R199). -/
def ageKind (n : Nat) : Nat := n / 2 ^ 32
/-- The unit of an address generator number. -/
def ageUnit (n : Nat) : Nat := n % 2 ^ 32

/-- First slots of the unit kinds (R122). -/
def slotE (n : Nat) : Nat := n
def slotL (n : Nat) : Nat := 256 + n
def slotA (n : Nat) : Nat := 264 + n
def slotM (n : Nat) : Nat := 280 + n
def slotN (n : Nat) : Nat := 296 + n
def slotAc (n : Nat) : Nat := 312 + n
def slotRo (n : Nat) : Nat := 328 + n
def slotCm (n : Nat) : Nat := 360 + n
def slotLt (n : Nat) : Nat := 363 + n

/-- An address generator's state. -/
def State.age (s : State) (n : Nat) : Age :=
  let u := ageUnit n
  match ageKind n with
  | 0 => ((s.tile (u / 16)).unitAt (slotA (u % 16))).age
  | 1 => (s.coreOf u).age
  | 2 => (s.tile u).portAge
  | 3 => (mapGet (s.die (u / 8)).engineAge (u % 8)).getD Age.reset
  | 4 => (mapGet (s.die (u / 2)).engineAge (8 + u % 2)).getD Age.reset
  | 5 => match mapGet s.contexts u with
    | some c => c.age
    | none => Age.reset
  | 6 => (s.tile u).array.age
  | _ => (s.tile u).ingressAge

/-- Replace an address generator's state. -/
def State.setAge (s : State) (n : Nat) (g : Age) : State :=
  let u := ageUnit n
  match ageKind n with
  | 0 => s.setUnit (u / 16) (slotA (u % 16)) { (s.tile (u / 16)).unitAt (slotA (u % 16)) with age := g }
  | 1 => s.setCore u { s.coreOf u with age := g }
  | 2 => s.setTile u { s.tile u with portAge := g }
  | 3 => s.setDie (u / 8) { s.die (u / 8) with engineAge := mapSet (s.die (u / 8)).engineAge (u % 8) g }
  | 4 => s.setDie (u / 2) { s.die (u / 2) with engineAge := mapSet (s.die (u / 2)).engineAge (8 + u % 2) g }
  | 5 => match mapGet s.contexts u with
    | some c => { s with contexts := mapSet s.contexts u { c with age := g } }
    | none => s
  | 6 => s.setTile u { s.tile u with array := { (s.tile u).array with age := g } }
  | _ => s.setTile u { s.tile u with ingressAge := g }

/-- The core's address generator of a tile. -/
def coreAge (t : Nat) : Nat := 2 ^ 32 + t
/-- Fabric address generator a of a tile. -/
def fabricAge (t a : Nat) : Nat := t * 16 + a
/-- The port address generator of a tile. -/
def portAgeNo (t : Nat) : Nat := 2 * 2 ^ 32 + t
/-- The address generator of copy engine n of a die. -/
def copyAge (gdie n : Nat) : Nat := 3 * 2 ^ 32 + gdie * 8 + n
/-- The address generator of layout engine n of a die. -/
def layoutAge (gdie n : Nat) : Nat := 4 * 2 ^ 32 + gdie * 2 + n
/-- The address generator of a graph walker context. -/
def walkerAge (ctx : Nat) : Nat := 5 * 2 ^ 32 + ctx
/-- The address generator of a tile's matrix array. -/
def matrixAge (t : Nat) : Nat := 6 * 2 ^ 32 + t
/-- The ingress address generator of a tile. -/
def ingressAgeNo (t : Nat) : Nat := 7 * 2 ^ 32 + t

/-! ### Fault records and fault domains -/

/-- The fields of a fault record (R210). -/
structure FaultFields where
  cause : BitVec 7
  tile : Nat
  unit : Nat
  kind : Nat
  access : Nat
  level : Nat
  ctxhi : Nat
  fn : Nat
  va : Nat
  count : Nat
  /-- i0 to i5 -/
  loops : List Nat
  pte : Nat
  deriving DecidableEq, Repr, Inhabited

/-- The tenant and owner fields, as five bits (R210, R337). -/
def fnField (fn : Nat) : Nat := if fn = 16 then 16 else fn % 16

/-- A fault record as its 512 bits (R210). -/
def ageRecord (f : FaultFields) : AgeRecord :=
  let loops := (List.range 6).foldl (fun n j => n + (f.loops[j]?.getD 0) % 2 ^ 32 * 2 ^ (32 * j)) 0
  BitVec.ofNat 512 <|
    f.cause.toNat + f.tile % 160 % 256 * 2 ^ 8 + f.unit % 16 * 2 ^ 16 + f.kind % 8 * 2 ^ 20 + f.access % 8 * 2 ^ 24 +
    f.level % 8 * 2 ^ 27 + f.ctxhi % 4 * 2 ^ 30 + fnField f.fn * 2 ^ 32 + f.va % 2 ^ 52 * 2 ^ 64 +
    f.count % 2 ^ 64 * 2 ^ 128 + loops * 2 ^ 192 + f.pte % 2 ^ 64 * 2 ^ 384

/-- The fault queue and the handler tile of a function for work governed by a tile (R338, R413). -/
def State.faultDomain (s : State) (dev fn tile : Nat) : Nat × Nat :=
  let x := s.tenant dev fn
  if fn = 16 then (descField x.desc 243 192, tile % 160)
  else
    let n := x.governing tile
    (x.faultq n, x.handler n)

/-- A write that the device makes at a VA on its own account: a record to a fault queue (R338), which then posts FAULTREC to
the handler's core, or a tenant's status (R313). Where the walk to it fails nothing is written, which the manual does not
treat (DEDUCED, log entry 16). A write to a page under move waits for the end of the move (R323). -/
def State.deviceWrite (s : State) (r : HeldWrite) : State :=
  let dev := r.gdie / 2
  if (s.tenant dev r.fn).underMove r.va then { s with heldWrites := s.heldWrites ++ [r] }
  else match s.walk r.gdie r.fn r.va 1 with
    | (s, .error _) => s
    | (s, .ok l) =>
      let s := s.writeM (pteAddr l.pte + r.va % pageSize l.level) r.data
      match r.notify with
      | none => s
      | some (h, k) => s.post (dev * 160 + h) 0x41 h (k % 2 ^ 32)

/-- A record goes to the fault domain (R338). -/
def State.postFault (s : State) (gdie fn tile : Nat) (r : AgeRecord) : State :=
  let dev := gdie / 2
  let (q, h) := s.faultDomain dev fn tile
  let x := s.tenant dev fn
  let k := (mapGet x.faults q).getD 0
  let s := s.setTenant dev fn { x with faults := mapSet x.faults q (k + 1) }
  s.deviceWrite { gdie := gdie, fn := fn, va := q + 64 * (k % 64), data := toBytes r.toNat 64, notify := some (h, k) }

/-- The writes of a device that waited for the end of a move are made, in order (R323). -/
def State.flushWrites (s : State) (dev : Nat) : State :=
  let due := s.heldWrites.filter fun r => r.gdie / 2 = dev
  due.foldl State.deviceWrite { s with heldWrites := s.heldWrites.filter fun r => r.gdie / 2 ≠ dev }

end Sys2Proof.Machine
end

