-- ==== Sys2Proof/Machine/Image.lean ====
section
/-! DEFINITION. Configuration slots (R122), the system state registers (R79 to R82), tile reset (R86, R122, R218) and
the tile image of the save area (R330, R331). -/

namespace Sys2Proof.Machine

/-! ### Slots -/

/-- What tile reset puts in a slot (R122): zero, but every channel map entry 0x3F. -/
def slotReset (n : Nat) : Slot128 :=
  if n = 360 || n = 361 then 0x3F3F3F3F3F3F3F3F3F3F3F3F3F3F3F3F#128
  else if n = 362 then 0x3F3F3F3F3F3F3F3F#128
  else 0

/-- The word in a slot. -/
def Tile.slot (x : Tile) (n : Nat) : Slot128 := (mapGet x.slots n).getD (slotReset n)

/-- Write a slot; a slot at its reset word is not listed. -/
def Tile.setSlot (x : Tile) (n : Nat) (w : Slot128) : Tile :=
  { x with slots := if w = slotReset n then mapErase x.slots n else mapSet x.slots n w }

/-- The channel map entry of an incoming channel (R149). -/
def Tile.chanEntry (x : Tile) (c : Nat) : Nat := ((x.slot (slotCm (c / 16))).extractLsb' (8 * (c % 16)) 8).toNat

/-! ### The tag table (R218) -/

/-- Bits [52:10] of entry s: valid above the tag. -/
def Tile.tag (x : Tile) (s : Nat) : BitVec 43 := (mapGet x.tags s).getD 0

/-- Write an entry; one that is all zero is not listed. -/
def Tile.setTag (x : Tile) (s : Nat) (e : BitVec 43) : Tile :=
  { x with tags := if e = 0 then mapErase x.tags s else mapSet x.tags s e }

/-- An entry marked not valid keeps its tag (R220). -/
def tagInvalid (e : BitVec 43) : BitVec 43 := (e.extractLsb' 0 42).setWidth 43

/-- The valid entry of a tag. -/
def tagEntry (g : BitVec 42) : BitVec 43 := (1 : BitVec 1) ++ g

/-! ### System state registers as software reads them -/

/-- ss.fpmode (R81). -/
def Core.fpmode (c : Core) : Dword := c.srgen ++ (0 : BitVec 23) ++ c.flags ++ BitVec.ofBool c.flush ++ c.rm
/-- ss.evmask (R82). -/
def Core.evmask (c : Core) : Dword := BitVec.ofBool c.lost ++ (0 : BitVec 47) ++ c.wake

/-- Set the fields of ss.mode as they are given (R80): an image may hold 11 in m or pm (R331; DESIGN CHOICE, log entry 78). -/
def Core.setMode (c : Core) (v : Dword) : Core :=
  { c with m := v.extractLsb' 0 2, pm := v.extractLsb' 2 2, ih := v.getLsbD 4 }
/-- Set the fields of ss.fpmode as an image holds them (R81, R331): values that no write places there, a zero srgen or a reserved rm,
stand as the image gives them (DESIGN CHOICE, log entry 78). -/
def Core.setFpmode (c : Core) (v : Dword) : Core :=
  { c with rm := v.extractLsb' 0 3, flush := v.getLsbD 3, flags := v.extractLsb' 4 5, srgen := v.extractLsb' 32 32 }
/-- Set the fields of ss.evmask as an image holds them (R82). -/
def Core.setEvmask (c : Core) (v : Dword) : Core := { c with wake := v.extractLsb' 0 16, lost := v.getLsbD 63 }

/-! ### Tile reset -/

/-- Tile reset of a tile of a function: the core idle with its registers at reset, ss.tenant among them, every slot, port and
tag entry at its reset value (R79, R86, R122, R218). The scratchpad keeps its bytes, and the tile its function. -/
def State.resetTile (s : State) (t fn : Nat) : State :=
  s.setTile t { Tile.reset with core := { Core.reset with fn := fnBits fn, view := { pb := [], sv := s.mem } } }

/-! ### The image (R330) -/

/-- Fill with zeros to n bytes. -/
def padTo (n : Nat) (bs : List Byte) : List Byte := bs ++ List.replicate (n - bs.length) 0

/-- The core runs or waits: status [0] of the core section. -/
def CoreRun.active : CoreRun → Bool
  | .running => true
  | .waiting _ => true
  | .idle => false
  | .stopped _ => false

/-- Actor a of the core section: 96 bytes. -/
def actorBytes (c : Core) (a : Nat) : List Byte :=
  match mapGet c.actors a with
  | none => List.replicate 96 0
  | some x => toBytes x.desc.toNat 16 ++ (x.saved.toList.flatMap fun v => toBytes v.toNat 8) ++ toBytes 1 16

/-- An entry of the stream command queue: the command words, then its number. -/
def queueBytes (cmds : Map Cmd) (n : Nat) : List Byte :=
  match mapGet cmds n with
  | none => List.replicate 32 0
  | some c => toBytes c.w0.toNat 4 ++ toBytes c.w1.toNat 4 ++ toBytes c.w2.toNat 4 ++ toBytes c.w3.toNat 4 ++ toBytes n 16

/-- The core section: 16 KiB. -/
def coreBytes (c : Core) (cmds : Map Cmd) : List Byte :=
  let regs := (List.range 32).flatMap fun r => toBytes (c.reg (BitVec.ofNat 5 r)).toNat 8
  let ss := [c.cause.toNat, c.fpc.toNat, c.fval.toNat, c.mode.toNat, c.fpmode.toNat, c.evmask.toNat, c.vcycle.toNat]
  let status := (if c.run.active then 1 else 0) + 4 * (if c.run.active then c.actor.getD 0 else 0)
  let a := padTo 0x200 (regs ++ toBytes c.pc.toNat 8 ++ toBytes (c.p.toNat ||| 1) 8 ++
    padTo 0x70 (ss.flatMap fun v => toBytes v 8) ++ toBytes status 8)
  let b := padTo 0x800 (a ++ (List.range 16).flatMap (actorBytes c))
  let d := padTo 0xA00 (b ++ c.events.flatMap fun v => toBytes v.toNat 8) ++ toBytes c.events.length 8
  let e := padTo 0x1000 (d ++ toBytes c.deque.length 8) ++ c.deque.flatMap (padTo 32)
  padTo 0x4000 (padTo 0x3000 e ++ c.queue.flatMap (queueBytes cmds))

/-- A token in place j of a port. -/
def tokenNum (k : Token) : Nat := k.data.toNat + k.kind.toNat * 2 ^ 32 + 2 ^ 63

/-- A port: 256 bytes, head at place 0. -/
def portBytes (ps : Map Port) (n : Nat) : List Byte :=
  padTo 256 (((mapGet ps n).map Port.q).getD [] |>.flatMap fun k => toBytes (tokenNum k) 8)

/-- Entry s of the tag table (R218). -/
def tagBytes (x : Tile) (s : Nat) : List Byte := toBytes ((x.tag s).toNat * 2 ^ 10) 8

/-- The parts of the image before the header: bytes 0 to 0x31_3FFF. -/
def imageFront (s : State) (t : Nat) (v : SavedTile) : List Byte :=
  s.mem.read (spBase t) 0x300000 ++
  padTo 0x2000 ((List.range 427).flatMap fun n => toBytes (v.tile.slot n).toNat 16) ++
  coreBytes v.tile.core v.cmds ++
  (List.range 3072).flatMap (tagBytes v.tile) ++
  (List.range 64).flatMap (portBytes v.tile.fi) ++ (List.range 64).flatMap (portBytes v.tile.fo)

/-- The implementation state of the image: the number under which the machine holds it (DESIGN CHOICE, log entry 14). -/
def imageBack (n : Nat) : List Byte := padTo 0x1BFC0 (toBytes n 8)

/-- Kinds of image. -/
def imageSoft : Nat := 0
def imageHard : Nat := 1
def imageFresh : Nat := 2

/-- The header: 64 bytes. -/
def imageHeader (t fn kind : Nat) (digest : BitVec 256) : List Byte :=
  toBytes (1 + kind * 2 ^ 16 + t % 160 * 2 ^ 24 + fnField fn * 2 ^ 32 + t / 160 * 2 ^ 40) 32 ++ toBytes digest.toNat 32

/-- The size of a tile image and of a device section. -/
def imageSize : Nat := 0x330000
def deviceSection : Nat := 0x10000

/-- The whole image of a tile saved under a number. -/
def imageBytes (s : State) (t fn kind n : Nat) (v : SavedTile) : List Byte :=
  let front := imageFront s t v
  let back := imageBack n
  front ++ imageHeader t fn kind (Config.sm3 (front ++ back)) ++ back

/-! ### Reading an image -/

/-- Bytes at an offset as a number. -/
def numAt (bs : List Byte) (off n : Nat) : Nat := ofBytes ((bs.drop off).take n)

/-- R331: the image fits the tile and the function it is restored to. -/
def imageOk (bs : List Byte) (t fn dev : Nat) : Bool :=
  let h := numAt bs 0x314000 32
  let kind := h / 2 ^ 16 % 4
  h % 2 ^ 16 = 1 && kind ≠ 3 && h / 2 ^ 24 % 256 = t % 160 && h / 2 ^ 32 % 32 = fnField fn &&
  (kind = imageFresh || BitVec.ofNat 256 (numAt bs 0x314020 32) = Config.sm3 (bs.take 0x314000 ++ bs.drop 0x314040)) &&
  (kind ≠ imageHard || h / 2 ^ 40 % 64 = dev)

/-- A token of a port's place; none where the place is not valid. -/
def tokenAt (v : Nat) : Option Token :=
  if v / 2 ^ 63 = 1 then some { kind := BitVec.ofNat 3 (v / 2 ^ 32), data := BitVec.ofNat 32 v } else none

/-- A port's tokens as the image gives them. -/
def portAt (bs : List Byte) (off : Nat) : List Token :=
  (List.range 32).filterMap fun j => tokenAt (numAt bs (off + 8 * j) 8)

/-- Put the ports of an image into a tile's ports, keeping what else a port holds. -/
def portsAt (bs : List Byte) (base : Nat) (old : Map Port) : Map Port :=
  (List.range 64).foldl (fun ps n =>
    let q := portAt bs (base + 256 * n)
    let p := (mapGet ps n).getD { q := [], taken := [], owners := [] }
    if q = [] && (mapGet ps n).isNone then ps else mapSet ps n { p with q := q }) old

/-- An actor of the core section. -/
def actorAt (bs : List Byte) (off : Nat) : Option Actor :=
  if numAt bs (off + 80) 1 % 2 = 1 then
    some { desc := BitVec.ofNat 128 (numAt bs off 16)
           saved := Vector.ofFn fun (i : Fin 8) => BitVec.ofNat 64 (numAt bs (off + 16 + 8 * i.val) 8) }
  else none

/-- The actor that fires in a core section's running program: status [5:2] names it. Field 0 of an image whose implementation
state says that no actor fires names none (R331; DEDUCED, log entry 72). -/
def firingAt (status : Nat) (fresh : Bool) (old : Option Nat) (actors : Map Actor) : Option Nat :=
  let a := status / 4 % 16
  if status % 2 = 1 && (mapGet actors a).isSome && (fresh || a ≠ 0 || old.isSome) then some a else none

/-- The core as the core section gives it; `c` holds what the section does not, and the events that came while its tile was
away. -/
def coreAt (bs : List Byte) (off : Nat) (fresh : Bool) (c : Core) : Core :=
  let d (o : Nat) : Dword := BitVec.ofNat 64 (numAt bs (off + o) 8)
  let status := numAt bs (off + 0x180) 8
  let c := ({ c with
    g := Vector.ofFn fun (i : Fin 32) => if i.val = 0 then 0 else d (8 * i.val)
    pc := BitVec.ofNat 48 (d 0x100).toNat
    p := BitVec.ofNat 8 ((d 0x108).toNat / 2 * 2)
    cause := BitVec.ofNat 7 (d 0x110).toNat, fpc := d 0x118, fval := d 0x120, vcycle := d 0x140 }).setMode (d 0x128)
  let c := (c.setFpmode (d 0x130)).setEvmask (d 0x138)
  let actors := (List.range 16).foldl (fun m a => match actorAt bs (off + 0x200 + 96 * a) with
    | some x => mapSet m a x
    | none => mapErase m a) c.actors
  let held := (List.range (min 64 (numAt bs (off + 0xA00) 8))).map fun i => d (0x800 + 8 * i)
  { c with
    run := match c.run with
      | .waiting (.relatch q r f n) => .waiting (.relatch q r f n)
      | _ => if status % 2 = 1 then .running else .idle
    actor := firingAt status fresh c.actor actors
    actors := actors
    events := (held ++ c.events).take 64
    lost := c.lost || decide (held.length + c.events.length > 64)
    deque := (List.range (min 256 (numAt bs (off + 0xA08) 8))).map fun i => (bs.drop (off + 0x1000 + 32 * i)).take 32 }

/-- The tag table as the image gives it. -/
def tagsAt (bs : List Byte) : Map (BitVec 43) :=
  (List.range 3072).filterMap fun s =>
    let e := BitVec.ofNat 43 (numAt bs (0x306000 + 8 * s) 8 / 2 ^ 10)
    if e = 0 then none else some (s, e)

/-- A saved address generator drops every latch; a stopped one keeps its record, and a token it holds counts as emerged
(R327, R329). -/
def Age.saved (g : Age) : Age := { g with latches := [], relatch := [] }

/-- A waiting instruction stops without effect and runs again (R326 step 1); a `relatch` keeps its place (R327). -/
def CoreRun.saved : CoreRun → CoreRun
  | .waiting (.relatch q r f n) => .waiting (.relatch q r f n)
  | .waiting _ => .running
  | r => r

/-- The tile as a save leaves it in the image (R326, R329). -/
def Tile.saved (x : Tile) : Tile :=
  { x with
    core := { x.core with run := x.core.run.saved, age := x.core.age.saved }
    units := x.units.map fun p => (p.1, { p.2 with age := p.2.age.saved })
    array := { x.array with age := x.array.age.saved }
    portAge := x.portAge.saved, ingressAge := x.ingressAge.saved }

/-! ### The tile of a function, where it stands or in what a save has taken away (R326) -/

/-- The key of a tile of a function. -/
def homeKey (fn t : Nat) : Nat := t * 32 + fn

/-- A tile of a function: as a save took it away, or as it stands. -/
def State.homeTile (s : State) (fn t : Nat) : Tile :=
  match (mapGet s.away (homeKey fn t)).bind (mapGet s.saved) with
  | some v => v.tile
  | none => s.tile t

/-- Change a tile of a function. -/
def State.setHomeTile (s : State) (fn t : Nat) (x : Tile) : State :=
  match mapGet s.away (homeKey fn t) with
  | some n => match mapGet s.saved n with
    | some v => { s with saved := mapSet s.saved n { v with tile := x } }
    | none => s.setTile t x
  | none => s.setTile t x

/-- The core of a function's tile. -/
def State.homeCore (s : State) (fn t : Nat) : Core := (s.homeTile fn t).core
/-- Change the core of a function's tile. -/
def State.setHomeCore (s : State) (fn t : Nat) (c : Core) : State := s.setHomeTile fn t { s.homeTile fn t with core := c }

/-- The core that issued a command takes a code (R251), wherever its tile is: `sdsave` and `sdload` outlive a save of it
(R307). -/
def State.impreciseTo (s : State) (fn t : Nat) (code : BitVec 7) (fval : Nat) : State :=
  let c := s.homeCore fn t
  s.setHomeCore fn t { c with imprecise := c.imprecise ++ [(code, BitVec.ofNat 64 fval)] }

/-- The key of the barrier that a report names, where a save has taken its tile away from the report's function. -/
def State.awayBarrier (s : State) (r : Completion) : Option Nat :=
  (spTile (barrierPa r.bar)).bind fun b => if (mapGet s.away (homeKey r.fn b)).isSome then some (homeKey r.fn b) else none

/-- A completion record is applied to its barrier (R237, R238), which waits in what a save has taken away until it comes back
(R307). A failing update is taken imprecisely by the core that issued the command, with the barrier address (R251). -/
def State.report (s : State) (r : Completion) : State :=
  if (s.awayBarrier r).isSome then { s with owed := s.owed ++ [r] }
  else match s.updateBarrier (deviceOf r.tile) r.bar
      { bytes := r.bytes, expect := r.expect, arrivals := r.arrivals, ranges := r.ranges } with
    | .ok s' => s'
    | .error code => s.impreciseTo r.fn r.tile code r.bar.toNat

/-- The reports that waited for barriers on tiles that have come back are applied, in order. -/
def State.payOwed (s : State) : State :=
  let due := s.owed.filter fun r => (s.awayBarrier r).isNone
  due.foldl State.report { s with owed := s.owed.filter fun r => (s.awayBarrier r).isSome }

/-! ### Restoring an image -/

/-- Every buffered agent's snapshot is M (R329). -/
def Tile.snapshot (x : Tile) (m : Memory) : Tile :=
  { x with
    core := { x.core with view := { x.core.view with sv := m } }
    units := x.units.map fun p => (p.1, { p.2 with view := { p.2.view with sv := m } }) }

/-- The tile that an image gives (R331): a soft or hard image on what the machine holds under its number, a fresh one on
tile reset. A fresh image's tag table and ports read as zero. -/
def tileAt (s : State) (bs : List Byte) (fn : Nat) : SavedTile :=
  let fresh := numAt bs 0x314002 1 % 4 = imageFresh
  let base : SavedTile :=
    if fresh then { tile := Tile.reset, cmds := [], region := none, run := [] }
    else (mapGet s.saved (numAt bs 0x314040 8)).getD { tile := Tile.reset, cmds := [], region := none, run := [] }
  let x := base.tile
  let x := (List.range 427).foldl
    (fun x n => Tile.setSlot x n (BitVec.ofNat 128 (numAt bs (0x300000 + 16 * n) 16))) x
  let x := if fresh then x else
    { x with tags := tagsAt bs, fi := portsAt bs 0x30C000 x.fi, fo := portsAt bs 0x310000 x.fo }
  let c := coreAt bs 0x302000 fresh x.core
  { base with tile := { x with core := { c with fn := fnBits fn, tenant := if c.run = .idle then c.tenant else fnBits fn } } }

/-- The scratchpad of a tile takes the image's bytes. -/
def State.restoreScratchpad (s : State) (t : Nat) (bs : List Byte) : State := s.writeM (spBase t) (bs.take 0x300000)

/-- R331: the tile, its commands and the region it led stand as the image gives them. -/
def State.restoreTile (s : State) (t fn : Nat) (bs : List Byte) : State :=
  let s := s.restoreScratchpad t bs
  let v := tileAt s bs fn
  let now := (s.die (dieOf t)).cycle
  let x := v.tile.snapshot s.mem
  let s := s.setTile t { x with ring := x.ring.map fun r => (r.1, now - r.2) }
  let s : State := { s with away := mapErase s.away (homeKey fn t) }
  let s : State := { s with cmds := v.cmds.foldl (fun m c => mapSet m c.1 c.2) s.cmds }
  let s := s.payOwed
  match v.region with
  | none => s
  | some r =>
    let phase : RegionPhase := match r.phase with
      | .slipping ss since => .slipping ss (now - since)
      | .waiting => .waiting
      | .held => .held
      | .running => .running
    { s with regions := mapSet s.regions t { r with beatStart := now - r.beatStart, phase := phase } }

/-- `sdsave` and `sdload` run on while their tile is away (R307). -/
def Cmd.isDraft (c : Cmd) : Bool :=
  match c.kind with
  | .sdsave _ _ => true
  | .sdload _ _ => true
  | .stream _ => false
  | .ctxsv _ _ _ => false
  | .ctxld _ _ => false
  | .tier _ => false

/-- A command as a save leaves it: one that a copy or layout engine carries gives the engine up, and keeps what the engine
held (R326 step 3, R329). -/
def State.suspend (s : State) (n : Nat) (c : Cmd) : Cmd :=
  let d := s.die (c.engine / 16)
  let e := c.engine % 16
  if c.stage = .running && c.engine < 2 ^ 20 && (mapGet d.engines e = some n || (mapGet d.layouts e).any fun l => l.cmd = n)
  then { c with stage := .suspended, layout := mapGet d.layouts e, ageStop := ((mapGet d.engineAge e).getD Age.reset).stopped }
  else c

/-- A region as a save leaves it: its pre-emption is over, and what its clock had counted is kept as a length. -/
def State.suspendRegion (s : State) (l : Nat) (r : Region) : Region :=
  let now := (s.die (dieOf l)).cycle
  { r with
    preempt := none, beatStart := now - r.beatStart
    phase := match r.phase with
      | .slipping ss since => .slipping ss (now - since)
      | .waiting => .waiting
      | .held => .held
      | .running => .running }

/-- What a save takes from a tile: itself, the commands its core issued, the region it leads. A command stalled at step 4
of R34 is issued again (R326). -/
def State.savedTile (s : State) (t : Nat) (run : List Nat) : SavedTile :=
  let x := (s.tile t).saved
  let now := (s.die (dieOf t)).cycle
  { tile := { x with ring := x.ring.map fun r => (r.1, now - r.2) }
    cmds := (s.cmds.filter fun c => c.2.tile = t && c.2.stage ≠ .stalled && !c.2.isDraft).map fun c =>
      (c.1, s.suspend c.1 c.2)
    region := (mapGet s.regions t).map (s.suspendRegion t), run := run }

/-- Hold a saved tile under the next number. Its events stand in the image. -/
def State.keepSaved (s : State) (v : SavedTile) : State × Nat :=
  let v := { v with tile := { v.tile with core := { v.tile.core with events := [] } } }
  ({ s with saved := mapSet s.saved s.nextSaved v, nextSaved := s.nextSaved + 1 }, s.nextSaved)

/-- The image bytes of a tile as it stands, with the machine holding its implementation state. -/
def State.takeImage (s : State) (t fn kind : Nat) (run : List Nat) : State × List Byte :=
  let v := s.savedTile t run
  let (s', n) := s.keepSaved v
  (s', imageBytes s t fn kind n v)

/-! ### Bytes at virtual addresses, as the tier engine moves them (R334) -/

/-- The node-physical address of a VA of a function by a walk that waits on a page under move (R323). A copy address generator
that serves a tile's command enters the page in the record of the node that governs the tile (R322, R334, R350); a walk of the
device's own has no tile and enters no record. -/
def State.vaWalk (s : State) (gdie fn : Nat) (gov : Option Nat) (va access : Nat) : VaResult Nat :=
  if va ≥ 2 ^ 52 then .fault s va { cause := 0x20, level := 0, pte := 0 }
  else if (s.tenant (gdie / 2) fn).underMove va then .wait
  else match s.walk gdie fn va access with
    | (s, .error f) => .fault s va f
    | (s, .ok l) =>
      let size := pageSize l.level
      let s := match gov with
        | some tile => s.wsEnter (gdie / 2) fn tile (va / size * size) size
        | none => s
      let pa := pteAddr l.pte + va % size
      if s.noWay (gdie / 2) pa then .fault s va linkFault else .ok s pa

/-- Write bytes at a VA of a function, page by page; `fuel` bounds the pages. -/
def State.writeVa (gdie fn : Nat) (gov : Option Nat) : Nat → State → Nat → List Byte → VaResult Unit
  | 0, s, _, _ => .ok s ()
  | fuel + 1, s, va, bs =>
    if bs = [] then .ok s ()
    else match s.vaWalk gdie fn gov va 1 with
      | .fault s va f => .fault s va f
      | .wait => .wait
      | .ok s pa =>
        let n := 2 ^ 16 - va % 2 ^ 16
        State.writeVa gdie fn gov fuel (s.writeM pa (bs.take n)) (va + n) (bs.drop n)

/-- Read n bytes at a VA of a function, page by page. -/
def State.readVa (gdie fn : Nat) (gov : Option Nat) : Nat → State → Nat → Nat → VaResult (List Byte)
  | 0, s, _, _ => .ok s []
  | fuel + 1, s, va, n =>
    if n = 0 then .ok s []
    else match s.vaWalk gdie fn gov va 0 with
      | .fault s va f => .fault s va f
      | .wait => .wait
      | .ok s pa =>
        let k := min n (2 ^ 16 - va % 2 ^ 16)
        match State.readVa gdie fn gov fuel s (va + k) (n - k) with
        | .fault s va f => .fault s va f
        | .wait => .wait
        | .ok s' r => .ok s' (s.mem.read pa k ++ r)

/-- Pages that a run of n bytes can touch. -/
def pagesOf (n : Nat) : Nat := n / 2 ^ 16 + 2

end Sys2Proof.Machine
end

