-- ==== Sys2Proof/Machine/Freeze.lean ====
section
/-! DEFINITION. Cause classes (R336, R342), the shard record (R337), tenant status (R313, R316, R339), the freeze of a
tenant and the stop and retirement of a region (R177, R336). -/

namespace Sys2Proof.Machine

/-- The classes of R336. -/
inductive CauseClass where
  | resume | region | tenant
  deriving DecidableEq, Repr

/-- The class of a cause code (R342). -/
def causeClass (c : BitVec 7) : CauseClass :=
  if c = 0x04 || c = 0x23 || c = 0x24 || c = 0x43 || c = 0x44 || c = 0x51 || c = 0x53 || c = 0x54 || c = 0x55 || c = 0x56
  then .tenant
  else if c = 0x17 || c = 0x18 || c = 0x1D || c = 0x30 || c = 0x31 || c = 0x36 || c = 0x50 then .region
  else .resume

/-- The data of an ERR token (R44). -/
def errWord (cause : BitVec 7) (tile unitKind index station : Nat) : Word :=
  cause ++ BitVec.ofNat 8 (tile % 160) ++ BitVec.ofNat 3 unitKind ++ BitVec.ofNat 8 index ++ BitVec.ofNat 6 station

/-- A cause of a shard record: word, low half of ss.cycle of d0, fval (R337). -/
structure ChainEntry where
  word : Word
  fval : Dword
  deriving DecidableEq, Repr, Inhabited

/-- A cause raised on a core of a tile; R44 has no unit kind for a core, so kind, index and station are zero
(DEDUCED, log entry 17). -/
def coreCause (t : Nat) (code : BitVec 7) (fval : Dword) : ChainEntry := { word := errWord code t 0 0 0, fval := fval }

/-- The shard record (R337), 512 bytes. -/
def shardRecord (cls fn : Nat) (tiles : List Nat) (cycle : Nat) (chain : List ChainEntry) : List Byte :=
  let bits := tiles.foldl (fun n t => n ||| 2 ^ (t % 160)) 0
  let held := chain.take 8
  let causes := (List.range 8).foldl (fun n i => match held[i]? with
    | some e => n + (e.word.toNat + cycle % 2 ^ 32 * 2 ^ 32 + e.fval.toNat * 2 ^ 64) * 2 ^ (128 * i)
    | none => n) 0
  toBytes (1 + fnField fn * 2 ^ 17 + cls * 2 ^ 22 + held.length * 2 ^ 24 + min 15 (chain.length - 8) * 2 ^ 28 +
    causes * 2 ^ 32 + bits * 2 ^ 1056) 512

/-- The images of tiles, one after another from a node-physical address. -/
def State.writeImages (fn kind : Nat) (run : List Nat) : State → Nat → List Nat → State
  | s, _, [] => s
  | s, a, t :: r =>
    let (s, bs) := s.takeImage t fn kind run
    State.writeImages fn kind run (s.writeM a bs) (a + imageSize) r

/-- A fatal event's record and images, in increasing tile order, in the shard record area, which is untranslated (R337). -/
def State.writeShard (s : State) (dev fn cls : Nat) (hit : List Nat) (chain : List ChainEntry) : State :=
  let base := descField (s.desc dev fn) 503 448
  let tiles := ((List.range 160).map (160 * dev + ·)).filter hit.contains
  let s := s.writeM base (shardRecord cls fn tiles (s.die (2 * dev)).cycle chain)
  State.writeImages fn imageHard tiles s (base + 0x1000) tiles

/-! ### Tenant status -/

/-- The state code of the status field (R313). -/
def TenantState.code : TenantState → Nat
  | .absent => 0
  | .ready => 1
  | .running => 2
  | .stopped => 3
  | .fatal => 4

/-- The status doubleword of a descriptor. -/
def Tenant.status (x : Tenant) : Nat := x.state.code + x.lastCause.toNat * 2 ^ 8 + x.stopSeq.toNat * 2 ^ 32

/-- Status is stored in the descriptor, which lies at the owner VA table base + 256 × tenant (R313). -/
def State.writeStatus (s : State) (dev fn : Nat) : State :=
  s.deviceWrite { gdie := 2 * dev, fn := 16, va := (s.device dev).table + 256 * fn + 248
                  data := toBytes (s.tenant dev fn).status 8, notify := none }

/-- A tenant takes a state and its status is written (R316). -/
def State.setTenantState (s : State) (dev fn : Nat) (st : TenantState) : State :=
  (s.setTenant dev fn { s.tenant dev fn with state := st }).writeStatus dev fn

/-- May the function's units, engines and walkers act? Not while its tenant is READY, STOPPED or FATAL (R316). -/
def State.mayRun (s : State) (dev fn : Nat) : Bool :=
  match (s.tenant dev fn).state with
  | .absent => true
  | .running => true
  | .ready => false
  | .stopped => false
  | .fatal => false

/-- The tiles a function holds on a device: a tenant's tile set; for the owner, the tiles whose core runs for it. -/
def State.tilesOf (s : State) (dev fn : Nat) : List Nat :=
  ((List.range 160).filter fun t =>
    if fn = 16 then (s.coreOf (dev * 160 + t)).fn.getLsbD 4 else s.ownsTile dev fn t).map fun t => dev * 160 + t

/-! ### Giving up commands -/

/-- Engines give up the commands that p picks, with what their address generators hold. -/
def State.freeEngines (s : State) (p : Nat → Bool) : State :=
  { s with dies := s.dies.map fun d =>
      let had (n : Nat) : Bool := (mapGet d.2.engines n).any p || (mapGet d.2.layouts n).any fun l => p l.cmd
      let ages := d.2.engineAge.filter fun a => !had a.1
      let layouts := d.2.layouts.filter fun e => !p e.2.cmd
      (d.1, { d.2 with engines := d.2.engines.filter fun e => !p e.2, layouts := layouts, engineAge := ages }) }

/-- A draft slot that a command was loading keeps its old state; one that it has installed is no longer its (R309). -/
def State.endLoading (s : State) (c : Cmd) : State :=
  match c.kind with
  | .sdload g n => if c.stage = .complete then s else s.setDie g { s.die g with draft := (s.die g).draft.map fun x =>
      if x.1 = n then (n, { x.2 with loading := false }) else x }
  | .sdsave _ _ => s
  | .stream _ => s
  | .ctxsv _ _ _ => s
  | .ctxld _ _ => s
  | .tier _ => s

/-- The commands that p picks leave the machine and their engines, and the draft slots that they were loading. -/
def State.dropCmds (s : State) (p : Nat → Cmd → Bool) : State :=
  let gone := (s.cmds.filter fun c => p c.1 c.2).map Prod.fst
  let s := s.cmds.foldl (fun (s : State) c => if gone.contains c.1 then s.endLoading c.2 else s) s
  let s := { s with cmds := s.cmds.filter fun c => !gone.contains c.1 }
  s.freeEngines gone.contains

/-- The completion records that p picks are dropped, and what waits for a tile to come back among them: they report nothing. -/
def State.dropReports (s : State) (p : Completion → Bool) : State :=
  { s with
    owed := s.owed.filter fun r => !p r
    dies := s.dies.map fun d =>
      (d.1, { d.2 with cq := (d.2.cq.map fun q => (q.1, q.2.filter fun r => !p r)).filter fun q => q.2 ≠ [] }) }

/-- A function's commands on a device are cancelled: they leave the machine and report nothing (R333, R339). -/
def State.cancelCmds (s : State) (dev fn : Nat) : State :=
  (s.dropCmds fun _ c => c.fn = fn && deviceOf c.tile = dev).dropReports fun r => r.fn = fn && deviceOf r.tile = dev

/-- A core stops for good. -/
def State.stopCore (s : State) (t : Nat) (code : BitVec 7) : State :=
  s.setCore t { s.coreOf t with run := .stopped code }

/-! ### Retirement and the stop of a region -/

/-- The completion word (R177). -/
def completionWord (beats : Nat) (cause : BitVec 7) (err : Bool) (flags : BitVec 5) : Nat :=
  1 + flags.toNat * 2 ^ 8 + (if err then 2 ^ 16 else 0) + cause.toNat * 2 ^ 17 + min beats (2 ^ 32 - 1) * 2 ^ 32

/-- A generator whose stream has ended: it has taken every RELATCH token that it still held, and no handle names a latch that
one has dropped (R212). -/
def Age.settled (g : Age) : Age :=
  { latches := g.latches.filter fun l => !l.dropped && !g.relatch.any fun q => l.meets q.2.1 q.2.2
    stopped := none, relatch := [] }

/-- A unit's tokens in flight are discarded, its bindings dropped and a delay emptied (R140, R177, R203). -/
def UnitState.discard (u : UnitState) : UnitState :=
  { u with out := [], taken := [], routed := false, buf := [], held := none, bindings := [], count := 0, drain := false
           age := u.age.settled }

/-- Everything in flight in a tile's fabric is discarded, values that wait in the argument network among it (R177;
DESIGN CHOICE, log entry 79); the slots, the ports and the accumulators' values stay. -/
def Tile.discard (x : Tile) : Tile :=
  { x with units := x.units.map fun p => (p.1, p.2.discard), chanIn := [], chanOut := [], argNet := [], live := none
           array := { x.array with lanes := [] } }

/-- The memory nodes of a region drain (R229). -/
def State.drainNodes (s : State) (tiles : List Nat) : State :=
  tiles.foldl (fun s t => (List.range 16).foldl (fun s m =>
    if (mapGet (s.tile t).units (slotM m)).isSome then s.drainNode t (slotM m) 4 else s) s) s

/-- The memory nodes of a region refresh (R229). -/
def State.refreshNodes (s : State) (tiles : List Nat) : State :=
  tiles.foldl (fun s t => (List.range 16).foldl (fun s m =>
    if (mapGet (s.tile t).units (slotM m)).isSome then s.refreshUnit t (slotM m) 4 else s) s) s

/-- A region's tiles are no longer live, and it leaves the machine with the bindings of its address generators (R203). -/
def State.releaseRegion (s : State) (leader : Nat) : State :=
  match mapGet s.regions leader with
  | none => s
  | some r =>
    let s := r.tiles.foldl (fun s t => s.setTile t (s.tile t).discard) s
    let bound (c : Cmd) : Bool := c.kind = .stream 0x03 && c.stage = .running && r.tiles.contains c.tile
    { s with regions := mapErase s.regions leader, cmds := s.cmds.filter fun c => !bound c.2 }

/-- The context of a graph learns that a region of its node has retired (R282, R287). -/
def State.graphRetire (s : State) (graph : Option (Nat × Nat)) (err : Bool) : State :=
  match graph with
  | none => s
  | some (ctx, node) => match mapGet s.contexts ctx with
    | none => s
    | some g =>
      let g := { g with regions := mapSet g.regions node (if err then GraphRegion.failed else .retired) }
      { s with contexts := mapSet s.contexts ctx g }

/-- Steps 2 to 4 of R177: the completion word, the tiles not live, RETIRE. -/
def State.closeRegion (s : State) (leader : Nat) (word : Nat) : State :=
  match mapGet s.regions leader with
  | none => s
  | some r =>
    let s := s.graphRetire r.graph (word.testBit 16)
    let s := s.writeM (spBase leader + r.cword) (toBytes word 8)
    (s.releaseRegion leader).post leader 0x14 0 (word % 2 ^ 24)

/-- Retirement (R177): the memory nodes drain in the step that stores the completion word (R246). -/
def State.retire (s : State) (leader : Nat) : State :=
  match mapGet s.regions leader with
  | none => s
  | some r =>
    (s.drainNodes r.tiles).closeRegion leader (completionWord r.beats (r.err.getD 0) r.err.isSome r.flags)

/-- A Region fault stops a region (R336): its tiles' images go to the shard record, a record goes to the fault domain,
and the completion word is stored as a release, with the cause (R246; DEDUCED, log entry 35). -/
def State.stopRegion (s : State) (leader : Nat) (cause : BitVec 7) (fval : Dword) : State :=
  match mapGet s.regions leader with
  | none => s
  | some r =>
    let dev := deviceOf leader
    let s := s.writeShard dev r.fn 1 r.tiles [{ word := errWord cause leader 0 0 0, fval := fval }]
    let s := s.postFault (dieOf leader) r.fn leader
      (ageRecord { (default : FaultFields) with cause := cause, tile := leader, fn := r.fn, va := 0 })
    (s.drainNodes r.tiles).closeRegion leader (completionWord r.beats cause true r.flags)

/-! ### The freeze of a tenant -/

/-- A view whose phase buffer has gone into an image (R329, R339). -/
def View.emptied (v : View) : View := { v with pb := [] }

/-- A tile whose buffered agents have given their phase buffers to an image, and which holds no live region. -/
def Tile.halted (x : Tile) : Tile :=
  { x with
    live := none
    core := { x.core with view := x.core.view.emptied }
    units := x.units.map fun p => (p.1, { p.2 with view := p.2.view.emptied, age := p.2.age.settled }) }

/-- A tenant's work leaves the machine: its cores stop, its regions, commands and phase buffers stand in the images only, and no
report of its commands reaches a barrier any more (R328, R339 step 1). -/
def State.haltTenant (s : State) (dev fn : Nat) (tiles : List Nat) (code : BitVec 7) : State :=
  let s := tiles.foldl (fun s t => s.stopCore t code) s
  let s := { s with regions := s.regions.filter fun r => !(r.2.fn = fn && deviceOf r.1 = dev) }
  let s := tiles.foldl (fun s t => s.setTile t (s.tile t).halted) s
  s.cancelCmds dev fn

/-- A Tenant fault (R336): the tenant is frozen hard, the shard record is written and then status, with state FATAL. A
tenant that is ABSENT has nothing to freeze but its cores (R316). -/
def State.freezeTenant (s : State) (dev fn : Nat) (code : BitVec 7) (chain : List ChainEntry) : State :=
  let tiles := if fn = 16 || (s.tenant dev fn).state = .running then s.tilesOf dev fn else []
  if (s.tenant dev fn).state = .absent && fn ≠ 16 then s.haltTenant dev fn tiles code
  else
    let s := s.writeShard dev fn 2 tiles chain
    let s := s.haltTenant dev fn tiles code
    let x := s.tenant dev fn
    let s := { s with strikes := s.strikes ++ [(dev, 2, fn)] }
    s.setTenant dev fn { x with lastCause := code, stopSeq := x.stopSeq + 1 } |>.setTenantState dev fn .fatal

end Sys2Proof.Machine
end

