-- ==== Sys2Proof/Machine/Ops.lean ====
section
/-! DEFINITION. What every scalar instruction shares: the guard and the pc (R84, R85), taking an exception (R87, R336)
and returning from one (R98), the checks on scratchpad and barrier addresses (R110, R235), fetching (R23, R24, R231), and
when a core stands, so that no wait of it ends (R3, R315, R326, R408, R409). -/

namespace Sys2Proof.Machine

/-- What a meaning answers. -/
abbrev Out := Host.Outcome State Fault Refusal

/-! ### Which cores go on -/

/-- The core of a tile stands at an instruction boundary for a save: its tenant's, or that of the region on the tile
(R326). -/
def State.standsForSave (s : State) (t : Nat) : Bool :=
  (s.tenant (deviceOf t) (fnOf (s.coreOf t).fn)).leaving ||
  (match s.regionOf t with
   | some (_, r) => r.preempt.isSome
   | none => false)

/-- The core of a tile completes no instruction, waits on in one that it waits in, and fires no actor: a debugger holds it (R409), it
is about to be saved (R326), its tile is disabled or its die's clock does not run (R3, R352, R406, R408), or it is the owner's on a
tile that a RUNNING tenant holds (R315). -/
def State.coreStands (s : State) (t : Nat) : Bool :=
  (s.coreOf t).held || s.tileStops t || s.standsForSave t || (fnOf (s.coreOf t).fn = 16 && s.tenantOn t)

/-- What the core of a tile waits in, where the wait may end: none of a core that does not wait or that stands. -/
def State.waitOf (s : State) (t : Nat) : Option Wait :=
  if s.coreStands t then none
  else match (s.coreOf t).run with
    | .waiting w => some w
    | .idle => none
    | .running => none
    | .stopped _ => none

/-! ### Guard and pc -/

/-- Guard() of R20: p[guard] xor gn. -/
def Core.guardHolds (c : Core) (gn : Bool) (guard : BitVec 3) : Bool := c.pred guard != gn

/-- The core that has retired an instruction of `len` bytes: the pc moves past it (R78, R347 counter 0x100). -/
def Core.advance (c : Core) (len : Nat) : Core := { c with pc := c.pc + BitVec.ofNat 48 len, retired := c.retired + 1 }

/-- The core that has retired a control transfer to a target (R78). -/
def Core.jump (c : Core) (target : BitVec 48) : Core := { c with pc := target, retired := c.retired + 1 }

/-- The core whose turn it is moves past its instruction. -/
def State.advance (s : State) (len : Nat) : State := s.withCore (s.core.advance len)

/-- The instruction is done: the next state has the pc behind it. -/
def finish (s : State) (len : Nat) : Out := .next (s.advance len)

/-- R85: a false guard only advances the pc; else the instruction goes on. -/
def guarded (gn : Bool) (guard : BitVec 3) (len : Nat) (s : State) (go : State → Out) : Out :=
  if s.core.guardHolds gn guard then go s else finish s len

/-- Write g[d] and finish. -/
def writeReg (s : State) (d : BitVec 5) (v : Dword) (len : Nat) : Out := finish (s.withCore (s.core.setReg d v)) len

/-- Write p[i] and finish. -/
def writePred (s : State) (i : BitVec 3) (v : Bool) (len : Nat) : Out := finish (s.withCore (s.core.setPred i v)) len

/-- The pc as 64 bits. -/
def Core.pc64 (c : Core) : Dword := c.pc.setWidth 64

/-! ### Taking an exception -/

/-- R87: the core enters the trap handler. -/
def Core.enterHandler (c : Core) (code : BitVec 7) (fpc fval : Dword) : Core :=
  { c with cause := code, fpc := fpc, fval := fval, pm := c.m, m := if c.m = 0 then 1 else c.m, ih := true, pc := 0
           run := .running }

/-- A code raised while ss.mode.ih = 1 (R87, R336): the core stops with 0x04 DOUBLE_FAULT, its tenant is frozen, and the
chain holds 0x04, the cause that the handler ran for, and the new one (DEDUCED, log entry 17). -/
def State.doubleFault (s : State) (t : Nat) (code : BitVec 7) (fval : Dword) : State :=
  let c := s.coreOf t
  let chain := [coreCause t 0x04 fval, coreCause t c.cause c.fval, coreCause t code fval]
  (s.freezeTenant (deviceOf t) (fnOf c.fn) 0x04 chain).stopCore t 0x04

/-- A core raises a code (R87, R336): class Resume enters the handler; class Region stops the core and sends a record of
kind 1 to its fault domain, with ss.fval as the faulting address (R210, R355); class Tenant freezes the tenant. `access` is
the kind of the access that failed, if one did. -/
def State.takeTrap (s : State) (t : Nat) (code : BitVec 7) (fpc fval : Dword) (access : Nat := 0) : State :=
  let c := s.coreOf t
  if c.ih then s.doubleFault t code fval
  else match causeClass code with
    | .resume => s.setCore t (c.enterHandler code fpc fval)
    | .region =>
      (s.postFault (dieOf t) (fnOf c.fn) t
        (ageRecord { (default : FaultFields) with
          cause := code, tile := t, kind := 1, access := access, fn := fnOf c.fn, va := fval.toNat })).stopCore t code
    | .tenant => (s.freezeTenant (deviceOf t) (fnOf c.fn) code [coreCause t code fval]).stopCore t code

/-- The instruction raises a code, with ss.fpc its own address (R87). -/
def raise (s : State) (code : BitVec 7) (fval : Dword) (access : Nat := 0) : Out :=
  .next (s.takeTrap s.cur code s.core.pc64 fval access)

/-- A free value, and the count of those taken (DESIGN CHOICE, log entry 2). -/
def State.free (s : State) : State × Dword := ({ s with tick := s.tick + 1 }, Config.freeDword s.tick)

/-- A key that Isatar draws: a free value. -/
def State.freshKey (s : State) : State × BitVec 128 :=
  ({ s with tick := s.tick + 2 }, Config.freeDword s.tick ++ Config.freeDword (s.tick + 1))

/-- The instruction raises a code for which the manual names no ss.fval: a free value (DEDUCED, log entry 25). -/
def raiseOpen (s : State) (code : BitVec 7) : Out := raise s.free.1 code s.free.2

/-- R31 step 6: a mode that does not suffice raises 0x03, ss.fval the first word (DEDUCED, log entry 53),
whether the guard holds or not. -/
def privileged (first : Word) (s : State) (go : State → Out) : Out :=
  if s.core.user then raise s 0x03 (first.setWidth 64) else go s

/-- Trap with the first failing check of a list: (fails, code, ss.fval). -/
def checks (s : State) : List (Bool × BitVec 7 × Dword) → (State → Out) → Out
  | [], go => go s
  | (bad, code, fval) :: r, go => if bad then raise s code fval else checks s r go

/-- Trap with the first failing check, for causes whose ss.fval no rule names (DEDUCED, log entry 25). -/
def checksOpen (s : State) : List (Bool × BitVec 7) → (State → Out) → Out
  | [], go => go s
  | (bad, code) :: r, go => if bad then raiseOpen s code else checksOpen s r go

/-! ### Returning from an exception -/

/-- R98. -/
def Core.returnFromTrap (c : Core) : Core := { c with pc := c.fpc.setWidth 48, m := c.pm, ih := false, retired := c.retired + 1 }

/-! ### Address checks -/

/-- The checks of R110 for n bytes at an effective address, in order; ss.fval holds ea modulo 2^64. -/
def localChecks (c : Core) (ea : Int) (n : Nat) : List (Bool × BitVec 7 × Dword) :=
  [(ea % n ≠ 0, 0x05, toDword ea),
   (ea < 0 || ea + n - 1 > spLast, 0x06, toDword ea),
   (c.user && ea < supervisorArea, 0x03, toDword ea)]

/-- Does the barrier address name what the function may not (R235, second check)? -/
def State.barrierForeign (s : State) (fn : Nat) (a : Dword) : Bool :=
  a.toNat / 2 ^ 36 ≠ 0 || a.toNat / 2 ^ 22 % 256 > 159 || a.toNat % 2 ^ 22 > 0x2FFFF0 ||
  !s.node.contains (a.toNat / 2 ^ 30 % 64) || !s.ownsTile (a.toNat / 2 ^ 30 % 64) fn (a.toNat / 2 ^ 22 % 256)

/-- The checks of R235 on a barrier address, in order; ss.fval holds it. -/
def State.barrierChecks (s : State) (c : Core) (a : Dword) : List (Bool × BitVec 7 × Dword) :=
  [(a.toNat % 16 ≠ 0, 0x05, a),
   (s.barrierForeign (fnOf c.fn) a, 0x28, a),
   (c.user && a.toNat % 2 ^ 22 < supervisorArea, 0x03, a)]

/-! ### The scratchpad as a core's view gives it (R112, R227) -/

/-- The number of n bytes at a plain scratchpad address of the core's tile. -/
def State.loadLocal (s : State) (a n : Nat) : Nat := s.viewNum s.core.view (spBase s.cur + a) n

/-- Bytes at a plain scratchpad address. -/
def State.readLocal (s : State) (a n : Nat) : List Byte := s.viewRead s.core.view (spBase s.cur + a) n

/-- The window of a tile's `sring` that has moved and whose report has not reached its barrier, nor, without one, the command
its completion (R224): its first byte and its length. -/
def State.ringFlux (s : State) (t : Nat) : Option (Nat × Nat) :=
  let cmds := s.cmds.filterMap fun c =>
    if c.2.tile = t && c.2.kind = .stream 0x0E && c.2.stage = .complete then c.2.ranges.head? else none
  let records := ((mapGet (s.die (dieOf t)).cq (portEngine t)).getD []).filterMap fun r =>
    if r.ring then r.ranges.head? else none
  (cmds ++ records).head?

/-- A local store to bytes of a window that the ring is moving (R224): a free value says whether it enters the rotation, and so
stands in the next tile's window if that has not been reported, or is overwritten by it (DESIGN CHOICE, log entry 2). The core
then reads over those bytes what the rotation has brought. -/
def State.storeRing (s : State) (cells : List Host.Cell) : State :=
  let next := s.cur / 8 * 8 + (s.cur + 1) % 8
  let enters := (Config.freeDword s.tick).getLsbD 0 && (s.ringFlux next).isSome
  let moved := cells.map fun c => (spBase next + (c.1 - spBase s.cur), c.2)
  let s := { s with tick := s.tick + 1 }
  let s := if enters then s.writeCells moved else s
  s.withCore { s.core with view := refreshView s.mem s.core.view fun x => cells.any fun c => c.1 = x }

/-- A store of bytes to a plain scratchpad address. -/
def State.storeLocal (s : State) (a : Nat) (bs : List Byte) : State :=
  match s.ringFlux s.cur with
  | none => s.withCore { s.core with view := s.core.view.store (spBase s.cur + a) bs }
  | some (w, n) =>
    let cells := bs.mapIdx fun i b => (spBase s.cur + a + i, b)
    let s := s.withCore { s.core with view := s.core.view.storeCells (cells.filter fun c => !inRange w n c.1) }
    let inside := cells.filter fun c => inRange w n c.1
    if inside = [] then s else s.storeRing inside

/-- Does a load of n bytes touch an absent word of a bound write-once buffer of the tile (R362)? A byte that the core's
own buffer holds is not read from the word. -/
def State.loadAbsent (s : State) (a n : Nat) : Bool :=
  (List.range n).any fun i =>
    s.woAbsent (spBase s.cur + a + i) && (lastEntry s.core.view.pb (spBase s.cur + a + i)).isNone

/-- A load waits for an absent word: the pc stays, and `WRITE_ONCE_READ_RESUME` completes it (R362). -/
def wait (s : State) (w : Wait) : Out := .next (s.withCore { s.core with run := .waiting w })

/-! ### Fetching (R23, R24, R31 steps 1 and 2, R231) -/

/-- What a fetch comes to: the words, or a code and ss.fval. -/
inductive Fetched where
  | words (w x y z : Word)
  | fails (code : BitVec 7) (fval : Dword)
  deriving DecidableEq, Repr

/-- The word at a plain scratchpad address as the core of a tile fetches it (R231). -/
def State.fetchWord (s : State) (t a : Nat) : Word := BitVec.ofNat 32 (s.viewNum (s.coreOf t).view (spBase t + a) 4)

/-- The first address of an instruction of n words at pc that lies beyond the scratchpad. -/
def fetchBeyond (pc n : Nat) : Option Nat := ((List.range n).map fun i => pc + 4 * i).find? fun a => a > spLast - 3

/-- Fetch the instruction at the pc of a tile's core. -/
def State.fetch (s : State) (t : Nat) : Fetched :=
  let pc := (s.coreOf t).pc.toNat
  if pc % 4 ≠ 0 then .fails 0x05 (BitVec.ofNat 64 pc)
  else if pc > spLast then .fails 0x06 (BitVec.ofNat 64 pc)
  else
    let w := s.fetchWord t pc
    match fetchBeyond pc (wordCount w) with
    | some a => .fails 0x06 (BitVec.ofNat 64 a)
    | none => .words w (s.fetchWord t (pc + 4)) (s.fetchWord t (pc + 8)) (s.fetchWord t (pc + 12))

/-- The cause of a word that the decoder rejects (R31). -/
def decodeCause : DecodeError → BitVec 7
  | .illegalOp => 0x01
  | .illegalForm => 0x02
  | .streamCmd => 0x10
  | .portRange => 0x11
  | .elementCfg => 0x12
  | .layoutProgram => 0x33

end Sys2Proof.Machine
end

