-- ==== Sys2Proof/Machine/Operands.lean ====
section
/-! DEFINITION. Operand forms: the second source Bv of each form (R28, R89), the size and overflow modifiers (R30), the
reading and the result of an integer op (R89), effective addresses (R108, R110) and branch targets (R90). -/

namespace Sys2Proof.Machine

/-- Bytes of an instruction of forms A, B, C and of a stream command (R23). -/
def lenA : Nat := 4
def lenB : Nat := 8
def lenC : Nat := 12
def lenStream : Nat := 16

/-- imm16 extended to 64 bits (R28): by zero for the ops that R28 lists, else by sign. -/
def imm16 (zext : Bool) (v : BitVec 16) : Dword := if zext then v.setWidth 64 else v.signExtend 64

/-- lit32 extended to 64 bits (R28). -/
def lit32 (zext : Bool) (v : Word) : Dword := if zext then v.setWidth 64 else v.signExtend 64

/-- The width W that a size modifier gives (R30, R89). -/
def sizeWidth (sub : BitVec 3) : Nat := if sub.getLsbD 0 then 32 else 64

/-- σ = s: the size is `.s64` or `.s32` (R30, R89). -/
def sizeSigned (sub : BitVec 3) : Bool := !sub.getLsbD 1

/-- The overflow modifier is `.sat` (R30). -/
def sizeSat (sub : BitVec 3) : Bool := sub.getLsbD 2

/-- Rd of R89 on an integer. -/
def rd (signed : Bool) (w : Nat) (x : Int) : Int :=
  let u := (x % (2 : Int) ^ w).toNat
  if signed then signExt u w else (u : Int)

/-- The range of R89. -/
def rangeLo (signed : Bool) (w : Nat) : Int := if signed then -(2 : Int) ^ (w - 1) else 0
def rangeHi (signed : Bool) (w : Nat) : Int := if signed then (2 : Int) ^ (w - 1) - 1 else (2 : Int) ^ w - 1

/-- Clamp to lo to hi. -/
def clampInt (lo hi x : Int) : Int := max lo (min hi x)

/-- The exact result of an integer op: width, A, B and the shift count n (R99). -/
abbrev Exact := Nat → Int → Int → Nat → Int

/-- R89: read the sources, compute exactly, saturate if asked, and read the result by the size. `reading` is the reading
that the op's row fixes, if any: true for signed. -/
def intResult (reading : Option Bool) (f : Exact) (sub : BitVec 3) (a b : Dword) : Dword :=
  let w := sizeWidth sub
  let σ := sizeSigned sub
  let r := reading.getD σ
  let x := f w (rd r w a.toNat) (rd r w b.toNat) (b.toNat % w)
  let x := if sizeSat sub then clampInt (rangeLo σ w) (rangeHi σ w) x else x
  toDword (rd σ w x)

/-- An integer op in form A. -/
def intA (reading : Option Bool) (f : Exact) (i : FormA) (s : State) : Out :=
  guarded i.gn i.guard lenA s fun s =>
    writeReg s i.d (intResult reading f i.sub (s.core.reg i.a) (s.core.reg i.b)) lenA

/-- An integer op in form B; `zext` tells the extension of its literal. -/
def intB (reading : Option Bool) (f : Exact) (zext : Bool) (i : FormB) (s : State) : Out :=
  guarded i.gn i.guard lenB s fun s =>
    writeReg s i.d (intResult reading f i.sub (s.core.reg i.a) (imm16 zext i.imm16)) lenB

/-- An integer op in form C. -/
def intC (reading : Option Bool) (f : Exact) (zext : Bool) (i : FormC) (s : State) : Out :=
  guarded i.gn i.guard lenC s fun s =>
    writeReg s i.d (intResult reading f i.sub (s.core.reg i.a) (lit32 zext i.lit32)) lenC

/-- ea of form A: g[a] + g[b], unbounded, each register read unsigned (R110; DEDUCED, log entry 18). -/
def eaA (c : Core) (a b : BitVec 5) : Int := (c.reg a).toNat + (c.reg b).toNat

/-- ea of forms B and C: g[a] + SignExt(literal). -/
def eaLit (c : Core) (a : BitVec 5) (v : Dword) : Int := (c.reg a).toNat + v.toInt

/-- x of `lea` in forms B and C: base, index register, scale, displacement (R108). -/
def leaSum (c : Core) (a : BitVec 5) (ext : Nat) (disp : Dword) : Int :=
  (c.reg a).toNat + (c.reg (BitVec.ofNat 5 ext)).toNat * 2 ^ (ext / 32 % 8) + disp.toInt

/-- The target of a relative branch: pc + SignExt(literal) × 4 (R90). -/
def branchTarget (c : Core) (v : Dword) : BitVec 48 := c.pc + (v * 4).setWidth 48

end Sys2Proof.Machine
end

