-- ==== Sys2Proof/Machine/Boundary.lean ====
section
/-! DEFINITION. The boundaries of a core (R227 to R229), the bias copies that a node-scope boundary takes (R388), and
the launches and ends of firings (R86, R274, R276). -/

namespace Sys2Proof.Machine

/-- The key of an expert set on a device (R387). -/
def expertKey (dev fn set : Nat) : Nat := (dev * 17 + fn) * 16 + set

/-- Words read from M at a VA through an address generator, one after another. -/
def State.ageWords (age gdie fn tile : Nat) : Nat → State → Nat → VaResult (List Word)
  | 0, s, _ => .ok s []
  | n + 1, s, va =>
    match s.translate gdie fn tile (s.age age) va 0 with
    | .fault s g f => .fault (s.setAge age g) va f
    | .wait => .wait
    | .ok s g pa _ =>
      let s := s.setAge age g
      match State.ageWords age gdie fn tile n s (va + 4) with
      | .fault s va f => .fault s va f
      | .wait => .wait
      | .ok s' r => .ok s' (BitVec.ofNat 32 (s.mem.num pa 4) :: r)

/-- The bias array of an expert set, read from M through the core's address generator (R388). -/
def State.readBias (s : State) (t : Nat) (x : ExpertSet) : VaResult (List Word) :=
  State.ageWords (coreAge t) (dieOf t) (fnOf (s.coreOf t).fn) t (x.groups * x.experts) s x.bias

/-- The expert sets that are installed on a device for a function, by their slots (R387). -/
def State.setsOf (s : State) (dev fn : Nat) : List (Nat × ExpertSet) :=
  (List.range 16).filterMap fun k => (mapGet s.experts (expertKey dev fn k)).map fun x => (k, x)

/-- A core's part of an installed set: of a core that a tile reset or a fresh image has emptied since the install, no copy and
micro-batch 0 (DEDUCED, log entry 40). -/
def Core.expert (c : Core) (set : Nat) : ExpertCore :=
  (mapGet c.experts set).getD { bias := [], batch := 0, closed := [], counts := [], stopped := none }

/-- A core takes a new part of a set. -/
def Core.setExpert (c : Core) (set : Nat) (e : ExpertCore) : Core := { c with experts := mapSet c.experts set e }

/-- The core's copies of the installed sets are taken again from M (R388); where the read faults the old copy stays and a
record of kind 1 goes to the core's fault domain. A boundary is not taken while `biasWaits` holds. -/
def State.copyBiases (s : State) (t : Nat) : State :=
  let fn := fnOf (s.coreOf t).fn
  (s.setsOf (deviceOf t) fn).foldl (fun s x =>
    match s.readBias t x.2 with
    | .ok s ws => s.setCore t ((s.coreOf t).setExpert x.1 { (s.coreOf t).expert x.1 with bias := ws })
    | .wait => s
    | .fault s va f => s.postFault (dieOf t) fn t
        (ageRecord { (default : FaultFields) with
          cause := f.cause, tile := t, kind := 1, level := f.level, fn := fn, va := va, pte := f.pte })) s

/-- The reading of a bias array would wait, on a page under move or on the address generator's latches: the core takes no
node-scope boundary until it need not (R323, R388). -/
def State.biasWaits (s : State) (t : Nat) : Bool :=
  (s.setsOf (deviceOf t) (fnOf (s.coreOf t).fn)).any fun x => match s.readBias t x.2 with
    | .wait => true
    | .ok _ _ => false
    | .fault _ _ _ => false

/-- A boundary of a core (R227): drain, refresh, and at node scope the bias copies (R388). -/
def State.boundary (s : State) (t scope : Nat) : State :=
  let s := (s.drainCore t scope).refreshCore t scope
  if scope = 4 then s.copyBiases t else s

/-! ### Actors (R272 to R276) -/

/-- The tokens, events or records that an input spec counts. -/
def sourceCount (x : Tile) (src : Nat) : Nat :=
  if src < 64 then ((mapGet x.fo src).map fun p => p.q.length).getD 0
  else if src = 64 then x.core.events.length
  else x.core.deque.length

/-- Input spec i of a descriptor (R272). -/
def inputSpec (d : BitVec 128) (i : Nat) : Nat := d.toNat / 2 ^ (64 + 16 * i) % 2 ^ 16

/-- Every used input of the actor holds at least its count (R274). -/
def Actor.fireable (a : Actor) (x : Tile) : Bool :=
  (List.range 4).all fun i =>
    let v := inputSpec a.desc i
    v % 256 = 255 || v / 256 % 64 ≤ sourceCount x (v % 256)

/-- The fireable actors in numbering order after the one that fired last (R274). -/
def Tile.fireables (x : Tile) : List Nat :=
  ((List.range 16).map fun i => (x.core.lastFired + 1 + i) % 16).filter fun n =>
    match mapGet x.core.actors n with
    | some a => a.fireable x
    | none => false

/-- A launch (R86) (DEDUCED, log entry 37). ss.tenant follows the program that runs (R79). -/
def Core.launch (c : Core) (pc : BitVec 48) (m : BitVec 2) : Core := { c with pc := pc, m := m, tenant := c.fn, run := .running }

/-- g24 to g31. -/
def Core.high (c : Core) : Vector Dword 8 := Vector.ofFn fun (i : Fin 8) => c.g[24 + i.val]

/-- Set g24 to g31. -/
def Core.setHigh (c : Core) (v : Vector Dword 8) : Core :=
  { c with g := Vector.ofFn fun (i : Fin 32) => if h : 24 ≤ i.val then v[i.val - 24] else c.g[i] }

/-- The firing of an actor (R274). -/
def Core.fire (c : Core) (n : Nat) (a : Actor) : Core :=
  { ((c.launch (BitVec.ofNat 48 a.desc.toNat) (a.desc.extractLsb' 48 2)).setHigh a.saved) with
    actor := some n, lastFired := n, firings := c.firings + 1 }

/-- The end of a firing saves g24 to g31 to its actor (R274), and an `arm` of that actor takes effect (R273). -/
def Core.endFiring (c : Core) : Core :=
  match c.actor with
  | none => c
  | some n =>
    let actors := match mapGet c.actors n with
      | some a => mapSet c.actors n { a with saved := c.high }
      | none => c.actors
    let actors := match mapGet c.rearm n with
      | none => actors
      | some none => mapErase actors n
      | some (some d) => mapSet actors n { desc := d, saved := Vector.replicate 8 0 }
    { c with actors := actors, rearm := mapErase c.rearm n, actor := none }

/-- What a `yield` keeps of a core (R276). -/
def Core.yieldFrame (c : Core) (left : List Nat) : YieldFrame :=
  { g := c.g, p := c.p, pc := c.pc, cause := c.cause, fpc := c.fpc, fval := c.fval, mode := c.mode, fpmode := c.fpmode
    wake := c.wake, actor := none, left := left }

/-- A `yield` goes on (R276): the next of its actors fires, or the resident program resumes as it was (DEDUCED, log entry 31). -/
def Core.resumeYield (c : Core) (f : YieldFrame) : List Nat → Core
  | [] =>
    { ((c.setMode f.mode).setFpmode f.fpmode) with
      g := f.g, p := f.p, pc := f.pc, cause := f.cause, fpc := f.fpc, fval := f.fval, wake := f.wake, actor := f.actor
      yielding := none, run := .running }
  | n :: r => match mapGet c.actors n with
    | some a => { (c.fire n a) with yielding := some { f with left := r } }
    | none => c.resumeYield f r

/-- The core at `done`: the firing ends and the core goes idle, or the `yield` that fired it goes on (R86, R93, R276). -/
def Core.done (c : Core) : Core :=
  let c := { c.endFiring with retired := c.retired + 1 }
  match c.yielding with
  | some f => c.resumeYield f f.left
  | none => { c with run := .idle }

end Sys2Proof.Machine
end

