-- ==== Sys2Proof/Machine/Local.lean ====
section
/-! DEFINITION. Row 0x4: local memory (R110 to R112). -/

namespace Sys2Proof.Machine

/-- Bytes that `ld` moves, by sub (R30). -/
def loadWidth (sub : BitVec 3) : Nat :=
  match sub.toNat with
  | 0 | 1 => 1
  | 2 | 3 => 2
  | 4 | 5 => 4
  | _ => 8

/-- The value that `ld` writes, from the n bytes it read (R110): sign extension for widths b, h and w. -/
def loadValue (sub : BitVec 3) (v : Nat) : Dword :=
  if sub = 0 || sub = 2 || sub = 4 then toDword (signExt v (8 * loadWidth sub)) else BitVec.ofNat 64 v

/-- Bytes that `st` moves, by sub (R30). -/
def storeWidth (sub : BitVec 3) : Nat := 2 ^ (sub.toNat % 4)

/-- A load of n bytes at ea: the checks of R110, the wait of R362, and what goes on with the address. -/
def loadAt (s : State) (i : Instr) (ea : Int) (n : Nat) (go : State → Nat → Out) : Out :=
  checks s (localChecks s.core ea n) fun s =>
    if s.loadAbsent ea.toNat n then wait s (.writeOnce i) else go s ea.toNat

/-- `ld` at an effective address (R110). -/
def load (i : Instr) (d : BitVec 5) (sub : BitVec 3) (ea : Int) (len : Nat) (s : State) : Out :=
  loadAt s i ea (loadWidth sub) fun s a => writeReg s d (loadValue sub (s.loadLocal a (loadWidth sub))) len

/-- `ld`, form A (R110). -/
def execLdA (f : FormA) (s : State) : Out :=
  guarded f.gn f.guard lenA s fun s => load (.ldA f) f.d f.sub (eaA s.core f.a f.b) lenA s
/-- `ld`, form B. -/
def execLdB (f : FormB) (s : State) : Out :=
  guarded f.gn f.guard lenB s fun s => load (.ldB f) f.d f.sub (eaLit s.core f.a (imm16 false f.imm16)) lenB s
/-- `ld`, form C. -/
def execLdC (f : FormC) (s : State) : Out :=
  guarded f.gn f.guard lenC s fun s => load (.ldC f) f.d f.sub (eaLit s.core f.a (lit32 false f.lit32)) lenC s

/-- `st` at an effective address (R110). -/
def store (d : BitVec 5) (sub : BitVec 3) (ea : Int) (len : Nat) (s : State) : Out :=
  checks s (localChecks s.core ea (storeWidth sub)) fun s =>
    finish (s.storeLocal ea.toNat (toBytes (s.core.reg d).toNat (storeWidth sub))) len

/-- `st`, form A (R110). -/
def execStA (f : FormA) (s : State) : Out :=
  guarded f.gn f.guard lenA s fun s => store f.d f.sub (eaA s.core f.a f.b) lenA s
/-- `st`, form B. -/
def execStB (f : FormB) (s : State) : Out :=
  guarded f.gn f.guard lenB s fun s => store f.d f.sub (eaLit s.core f.a (imm16 false f.imm16)) lenB s
/-- `st`, form C. -/
def execStC (f : FormC) (s : State) : Out :=
  guarded f.gn f.guard lenC s fun s => store f.d f.sub (eaLit s.core f.a (lit32 false f.lit32)) lenC s

/-- `ldp` at an effective address: two loads, the lower address first (R111, R112). -/
def loadPair (i : Instr) (d : BitVec 5) (ea : Int) (len : Nat) (s : State) : Out :=
  loadAt s i ea 16 fun s a =>
    let c := (s.core.setReg d (BitVec.ofNat 64 (s.loadLocal a 8))).setReg (d + 1) (BitVec.ofNat 64 (s.loadLocal (a + 8) 8))
    finish (s.withCore c) len

/-- `ldp`, form A (R111). -/
def execLdpA (f : FormA) (s : State) : Out :=
  guarded f.gn f.guard lenA s fun s => loadPair (.ldpA f) f.d (eaA s.core f.a f.b) lenA s
/-- `ldp`, form B. -/
def execLdpB (f : FormB) (s : State) : Out :=
  guarded f.gn f.guard lenB s fun s => loadPair (.ldpB f) f.d (eaLit s.core f.a (imm16 false f.imm16)) lenB s

/-- `stp` at an effective address: two stores, the lower address first (R111, R112). -/
def storePair (d : BitVec 5) (ea : Int) (len : Nat) (s : State) : Out :=
  checks s (localChecks s.core ea 16) fun s =>
    let lo := toBytes (s.core.reg d).toNat 8
    let hi := toBytes (s.core.reg (d + 1)).toNat 8
    finish ((s.storeLocal ea.toNat lo).storeLocal (ea.toNat + 8) hi) len

/-- `stp`, form A (R111). -/
def execStpA (f : FormA) (s : State) : Out :=
  guarded f.gn f.guard lenA s fun s => storePair f.d (eaA s.core f.a f.b) lenA s
/-- `stp`, form B. -/
def execStpB (f : FormB) (s : State) : Out :=
  guarded f.gn f.guard lenB s fun s => storePair f.d (eaLit s.core f.a (imm16 false f.imm16)) lenB s

end Sys2Proof.Machine
end

