-- ==== Sys2Proof/Machine/Actors.lean ====
section
/-! DEFINITION. The deque (R278, R279), the arming of actors (R272, R273), `evget` (R277) and `yield` (R276). -/

namespace Sys2Proof.Machine

/-! ### The deque -/

/-- Records that a deque holds, and the bytes of one (R278). -/
def dequeDepth : Nat := 256
def recordBytes : Nat := 32

/-- A value tells whether a deque instruction succeeded. -/
def successDword (b : Bool) : Dword := if b then 1 else 0

/-- The scratchpad address that a deque instruction names, checked as `ldp` checks it (R278). -/
def dequeChecks (c : Core) (a : BitVec 5) : List (Bool × BitVec 7 × Dword) := localChecks c (c.reg a).toNat recordBytes

/-- `dqpush` (R278). -/
def execDqpush (f : FormA) (s : State) : Out :=
  guarded f.gn f.guard lenA s fun s => checks s (dequeChecks s.core f.a) fun s =>
    let a := (s.core.reg f.a).toNat
    if s.loadAbsent a recordBytes then wait s (.writeOnce (.dqpush f))
    else
      let c := s.core
      let fits := decide (c.deque.length < dequeDepth)
      let q := if fits then c.deque ++ [s.readLocal a recordBytes] else c.deque
      writeReg (s.withCore { c with deque := q }) f.d (successDword fits) lenA

/-- A record goes to the 32 bytes and g[d] says that there was one. -/
def takeRecord (a : Nat) (d : BitVec 5) (r : Option (List Byte)) (len : Nat) (s : State) : Out :=
  match r with
  | none => writeReg s d 0 len
  | some bs => writeReg (s.storeLocal a bs) d 1 len

/-- `dqpop` (R278): the bottom record. -/
def execDqpop (f : FormA) (s : State) : Out :=
  guarded f.gn f.guard lenA s fun s => checks s (dequeChecks s.core f.a) fun s =>
    let c := s.core
    takeRecord (c.reg f.a).toNat f.d c.deque.getLast? lenA (s.withCore { c with deque := c.deque.dropLast })

/-- `dqsteal` from cluster position q (R278): the top record. -/
def dequeSteal (a d : BitVec 5) (q : Dword) (len : Nat) (s : State) : Out :=
  checks s (dequeChecks s.core a) fun s =>
    let u := s.cur / 8 * 8 + q.toNat
    if q.toNat > 7 || !s.ownsTile (deviceOf s.cur) (fnOf s.core.fn) (u % 160) then raiseOpen s 0x38
    else
      let r := (s.coreOf u).deque.head?
      takeRecord (s.core.reg a).toNat d r len (s.setCore u { s.coreOf u with deque := (s.coreOf u).deque.drop 1 })

/-- `dqsteal`, form A (R278). -/
def execDqstealA (f : FormA) (s : State) : Out :=
  guarded f.gn f.guard lenA s fun s => dequeSteal f.a f.d (s.core.reg f.b) lenA s
/-- `dqsteal`, form B. -/
def execDqstealB (f : FormB) (s : State) : Out :=
  guarded f.gn f.guard lenB s fun s => dequeSteal f.a f.d (imm16 false f.imm16) lenB s

/-! ### Actors -/

/-- An input spec passes R272 and R273. -/
def inputOk (v : Nat) : Bool :=
  let src := v % 256
  let n := v / 256 % 64
  v / 2 ^ 14 = 0 && (src = 255 || (src ≤ 65 && 1 ≤ n && (64 ≤ src || n ≤ 32)))

/-- A descriptor passes R272 and R273 for a core in a mode. -/
def descriptorOk (d : BitVec 128) (m : BitVec 2) : Bool :=
  let v := d.toNat
  v / 2 ^ 50 % 2 ^ 14 = 0 && v / 2 ^ 48 % 4 ≤ m.toNat && v / 2 ^ 48 % 4 ≠ 3 && v % 4 = 0 &&
  (List.range 4).all (fun i => inputOk (inputSpec d i)) && (List.range 4).any fun i => inputSpec d i % 256 ≠ 255

/-- An actor is bound or removed, at once or at the end of its own running firing (R273). -/
def Core.bindActor (c : Core) (n : Nat) (d : Option (BitVec 128)) : Core :=
  if c.actor = some n then { c with rearm := mapSet c.rearm n d }
  else match d with
    | none => { c with actors := mapErase c.actors n }
    | some d => { c with actors := mapSet c.actors n { desc := d, saved := Vector.replicate 8 0 } }

/-- `arm` of actor n (R273): the number, then the descriptor's address, then its contents. -/
def armActor (i : Instr) (sub : BitVec 3) (a : BitVec 5) (n : Dword) (len : Nat) (s : State) : Out :=
  if n.toNat > 15 then raiseOpen s 0x37
  else if sub.getLsbD 0 then finish (s.withCore (s.core.bindActor n.toNat none)) len
  else
    let ea := (s.core.reg a).toNat
    loadAt s i ea 16 fun s ea =>
      let d := BitVec.ofNat 128 (ofBytes (s.readLocal ea 16))
      if descriptorOk d s.core.m then finish (s.withCore (s.core.bindActor n.toNat (some d))) len else raiseOpen s 0x37

/-- `arm`, form A (R273). -/
def execArmA (f : FormA) (s : State) : Out :=
  guarded f.gn f.guard lenA s fun s => armActor (.armA f) f.sub f.a (s.core.reg f.b) lenA s
/-- `arm`, form B. -/
def execArmB (f : FormB) (s : State) : Out :=
  guarded f.gn f.guard lenB s fun s => armActor (.armB f) f.sub f.a (imm16 false f.imm16) lenB s

/-- `evget` (R277): the head record of the event FIFO, or 0. -/
def execEvget (f : FormA) (s : State) : Out :=
  guarded f.gn f.guard lenA s fun s =>
    let c := s.core
    writeReg (s.withCore { c with events := c.events.drop 1 }) f.d (c.events.headD 0) lenA

/-- `yield` (R276): each actor that is fireable now fires once, and the resident program then goes on behind it; inside a
firing it only advances the pc. -/
def execYield (f : FormA) (s : State) : Out :=
  guarded f.gn f.guard lenA s fun s =>
    let c := s.core.advance lenA
    let ready := (s.tile s.cur).fireables
    if c.actor.isSome || ready = [] then .next (s.withCore c)
    else
      .next (s.withCore (c.resumeYield (c.yieldFrame ready) ready))

end Sys2Proof.Machine
end

