-- ==== Sys2Proof/Machine/Global.lean ====
section
/-! DEFINITION. Row 0x5: global memory (R213 to R216), the tag table (R218 to R221), `phase` (R234) and the barrier
instructions (R239 to R241). -/

namespace Sys2Proof.Machine

/-! ### Orders (R30) -/

/-- The order releases: `.rel` or `.ar`. -/
def releases (order : Nat) : Bool := order / 2 % 2 = 1
/-- The order acquires: `.acq` or `.ar`. -/
def acquires (order : Nat) : Bool := order % 2 = 1

/-- A drain at node scope where the order releases. -/
def State.drainIf (s : State) (order : Nat) : State := if releases order then s.drainCore s.cur 4 else s

/-- A refresh at node scope where the order acquires; the model takes it in the instruction's own step (DEDUCED, log entry 22). -/
def State.refreshIf (s : State) (order : Nat) : State := if acquires order then s.refreshCore s.cur 4 else s

/-! ### Access through the core's address generator -/

/-- A VA translated by the core's address generator (R199, R209): a failing walk traps with ss.fval the VA. -/
def coreTranslate (s : State) (ea : Int) (access : Nat) (go : State → Nat → Out) : Out :=
  let c := s.core
  match s.translate (dieOf s.cur) (fnOf c.fn) s.cur c.age ea.toNat access with
  | .fault s g f => raise (s.withCore { s.core with age := g }) f.cause (toDword ea) access
  | .wait => .next s
  | .ok s' g pa _ => go (s'.withCore { s'.core with age := g }) pa

/-- The checks of R213 in order, then the access at the node-physical address. -/
def globalAt (s : State) (ea : Int) (align : BitVec 7) (access : Nat) (go : State → Nat → Out) : Out :=
  checks s [(ea < 0 || ea ≥ 2 ^ 52, 0x20, toDword ea), (ea % 8 ≠ 0, align, toDword ea)] fun s =>
    coreTranslate s ea access go

/-- Does a load of n bytes at a node-physical address touch an absent word of a bound write-once buffer (R362) other
than through the core's own buffered store? -/
def State.paAbsent (s : State) (pa n : Nat) : Bool :=
  (List.range n).any fun i => s.woAbsent (pa + i) && (lastEntry s.core.view.pb (pa + i)).isNone

/-- `gld` at an effective address (R214). -/
def globalLoad (i : Instr) (d : BitVec 5) (order : Nat) (ea : Int) (len : Nat) (s : State) : Out :=
  globalAt s ea 0x05 0 fun s pa =>
    if s.paAbsent pa 8 then wait s (.writeOnce i)
    else
      let v := s.viewNum s.core.view pa 8
      writeReg (s.refreshIf order) d (BitVec.ofNat 64 v) len

/-- `gld`, form A (R214). -/
def execGldA (f : FormA) (s : State) : Out :=
  guarded f.gn f.guard lenA s fun s => globalLoad (.gldA f) f.d f.sub.toNat (eaA s.core f.a f.b) lenA s
/-- `gld`, form B. -/
def execGldB (f : FormB) (s : State) : Out :=
  guarded f.gn f.guard lenB s fun s => globalLoad (.gldB f) f.d f.sub.toNat (eaLit s.core f.a (imm16 false f.imm16)) lenB s

/-- `gst` at an effective address (R214); `.rel` drains in the same step (R229). -/
def globalStore (d : BitVec 5) (order : Nat) (ea : Int) (len : Nat) (s : State) : Out :=
  globalAt s ea 0x05 1 fun s pa =>
    let c := s.core
    let s := s.withCore { c with view := c.view.store pa (toBytes (c.reg d).toNat 8) }
    finish (s.drainIf order) len

/-- `gst`, form A (R214). -/
def execGstA (f : FormA) (s : State) : Out :=
  guarded f.gn f.guard lenA s fun s => globalStore f.d f.sub.toNat (eaA s.core f.a f.b) lenA s
/-- `gst`, form B. -/
def execGstB (f : FormB) (s : State) : Out :=
  guarded f.gn f.guard lenB s fun s => globalStore f.d f.sub.toNat (eaLit s.core f.a (imm16 false f.imm16)) lenB s

/-! ### Atomics (R233) -/

/-- One atomic step on n bytes at an address by an agent with a view (R233): the machine, the view and the old value.
`f` gives the new value, or none where nothing is written. -/
def atomicStep (s : State) (who : Nat) (v : View) (pa n order : Nat) (f : Nat → Option Nat) : State × View × Nat :=
  let (s, v) := drainView s who v fun a => releases order || inRange pa n a
  let old := s.mem.num pa n
  let s := match f old with
    | some x => s.writeM pa (toBytes x n)
    | none => s
  let s := s.note (.atomic who) ((List.range n).map (pa + ·))
  let v := { v with sv := v.sv.write pa (s.mem.read pa n) }
  (s, if acquires order then refreshNode s.mem v else v, old)

/-- The operation of `amo` and `mamo` on w-bit patterns (R215, R243). -/
def atomicOp (op w old v : Nat) : Nat :=
  match op with
  | 0 => (old + v) % 2 ^ w
  | 1 => old &&& v
  | 2 => old ||| v
  | 3 => old ^^^ v
  | 4 => if signExt old w ≤ signExt v w then old else v
  | 5 => if signExt old w ≤ signExt v w then v else old
  | 6 => min old v
  | _ => v

/-- A core's atomic at an effective address: g[d] takes the old value. -/
def coreAtomic (d : BitVec 5) (order : Nat) (ea : Int) (f : Nat → Option Nat) (s : State) : Out :=
  globalAt s ea 0x26 2 fun s pa =>
    let (s, v, old) := atomicStep s (coreAgent s.cur) s.core.view pa 8 order f
    writeReg (s.withCore { s.core with view := v }) d (BitVec.ofNat 64 old) lenA

/-- `amo` (R215). -/
def execAmo (f : FormA) (s : State) : Out :=
  guarded f.gn f.guard lenA s fun s =>
    let v := (s.core.reg f.d).toNat
    coreAtomic f.d (f.b.toNat % 4) (s.core.reg f.a).toNat (fun old => some (atomicOp f.sub.toNat 64 old v)) s

/-- `cas` (R216). -/
def execCas (f : FormA) (s : State) : Out :=
  guarded f.gn f.guard lenA s fun s =>
    let c := s.core
    coreAtomic f.d (f.sub.toNat % 4) (c.reg f.a).toNat
      (fun old => if old = (c.reg f.d).toNat then some (c.reg f.b).toNat else none) s

/-! ### Boundaries -/

/-- `phase` (R234). -/
def execPhase (f : FormA) (s : State) : Out :=
  guarded f.gn f.guard lenA s fun s =>
    if f.sub = 4 && s.biasWaits s.cur then .next s else finish (s.boundary s.cur f.sub.toNat) lenA

/-! ### Barriers -/

/-- An arrival or an expectation (R239, R240): the checks of R235, then the drain of `.rel` and the update in one step;
a failing update is a precise trap with nothing changed. `d` takes the phase of an arrival. -/
def barrierAct (d : BitVec 5) (order arrivals : Nat) (a de : Dword) (len : Nat) (s : State) : Out :=
  checks s (s.barrierChecks s.core a ++ [(decide (de.toInt < 0), 0x2A, a)]) fun s =>
    let s' := s.drainIf order
    let old := s'.barrierPhase (barrierPa a)
    match s'.updateBarrier (deviceOf s.cur) a { bytes := 0, expect := de.toNat, arrivals := arrivals, ranges := [] } with
    | .error code => raise s code a
    | .ok s'' => writeReg s'' d (if old then 1 else 0) len

/-- `barv`, form A (R239). -/
def execBarvA (f : FormA) (s : State) : Out :=
  guarded f.gn f.guard lenA s fun s => barrierAct f.d f.sub.toNat 1 (s.core.reg f.a) (s.core.reg f.b) lenA s
/-- `barv`, form B. -/
def execBarvB (f : FormB) (s : State) : Out :=
  guarded f.gn f.guard lenB s fun s => barrierAct f.d f.sub.toNat 1 (s.core.reg f.a) (imm16 false f.imm16) lenB s

/-- `bexp`, form A (R240): no order, no destination. -/
def execBexpA (f : FormA) (s : State) : Out :=
  guarded f.gn f.guard lenA s fun s => barrierAct 0 0 0 (s.core.reg f.a) (s.core.reg f.b) lenA s
/-- `bexp`, form B. -/
def execBexpB (f : FormB) (s : State) : Out :=
  guarded f.gn f.guard lenB s fun s => barrierAct 0 0 0 (s.core.reg f.a) (imm16 false f.imm16) lenB s

/-- Is the address in a range of the set? -/
def inRanges (rs : Ranges) (a : Nat) : Bool := rs.any fun r => inRange r.1 r.2 a

/-- The observation of a flip (R241): the snapshot takes M over F(b), and over every byte with `.acq`. -/
def State.observe (s : State) (pa : Nat) (acq : Bool) : State :=
  let c := s.core
  let rs := (mapGet s.barFlipped pa).getD []
  let s := s.withCore { c with view := refreshView s.mem c.view (inRanges rs) }
  if acq then s.refreshCore s.cur 4 else s

/-- `bwait` (R241): it completes at once where the phase has changed, and otherwise waits. -/
def execBwait (f : FormA) (s : State) : Out :=
  guarded f.gn f.guard lenA s fun s =>
    let a := s.core.reg f.a
    let parity := (s.core.reg f.b).getLsbD 0
    let acq := acquires f.sub.toNat
    checks s (s.barrierChecks s.core a ++ [(s.noPath (deviceOf s.cur) (paDevice (barrierPa a)), 0x50, a)]) fun s =>
      if s.barrierPhase (barrierPa a) ≠ parity then finish (s.observe (barrierPa a) acq) lenA
      else wait s (.bwait a parity acq)

/-- The core whose turn it is completes the instruction it waits at. -/
def State.resumed (s : State) (len : Nat) : State := s.withCore { (s.core.advance len) with run := .running }

/-- A waiting `bwait` observes that the phase has changed (R241), or that no path leads to its barrier (R355). -/
def execBwaitObserve (t : Nat) (s : State) : Out :=
  match s.waitOf t with
  | some (.bwait a parity acq) =>
    if s.noPath (deviceOf t) (paDevice (barrierPa a)) then raise { s with cur := t } 0x50 a
    else if s.barrierPhase (barrierPa a) ≠ parity then
      .next ((({ s with cur := t } : State).observe (barrierPa a) acq).resumed lenA)
    else .next s
  | _ => .next s

/-! ### The tag table -/

/-- The granule tag of a VA: bits [51:10] (R218). -/
def granule (v : Dword) : BitVec 42 := v.extractLsb' 10 42

/-- The slot whose valid entry holds a tag (R219). -/
def Tile.findTag (x : Tile) (g : BitVec 42) : Option Nat := (x.tags.find? fun e => e.2 = tagEntry g).map Prod.fst

/-- `tlook` (R219). -/
def execTlook (f : FormA) (s : State) : Out :=
  guarded f.gn f.guard lenA s fun s =>
    let v := s.core.reg f.a
    let r : Dword := if v.toNat ≥ 2 ^ 52 then -1
      else match (s.tile s.cur).findTag (granule v) with
        | some n => BitVec.ofNat 64 n
        | none => -1
    writeReg s f.d r lenA

/-- The check that a slot number is below 3,072 (R220). -/
def slotCheck (n : Dword) : Bool × BitVec 7 × Dword := (n.toNat > 3071, 0x25, n)

/-- The check that keeps user mode from the slots of the supervisor area (R220). No rule names its ss.fval. -/
def slotUserCheck (c : Core) (n : Dword) : Bool × BitVec 7 := (c.user && n.toNat ≤ 3, 0x03)

/-- The tag table with a granule in slot n: every other valid entry of the tag becomes not valid and keeps its tag (R220). -/
def Tile.insertTag (x : Tile) (n : Nat) (g : BitVec 42) : Tile :=
  let tags := x.tags.map fun e => (e.1, if e.2 = tagEntry g then tagInvalid e.2 else e.2)
  let y : Tile := { x with tags := tags.filter fun e => e.2 ≠ 0 }
  y.setTag n (tagEntry g)

/-- `tins` of a slot (R220). -/
def tagInsert (a : BitVec 5) (n : Dword) (len : Nat) (s : State) : Out :=
  let v := s.core.reg a
  checks s [slotCheck n, (v.toNat ≥ 2 ^ 52, 0x25, v)] fun s => checksOpen s [slotUserCheck s.core n] fun s =>
    finish (s.setTile s.cur ((s.tile s.cur).insertTag n.toNat (granule v))) len

/-- `tins`, form A (R220). -/
def execTinsA (f : FormA) (s : State) : Out :=
  guarded f.gn f.guard lenA s fun s => tagInsert f.a (s.core.reg f.b) lenA s
/-- `tins`, form B. -/
def execTinsB (f : FormB) (s : State) : Out :=
  guarded f.gn f.guard lenB s fun s => tagInsert f.a (imm16 false f.imm16) lenB s

/-- `tevict` (R221). -/
def execTevict (f : FormA) (s : State) : Out :=
  guarded f.gn f.guard lenA s fun s =>
    let n := s.core.reg f.a
    checks s [slotCheck n] fun s => checksOpen s [slotUserCheck s.core n] fun s =>
      let x := s.tile s.cur
      let e := x.tag n.toNat
      let r : Dword := if e.getLsbD 42 then BitVec.setWidth 64 (e.extractLsb' 0 42 ++ (0 : BitVec 10)) else -1
      writeReg (s.setTile s.cur (x.setTag n.toNat 0)) f.d r lenA

end Sys2Proof.Machine
end

