-- ==== Sys2Proof/Machine/Cmp.lean ====
section
/-! DEFINITION. Row 0x3: comparisons, predicates and addresses (R105 to R109). -/

namespace Sys2Proof.Machine

/-- The condition of `cmp` over W bits (R105), by sub. -/
def condition (sub w : Nat) (a b : Nat) : Bool :=
  let x := a % 2 ^ w
  let y := b % 2 ^ w
  match sub with
  | 0 => x = y
  | 1 => x ≠ y
  | 2 => signExt x w < signExt y w
  | 3 => signExt x w ≥ signExt y w
  | 4 => x < y
  | 5 => x ≥ y
  | 6 => x &&& y ≠ 0
  | _ => x &&& y = 0

/-- The width of a `cmp`: d[3] is the size (R30, R105). -/
def cmpWidth (d : BitVec 5) : Nat := if d.getLsbD 3 then 32 else 64

/-- R105. -/
def cmp (d : BitVec 5) (sub : BitVec 3) (a b : Dword) (len : Nat) (s : State) : Out :=
  writePred s (d.setWidth 3) (condition sub.toNat (cmpWidth d) a.toNat b.toNat) len

/-- `cmp`, form A (R105). -/
def execCmpA (f : FormA) (s : State) : Out :=
  guarded f.gn f.guard lenA s fun s => cmp f.d f.sub (s.core.reg f.a) (s.core.reg f.b) lenA s
/-- `cmp`, form B. -/
def execCmpB (f : FormB) (s : State) : Out :=
  guarded f.gn f.guard lenB s fun s => cmp f.d f.sub (s.core.reg f.a) (imm16 false f.imm16) lenB s
/-- `cmp`, form C. -/
def execCmpC (f : FormC) (s : State) : Out :=
  guarded f.gn f.guard lenC s fun s => cmp f.d f.sub (s.core.reg f.a) (lit32 false f.lit32) lenC s

/-- The predicate that a five-bit field names (R77). -/
def Core.predOf (c : Core) (r : BitVec 5) : Bool := c.pred (r.setWidth 3)

/-- `pand` (R106). -/
def execPand (f : FormA) (s : State) : Out :=
  guarded f.gn f.guard lenA s fun s => writePred s (f.d.setWidth 3) (s.core.predOf f.a && s.core.predOf f.b) lenA
/-- `por` (R106). -/
def execPor (f : FormA) (s : State) : Out :=
  guarded f.gn f.guard lenA s fun s => writePred s (f.d.setWidth 3) (s.core.predOf f.a || s.core.predOf f.b) lenA
/-- `pxor` (R106). -/
def execPxor (f : FormA) (s : State) : Out :=
  guarded f.gn f.guard lenA s fun s => writePred s (f.d.setWidth 3) (s.core.predOf f.a != s.core.predOf f.b) lenA
/-- `pnot` (R106). -/
def execPnot (f : FormA) (s : State) : Out :=
  guarded f.gn f.guard lenA s fun s => writePred s (f.d.setWidth 3) (!s.core.predOf f.a) lenA

/-- The predicates after `pset` with a mask and values (R107): p0 is not written. -/
def psetBits (p : BitVec 8) (mask v : BitVec 16) : BitVec 8 :=
  let m := (mask &&& 0xFE#16).setWidth 8
  (p &&& ~~~m) ||| (v.setWidth 8 &&& m)

/-- `pset` (R107). -/
def execPset (f : FormB) (s : State) : Out :=
  guarded f.gn f.guard lenB s fun s =>
    finish (s.withCore { s.core with p := psetBits s.core.p f.ext16 f.imm16 }) lenB

/-- The eight predicates as a byte: p0 reads true (R106). -/
def Core.predBits (c : Core) : Dword := BitVec.setWidth 64 (c.p ||| 1#8)

/-- `pget` (R106). -/
def execPget (f : FormA) (s : State) : Out :=
  guarded f.gn f.guard lenA s fun s => writeReg s f.d s.core.predBits lenA

/-- Rd of an address sum by the size (R108, R109). -/
def addressResult (sub : BitVec 3) (x : Int) : Dword := toDword (rd (sizeSigned sub) (sizeWidth sub) x)

/-- `lea`, form A (R108). -/
def execLeaA (f : FormA) (s : State) : Out :=
  guarded f.gn f.guard lenA s fun s => writeReg s f.d (addressResult f.sub (eaA s.core f.a f.b)) lenA
/-- `lea`, form B: base, scaled index and displacement. -/
def execLeaB (f : FormB) (s : State) : Out :=
  guarded f.gn f.guard lenB s fun s =>
    writeReg s f.d (addressResult f.sub (leaSum s.core f.a f.ext16.toNat (imm16 false f.imm16))) lenB
/-- `lea`, form C. -/
def execLeaC (f : FormC) (s : State) : Out :=
  guarded f.gn f.guard lenC s fun s =>
    writeReg s f.d (addressResult f.sub (leaSum s.core f.a f.ext32.toNat (lit32 false f.lit32))) lenC

/-- `pcrel`, form B (R109). -/
def execPcrelB (f : FormB) (s : State) : Out :=
  guarded f.gn f.guard lenB s fun s =>
    writeReg s f.d (addressResult f.sub (s.core.pc.toNat + (imm16 false f.imm16).toInt)) lenB
/-- `pcrel`, form C. -/
def execPcrelC (f : FormC) (s : State) : Out :=
  guarded f.gn f.guard lenC s fun s =>
    writeReg s f.d (addressResult f.sub (s.core.pc.toNat + (lit32 false f.lit32).toInt)) lenC

end Sys2Proof.Machine
end

