-- ==== Sys2Proof/Machine/Num.lean ====
section
/-! DEFINITION. Number formats, rounding and conversion (R50 to R64), block scales (R71, R72), the tensor-ID entry
(R73, R74), and the D-format and carry-save accumulation (R58, R65 to R69). -/

namespace Sys2Proof.Machine

/-! ### Formats (R50, R55) -/

/-- The width of a format in bits; 0 for an unallocated code (R50). -/
def fmtWidth (f : Nat) : Nat :=
  if f ≤ 0x03 then 8 else if f ≤ 0x06 then 6 else if f ≤ 0x08 then 16 else if f ≤ 0x0A then 8
  else if f ≤ 0x0C then 6 else if f = 0x0D then 4 else if f ≤ 0x10 then 16 else if f ≤ 0x12 then 8
  else if f ≤ 0x14 then 4 else if f ≤ 0x16 then 2 else if f = 0x17 then 1 else if f = 0x18 then 32
  else if f = 0x19 then 8 else 0

/-- Codes of the formats named singly. -/
def fE4M3 : Nat := 0x09
def fFP16 : Nat := 0x0E
def fBF16 : Nat := 0x0F
def fFP32 : Nat := 0x18
def fE8M0 : Nat := 0x19

/-- A tapered format: width and es (R50). -/
def tapered (f : Nat) : Option (Nat × Nat) :=
  if f ≤ 0x03 then some (8, f) else if f ≤ 0x06 then some (6, f - 4) else if f ≤ 0x08 then some (16, f - 6) else none

/-- How a floating format treats its specials (R55). -/
inductive FloatKind where
  /-- FP16, BF16, FP32: infinities and quiet and signalling NaNs -/
  | ieee
  /-- E5M2: infinities and NaNs -/
  | e5m2
  /-- E4M3: NaN only -/
  | e4m3
  /-- E2M3, E3M2, E2M1: none -/
  | plain
  deriving DecidableEq, Repr

/-- A floating format: exponent bits, mantissa bits, bias, largest finite pattern, kind (R55). -/
structure FloatFmt where
  eb : Nat
  mb : Nat
  bias : Nat
  maxPat : Nat
  kind : FloatKind
  deriving DecidableEq, Repr

/-- The table of R55. -/
def floatFmt (f : Nat) : Option FloatFmt :=
  match f with
  | 0x09 => some { eb := 4, mb := 3, bias := 7, maxPat := 0x7E, kind := .e4m3 }
  | 0x0A => some { eb := 5, mb := 2, bias := 15, maxPat := 0x7B, kind := .e5m2 }
  | 0x0B => some { eb := 2, mb := 3, bias := 1, maxPat := 0x1F, kind := .plain }
  | 0x0C => some { eb := 3, mb := 2, bias := 3, maxPat := 0x1F, kind := .plain }
  | 0x0D => some { eb := 2, mb := 1, bias := 1, maxPat := 0x7, kind := .plain }
  | 0x0E => some { eb := 5, mb := 10, bias := 15, maxPat := 0x7BFF, kind := .ieee }
  | 0x0F => some { eb := 8, mb := 7, bias := 127, maxPat := 0x7F7F, kind := .ieee }
  | 0x18 => some { eb := 8, mb := 23, bias := 127, maxPat := 0x7F7FFFFF, kind := .ieee }
  | _ => none

/-- FP32. -/
def fp32 : FloatFmt := { eb := 8, mb := 23, bias := 127, maxPat := 0x7F7FFFFF, kind := .ieee }

/-- Exponent of the lowest subnormal's bit. -/
def FloatFmt.qmin (f : FloatFmt) : Int := 1 - (f.bias : Int) - f.mb
/-- Exponent of the minimum normal. -/
def FloatFmt.emin (f : FloatFmt) : Int := 1 - (f.bias : Int)
/-- The sign bit's weight. -/
def FloatFmt.signBit (f : FloatFmt) : Nat := 2 ^ (f.eb + f.mb)

/-- An integer format: width and signedness (R50, R56). -/
def intFmt (f : Nat) : Option (Nat × Bool) :=
  match f with
  | 0x10 => some (16, true)
  | 0x11 => some (8, true)
  | 0x12 => some (8, false)
  | 0x13 => some (4, true)
  | 0x14 => some (4, false)
  | 0x15 => some (2, true)
  | _ => none

/-! ### Decoding (R52, R55, R56) -/

/-- The exact value of a sign, a magnitude and an exponent. -/
def Val.of (neg : Bool) (m : Nat) (e : Int) : Val := if m = 0 then .zero neg else .fin neg m e

/-- An integer as an exact value. -/
def Val.ofInt (x : Int) : Val := Val.of (x < 0) x.natAbs 0

/-- R52: a tapered pattern of n bits with es exponent bits. -/
def decodeTapered (n es u : Nat) : Val :=
  let u := u % 2 ^ n
  if u = 0 then .zero false
  else if u = 2 ^ (n - 1) then .nar
  else
    let neg := u.testBit (n - 1)
    let u := if neg then 2 ^ n - u else u
    let first := u.testBit (n - 2)
    let run := ((List.range (n - 1)).find? fun i => u.testBit (n - 2 - i) != first).getD (n - 1)
    let k : Int := if first then run - 1 else -run
    -- the bits after the regime and its terminating bit, if any bit remains
    let left := n - 1 - run - 1
    let tail := u % 2 ^ left
    let e := if es ≤ left then tail / 2 ^ (left - es) else tail * 2 ^ (es - left)
    let fb := left - es
    let frac := tail % 2 ^ fb
    .fin neg (2 ^ fb + frac) (k * 2 ^ es + e - fb)

/-- The fields of a floating pattern: sign, exponent field, mantissa. -/
def FloatFmt.split (f : FloatFmt) (u : Nat) : Bool × Nat × Nat :=
  (u.testBit (f.eb + f.mb), u / 2 ^ f.mb % 2 ^ f.eb, u % 2 ^ f.mb)

/-- A floating pattern (R55). The payload of a NaN is kept as the 22 bits below the quiet bit of FP32. -/
def decodeFloat (f : FloatFmt) (u : Nat) : Val :=
  let (neg, ex, man) := f.split u
  let special : Bool := match f.kind with
    | .ieee => ex = 2 ^ f.eb - 1
    | .e5m2 => ex = 2 ^ f.eb - 1
    | .e4m3 => ex = 15 && man = 7
    | .plain => false
  if special then
    match f.kind with
    | .e4m3 => .nan neg true 0
    | _ =>
      if man = 0 then .inf neg
      else .nan neg (f.kind = .e5m2 || man.testBit (f.mb - 1)) (man % 2 ^ (f.mb - 1) * 2 ^ (23 - f.mb))
  else if ex = 0 then Val.of neg man f.qmin
  else .fin neg (2 ^ f.mb + man) (f.qmin + ex - 1)

/-- Decode(v, fmt) of R20, for any format of R50. -/
def decodeVal (f u : Nat) : Val :=
  match tapered f with
  | some (n, es) => decodeTapered n es u
  | none => match floatFmt f with
    | some ff => decodeFloat ff u
    | none => match intFmt f with
      | some (w, sg) => Val.ofInt (if sg then signExt u w else (u % 2 ^ w : Nat))
      | none =>
        if f = 0x16 then (match u % 4 with
          | 1 => .fin false 1 0
          | 3 => .fin true 1 0
          | _ => .zero false)                                  -- 10 is written by no converter (R56; DEDUCED, log entry 19)
        else if f = 0x17 then .fin (u % 2 = 1) 1 0
        else if u % 256 = 255 then .nan false true 0           -- E8M0
        else .fin false 1 ((u % 256 : Nat) - 127)

/-- Is the pattern a subnormal of FP32, FP16 or BF16? -/
def isSubnormal (f u : Nat) : Bool :=
  match floatFmt f with
  | some ff => ff.kind = .ieee && (ff.split u).2.1 = 0 && (ff.split u).2.2 ≠ 0
  | none => false

/-- A source under the flush control: a subnormal reads as zero of its sign (R61). -/
def decodeFlush (f : Nat) (flush : Bool) (u : Nat) : Val :=
  if flush && isSubnormal f u then .zero (u.testBit (fmtWidth f - 1)) else decodeVal f u

/-! ### Flags and draws (R60, R64) -/

/-- The sticky flags by bit (R64). -/
def flNone : BitVec 5 := 0
def flInexact : BitVec 5 := 1
def flUnderflow : BitVec 5 := 2
def flOverflow : BitVec 5 := 4
def flDivZero : BitVec 5 := 8
def flInvalid : BitVec 5 := 16

/-- One step of a generator (R60). -/
def srStep (g : Word) : Word := if g.getLsbD 0 then (g >>> 1) ^^^ 0x80200003 else g >>> 1

/-- Steps of a generator. -/
def srSteps : Nat → Word → Word
  | 0, g => g
  | n + 1, g => srSteps n (srStep g)

/-- One draw: sixteen steps (R60); r is the low half. -/
def srDraw (g : Word) : Word := srSteps 16 g

/-- A seed of zero is replaced by 1 (R60). -/
def srSeed (w : Word) : Word := if w = 0 then 1 else w

/-- Rounding mode codes (R40). -/
def rmRNE : BitVec 3 := 0
def rmRTZ : BitVec 3 := 1
def rmRDN : BitVec 3 := 2
def rmRUP : BitVec 3 := 3
def rmRNA : BitVec 3 := 4
def rmSR : BitVec 3 := 5

/-- A result: its bits, the flags it raises, the generator after it. -/
structure Rounded where
  bits : Nat
  flags : BitVec 5
  gen : Word
  deriving DecidableEq, Repr, Inhabited

/-! ### Rounding (R59) -/

/-- A magnitude: m × 2^e, or strictly between m × 2^e and (m + 1) × 2^e when st is set. -/
structure Mag where
  m : Nat
  e : Int
  st : Bool
  deriving DecidableEq, Repr, Inhabited

/-- floor(log2) of a magnitude. -/
def Mag.exp (x : Mag) : Int := (Nat.log2 x.m : Int) + x.e

/-- Round a magnitude to a multiple of 2^q by a mode: the multiple, and whether it is inexact. r is the draw for SR. -/
def roundAt (rm : BitVec 3) (r : Nat) (neg : Bool) (x : Mag) (q : Int) : Nat × Bool :=
  let sh := (q - x.e).toNat
  let n := if q ≤ x.e then x.m * 2 ^ (x.e - q).toNat else x.m / 2 ^ sh
  let rem := if q ≤ x.e then 0 else x.m % 2 ^ sh
  if rem = 0 && !x.st then (n, false)
  else
    let half := 2 ^ sh
    let up :=
      if rm = rmRTZ then false
      else if rm = rmRDN then neg
      else if rm = rmRUP then !neg
      else if rm = rmRNA then half ≤ 2 * rem
      else if rm = rmSR then
        let f := rem * 2 ^ 16 / 2 ^ sh
        let exact := rem * 2 ^ 16 % 2 ^ sh = 0 && !x.st
        -- for a negative value hi is the smaller magnitude (R59)
        if neg then 2 ^ 16 - (if exact then f else f + 1) ≤ r else r < f
      else half < 2 * rem || (half = 2 * rem && (x.st || n % 2 = 1))
    (if up then n + 1 else n, true)

/-- Round a non-zero magnitude into a floating format (R59, R61, R63). -/
def roundFloat (f : FloatFmt) (rm : BitVec 3) (flush : Bool) (gen : Word) (neg : Bool) (x : Mag) : Rounded :=
  let g := if rm = rmSR then srDraw gen else gen
  let r := g.toNat % 2 ^ 16
  let sgn := if neg then f.signBit else 0
  let q := max (x.exp - f.mb) f.qmin
  let (n, inx) := roundAt rm r neg x q
  let pat := (q - f.qmin).toNat * 2 ^ f.mb + n
  if pat > f.maxPat then
    if f.kind = .ieee then
      let toMax := rm = rmRTZ || (rm = rmRDN && !neg) || (rm = rmRUP && neg)
      { bits := sgn + (if toMax then f.maxPat else (2 ^ f.eb - 1) * 2 ^ f.mb)
        flags := flOverflow ||| flInexact, gen := g }
    else { bits := sgn + f.maxPat, flags := flInexact, gen := g }
  else
    -- tiny after rounding: judged as though the exponent range were unbounded (R61)
    let (u, _) := roundAt rm r neg x (x.exp - f.mb)
    let tiny := x.exp < f.emin && !(x.exp + 1 = f.emin && u = 2 ^ (f.mb + 1))
    if tiny && flush && f.kind = .ieee then { bits := sgn, flags := flUnderflow ||| flInexact, gen := g }
    else
      { bits := sgn + pat
        flags := if inx then (if tiny then flUnderflow ||| flInexact else flInexact) else flNone
        gen := g }

/-- Round a non-zero magnitude into a tapered format (R54): no mode, no draw. -/
def roundTapered (n es : Nat) (gen : Word) (neg : Bool) (x : Mag) : Rounded :=
  let lim : Int := (n - 2 : Nat) * 2 ^ es
  let pow := x.m = 2 ^ Nat.log2 x.m && !x.st
  let (pat, inx) :=
    if lim ≤ x.exp then (2 ^ (n - 1) - 1, !(x.exp = lim && pow))
    else if x.exp < -lim || (x.exp = -lim && pow) then (1, !(x.exp = -lim))
    else
      let k := x.exp / (2 : Int) ^ es
      let e := (x.exp % (2 : Int) ^ es).toNat
      let (reg, rl) : Nat × Nat :=
        if 0 ≤ k then ((2 ^ (k.toNat + 1) - 1) * 2, k.toNat + 2) else (1, (-k).toNat + 1)
      let fb := Nat.log2 x.m
      let v := (reg * 2 ^ es + e) * 2 ^ fb + (x.m - 2 ^ fb)
      let len := rl + es + fb
      if len ≤ n - 1 then (v * 2 ^ (n - 1 - len), x.st)
      else
        let sh := len - (n - 1)
        let u := v / 2 ^ sh
        let t := v % 2 ^ sh
        let up := 2 ^ sh < 2 * t || (2 ^ sh = 2 * t && (x.st || u % 2 = 1))
        (if up then u + 1 else u, t ≠ 0 || x.st)
  { bits := if neg then 2 ^ n - pat else pat, flags := if inx then flInexact else flNone, gen := gen }

/-- Round a magnitude to an integer by a mode and clamp it to a range; the result as bits of the width (R63). -/
def roundInt (w : Nat) (lo hi : Int) (rm : BitVec 3) (gen : Word) (neg : Bool) (x : Mag) : Rounded :=
  let g := if rm = rmSR then srDraw gen else gen
  let (n, inx) := roundAt rm (g.toNat % 2 ^ 16) neg x 0
  let v : Int := if neg then -(n : Int) else n
  let c := max lo (min hi v)
  { bits := (c % (2 : Int) ^ w).toNat, flags := if c ≠ v then flInvalid else if inx then flInexact else flNone, gen := g }

/-- The range of an integer format, TRN2 among them (R63). -/
def intRange (f : Nat) : Option (Nat × Int × Int) :=
  if f = 0x16 then some (2, -1, 1)
  else (intFmt f).map fun (w, sg) => if sg then (w, -(2 : Int) ^ (w - 1), 2 ^ (w - 1) - 1) else (w, 0, 2 ^ w - 1)

/-! ### Conversion (R54, R63) -/

/-- The bits of a NaN in FP32, FP16 or BF16, quieted. -/
def quietNan (f : FloatFmt) (neg : Bool) (payload : Nat) : Nat :=
  (if neg then f.signBit else 0) + (2 ^ f.eb - 1) * 2 ^ f.mb + 2 ^ (f.mb - 1) + payload / 2 ^ (23 - f.mb)

/-- The canonical NaN (R55). -/
def canonicalNan (f : FloatFmt) : Nat := quietNan f false 0

/-- The magnitude of a finite value. -/
def magOf (m : Nat) (e : Int) : Mag := { m := m, e := e, st := false }

/-- One draw is taken for a value rounded in SR mode even where it is zero (R60; DEDUCED, log entry 20). -/
def drawIf (rm : BitVec 3) (gen : Word) : Word := if rm = rmSR then srDraw gen else gen

/-- Convert a non-zero finite magnitude into a format (R54, R59, R61, R63). A conversion to BIN1 rounds nothing and takes no
draw (DEDUCED, log entry 20). -/
def roundTo (f : Nat) (rm : BitVec 3) (flush : Bool) (gen : Word) (neg : Bool) (x : Mag) : Rounded :=
  match tapered f with
  | some (n, es) => roundTapered n es gen neg x
  | none => match floatFmt f with
    | some ff => roundFloat ff rm flush gen neg x
    | none => match intRange f with
      | some (w, lo, hi) => roundInt w lo hi rm gen neg x
      | none =>
        -- BIN1: the sign; inexact where the value is not ±1 (DEDUCED, log entry 21)
        { bits := if neg then 1 else 0
          flags := if x.m = 2 ^ Nat.log2 x.m && x.exp = 0 && !x.st then flNone else flInexact, gen := gen }

/-- Convert any value into a format (R54, R63). A NaR, which has no sign, counts as positive in E5M2 and E4M3
(DEDUCED, log entry 56). -/
def convert (f : Nat) (rm : BitVec 3) (flush : Bool) (gen : Word) (v : Val) : Rounded :=
  let done (bits : Nat) (flags : BitVec 5) : Rounded := { bits := bits, flags := flags, gen := gen }
  match v with
  | .fin neg m e => roundTo f rm flush gen neg (magOf m e)
  | .zero neg =>
    let g := if (tapered f).isSome || f = 0x17 then gen else drawIf rm gen
    match floatFmt f with
    | some ff => { bits := if neg then ff.signBit else 0, flags := flNone, gen := g }
    | none => { bits := 0, flags := if f = 0x17 then flInexact else flNone, gen := g }
  | .inf neg =>
    match tapered f with
    | some (n, _) => done (2 ^ (n - 1)) flInvalid
    | none => match floatFmt f with
      | some ff =>
        let sgn := if neg then ff.signBit else 0
        match ff.kind with
        | .ieee => done (sgn + (2 ^ ff.eb - 1) * 2 ^ ff.mb) flNone
        | .e5m2 => done (sgn + (2 ^ ff.eb - 1) * 2 ^ ff.mb) flNone
        | .e4m3 => done (sgn + ff.maxPat) flInvalid
        | .plain => done (sgn + ff.maxPat) flInvalid
      | none => match intRange f with
        | some (w, lo, hi) => done ((if neg then lo else hi) % (2 : Int) ^ w).toNat flInvalid
        | none => done (if neg then 1 else 0) flNone
  | .nan neg quiet payload =>
    let fl := if quiet then flNone else flInvalid
    match tapered f with
    | some (n, _) => done (2 ^ (n - 1)) flInvalid
    | none => match floatFmt f with
      | some ff =>
        let sgn := if neg then ff.signBit else 0
        match ff.kind with
        | .ieee => done (quietNan ff neg payload) fl
        | .e5m2 => done (sgn + 0x7F) fl
        | .e4m3 => done (sgn + 0x7F) fl
        | .plain => done 0 flInvalid
      | none => done 0 flInvalid
  | .nar =>
    match tapered f with
    | some (n, _) => done (2 ^ (n - 1)) flNone
    | none => match floatFmt f with
      | some ff =>
        match ff.kind with
        | .ieee => done (canonicalNan ff) flInvalid
        | .e5m2 => done 0x7F flNone
        | .e4m3 => done 0x7F flNone
        | .plain => done 0 flInvalid
      | none => done 0 flInvalid

/-! ### Exact arithmetic on values -/

/-- A finite or zero value as an integer multiple of 2^e, at the exponent asked. -/
def scaledInt (neg : Bool) (m : Nat) (e at' : Int) : Int :=
  let n : Int := m * 2 ^ (e - at').toNat
  if neg then -n else n

/-- The value of an integer times 2^e. -/
def Val.ofScaled (x : Int) (e : Int) : Val := Val.of (x < 0) x.natAbs e

/-- The negation of a number; a NaN keeps its sign (R114). -/
def Val.negate : Val → Val
  | .zero n => .zero (!n)
  | .fin n m e => .fin (!n) m e
  | .inf n => .inf (!n)
  | .nan n q p => .nan n q p
  | .nar => .nar

/-- Is the value a NaN or NaR? -/
def Val.isNan : Val → Bool
  | .nan _ _ _ => true
  | .nar => true
  | .zero _ => false
  | .fin _ _ _ => false
  | .inf _ => false

/-- Is the value a signalling NaN? -/
def Val.signalling : Val → Bool
  | .nan _ q _ => !q
  | .nar => false
  | .zero _ => false
  | .fin _ _ _ => false
  | .inf _ => false

/-- The sign of a value. -/
def Val.sign : Val → Bool
  | .zero n => n
  | .fin n _ _ => n
  | .inf n => n
  | .nan n _ _ => n
  | .nar => false

/-- What an exact operation on numbers comes to before its rounding. -/
inductive ExactRes where
  /-- the operation is invalid (R62) -/
  | invalid
  | inf (neg : Bool)
  | zero (neg : Bool)
  | fin (neg : Bool) (x : Mag)
  deriving DecidableEq, Repr

/-- The exact result of a value that is no NaN. -/
def Val.exact : Val → ExactRes
  | .zero n => .zero n
  | .fin n m e => .fin n (magOf m e)
  | .inf n => .inf n
  | .nan _ _ _ => .invalid
  | .nar => .invalid

/-- a + b of numbers; a zero sum of unlike signs is +0, or −0 under RDN (R114). -/
def addExact (rm : BitVec 3) (a b : Val) : ExactRes :=
  match a, b with
  | .inf x, .inf y => if x = y then .inf x else .invalid
  | .inf x, _ => .inf x
  | _, .inf y => .inf y
  | .zero x, .zero y => .zero (if x = y then x else rm = rmRDN)
  | .zero _, v => v.exact
  | v, .zero _ => v.exact
  | .fin x m e, .fin y n k =>
    let at' := min e k
    let t := scaledInt x m e at' + scaledInt y n k at'
    if t = 0 then .zero (rm = rmRDN) else .fin (t < 0) (magOf t.natAbs at')
  | _, _ => .invalid

/-- a × b of numbers as a value; none where the product 0 × ∞ is invalid. -/
def mulVal (a b : Val) : Option Val :=
  match a, b with
  | .zero _, .inf _ => none
  | .inf _, .zero _ => none
  | .inf x, v => some (.inf (x != v.sign))
  | v, .inf y => some (.inf (v.sign != y))
  | .zero x, v => some (.zero (x != v.sign))
  | v, .zero y => some (.zero (v.sign != y))
  | .fin x m e, .fin y n k => some (.fin (x != y) (m * n) (e + k))
  | _, _ => none

/-- A quotient of naturals times 2^e, to at least 2^80 parts of its value. -/
def quotient (m n : Nat) (e : Int) : Mag :=
  let k := 96 + Nat.log2 n
  { m := m * 2 ^ k / n, e := e - k, st := m * 2 ^ k % n ≠ 0 }

/-- The integer square root, by bits from the highest. -/
def isqrt (n : Nat) : Nat :=
  (List.range (Nat.log2 n / 2 + 1)).reverse.foldl (fun r i => if (r + 2 ^ i) * (r + 2 ^ i) ≤ n then r + 2 ^ i else r) 0

/-- The square root of m × 2^e, to at least 2^80 parts of its value. -/
def rootMag (m : Nat) (e : Int) : Mag :=
  let k : Nat := 200 + (if (e - 200) % 2 = 0 then 0 else 1)
  let v := m * 2 ^ k
  let r := isqrt v
  { m := r, e := (e - k) / 2, st := r * r ≠ v }

/-- Finish an exact result in a format: the rounding, or the special (R59, R61, R62). -/
def finishExact (f : FloatFmt) (rm : BitVec 3) (flush : Bool) (gen : Word) : ExactRes → Rounded
  | .invalid => { bits := canonicalNan f, flags := flInvalid, gen := gen }
  | .inf n => { bits := (if n then f.signBit else 0) + (2 ^ f.eb - 1) * 2 ^ f.mb, flags := flNone, gen := gen }
  | .zero n => { bits := if n then f.signBit else 0, flags := flNone, gen := drawIf rm gen }
  | .fin n x => roundFloat f rm flush gen n x

/-- R62: the first NaN of the sources in the order given, quieted, invalid where any is signalling. -/
def nanResult (f : FloatFmt) (gen : Word) (vs : List Val) : Option Rounded :=
  match vs.find? Val.isNan with
  | some (.nan n _ p) =>
    some { bits := quietNan f n p, flags := if vs.any Val.signalling then flInvalid else flNone, gen := gen }
  | some _ => some { bits := canonicalNan f, flags := flInvalid, gen := gen }
  | none => none

/-! ### FP32 operations, on patterns (R114, R115, R116) -/

/-- An FP32 source under the flush control. -/
def src32 (flush : Bool) (w : Word) : Val := decodeFlush fFP32 flush w.toNat

/-- FP32 addition of two values. -/
def add32 (rm : BitVec 3) (flush : Bool) (gen : Word) (a b : Val) : Rounded :=
  match nanResult fp32 gen [a, b] with
  | some r => r
  | none => finishExact fp32 rm flush gen (addExact rm a b)

/-- FP32 multiplication. -/
def mul32 (rm : BitVec 3) (flush : Bool) (gen : Word) (a b : Val) : Rounded :=
  match nanResult fp32 gen [a, b] with
  | some r => r
  | none => finishExact fp32 rm flush gen (match mulVal a b with
    | some v => v.exact
    | none => .invalid)

/-- FP32 fused multiply-add, ±(a × b) ± c: an addend that is NaN wins, and 0 × ∞ is then invalid too (R62). -/
def fma32 (rm : BitVec 3) (flush : Bool) (gen : Word) (negP negC : Bool) (a b c : Val) : Rounded :=
  match nanResult fp32 gen [c, a, b] with
  | some r => if !a.isNan && !b.isNan && (mulVal a b).isNone then { r with flags := r.flags ||| flInvalid } else r
  | none => finishExact fp32 rm flush gen (match mulVal a b with
    | some p => addExact rm (if negP then p.negate else p) (if negC then c.negate else c)
    | none => .invalid)

/-- The exact quotient of numbers; a finite non-zero a over ±0 raises divide by zero. -/
def divExact (a b : Val) : ExactRes × BitVec 5 :=
  match a, b with
  | .zero _, .zero _ => (.invalid, flNone)
  | .inf _, .inf _ => (.invalid, flNone)
  | .inf x, v => (.inf (x != v.sign), flNone)
  | v, .inf y => (.zero (v.sign != y), flNone)
  | .zero x, v => (.zero (x != v.sign), flNone)
  | v, .zero y => (.inf (v.sign != y), flDivZero)
  | .fin x m e, .fin y n k => (.fin (x != y) (quotient m n (e - k)), flNone)
  | _, _ => (.invalid, flNone)

/-- FP32 division. -/
def div32 (rm : BitVec 3) (flush : Bool) (gen : Word) (a b : Val) : Rounded :=
  match nanResult fp32 gen [a, b] with
  | some r => r
  | none =>
    let (x, fl) := divExact a b
    let r := finishExact fp32 rm flush gen x
    { r with flags := r.flags ||| fl }

/-- FP32 square root: √−0 is −0, the root of a negative number is invalid. -/
def sqrt32 (rm : BitVec 3) (flush : Bool) (gen : Word) (a : Val) : Rounded :=
  match nanResult fp32 gen [a] with
  | some r => r
  | none => finishExact fp32 rm flush gen (match a with
    | .zero n => .zero n
    | .inf n => if n then .invalid else .inf false
    | .fin n m e => if n then .invalid else .fin false (rootMag m e)
    | .nan _ _ _ => .invalid
    | .nar => .invalid)

/-- Order of two numbers: less, with −0 below +0 when `zeros` is set. -/
def valLess (zeros : Bool) (a b : Val) : Bool :=
  match a, b with
  | .inf x, .inf y => x && !y
  | .inf x, _ => x
  | _, .inf y => !y
  | .zero x, .zero y => zeros && x && !y
  | .zero _, v => !v.sign
  | v, .zero _ => v.sign
  | .fin x m e, .fin y n k =>
    let at' := min e k
    scaledInt x m e at' < scaledInt y n k at'
  | _, _ => false

/-- The bits of a value that FP32 holds exactly. -/
def exactBits (v : Val) : Nat := (convert fFP32 rmRNE false 1 v).bits

/-- R115: minimum or maximum. -/
def minmax32 (isMax : Bool) (gen : Word) (a b : Val) : Rounded :=
  let pick (v : Val) : Rounded := { bits := exactBits v, flags := flNone, gen := gen }
  if a.signalling || b.signalling then (nanResult fp32 gen [a, b]).getD (pick a)
  else if a.isNan && b.isNan then (nanResult fp32 gen [a]).getD (pick a)
  else if a.isNan then pick b
  else if b.isNan then pick a
  else if valLess true a b != isMax then pick a else pick b

/-- R116: a condition 0 eq, 1 lt, 2 le, 3 un, and the flags it raises. -/
def compare32 (cond : Nat) (a b : Val) : Bool × BitVec 5 :=
  let un := a.isNan || b.isNan
  let sn := a.signalling || b.signalling
  let lt := valLess false a b
  let eq := !un && !lt && !valLess false b a
  match cond with
  | 0 => (eq, if sn then flInvalid else flNone)
  | 1 => (!un && lt, if un then flInvalid else flNone)
  | 2 => (!un && (lt || eq), if un then flInvalid else flNone)
  | _ => (un, if sn then flInvalid else flNone)

/-- R120: round an FP32 value to an integral value by the mode. A value that rounds to zero keeps its sign (DEDUCED, log entry 56); a
zero takes a draw in SR mode as every value does (DEDUCED, log entry 20). -/
def integral32 (rm : BitVec 3) (gen : Word) (a : Val) : Rounded :=
  match nanResult fp32 gen [a] with
  | some r => r
  | none => match a with
    | .fin n m e =>
      let g := drawIf rm gen
      let (k, inx) := roundAt rm (g.toNat % 2 ^ 16) n (magOf m e) 0
      { bits := exactBits (Val.of n k 0), flags := if inx then flInexact else flNone, gen := g }
    | .zero n => { bits := exactBits (.zero n), flags := flNone, gen := drawIf rm gen }
    | v => { bits := exactBits v, flags := flNone, gen := gen }

/-- R118: the class bit of an FP32 pattern. -/
def class32 (w : Word) : Nat :=
  let sub := isSubnormal fFP32 w.toNat
  match decodeVal fFP32 w.toNat with
  | .inf n => if n then 0 else 7
  | .fin n _ _ => if n then (if sub then 2 else 1) else (if sub then 5 else 6)
  | .zero n => if n then 3 else 4
  | .nan _ q _ => if q then 9 else 8
  | .nar => 9

/-! ### Block scales (R71, R72) -/

/-- The block length of a scale mode; 0 where there is none. -/
def blockLen (mode : Nat) : Nat := if mode = 1 then 32 else if 2 ≤ mode && mode ≤ 4 then 16 else 0

/-- The format of a scale mode's scales. -/
def scaleFmt (mode : Nat) : Nat := if mode = 3 then fE4M3 else fE8M0

/-- A value times a block scale, exactly; a scale of NaN makes it NaN (R71), and so does an infinity under a zero scale
(DEDUCED, log entry 56). -/
def applyScale (v scale : Val) : Val :=
  if scale.isNan then .nar
  else if v.isNan then v
  else match v, scale with
    | a, b => (mulVal a b).getD .nar

/-- The largest finite exponent of a destination of `quant` (R72). -/
def emax (f : Nat) : Int :=
  match floatFmt f with
  | some ff => ((ff.maxPat / 2 ^ ff.mb : Nat) : Int) - ff.bias
  | none => match tapered f with
    | some (n, es) => (n - 2 : Nat) * 2 ^ es
    | none => match intRange f with
      | some (_, _, hi) => if hi = 0 then 0 else (Nat.log2 hi.toNat : Int)
      | none => 0

/-- The largest finite value of a destination of `quant`. -/
def maxVal (f : Nat) : Val :=
  match floatFmt f with
  | some ff => decodeFloat ff ff.maxPat
  | none => match tapered f with
    | some (n, es) => .fin false 1 ((n - 2 : Nat) * 2 ^ es)
    | none => match intRange f with
      | some (_, _, hi) => Val.ofInt hi
      | none => .fin false 1 0

/-- The scale that a converter chooses for a block of maximum magnitude a (R72), as its pattern. Exp(a) for a format
without an emax of its own in R72 is taken against the format's largest finite value (DEDUCED, log entry 21). -/
def chooseScale (mode f : Nat) (a : Val) : Nat :=
  match a with
  | .zero _ => if mode = 3 then 0x08 else 0x00
  | .fin _ m e =>
    if mode = 3 then
      match maxVal f with
      | .fin _ n k =>
        let r := roundTo fE4M3 rmRUP false 1 false (quotient m n (e - k))
        max 0x01 (min 0x7E r.bits)
      | _ => 0x08
    else
      let x := (magOf m e).exp - emax f + 127
      (max 0 (min 254 x)).toNat
  | _ => if mode = 3 then 0x7F else 0xFF

/-- A value divided by a chosen scale and rounded into a format (R72). Under a NaN scale every element is converted as a
positive quiet NaN (DEDUCED, log entry 56). -/
def divideRound (f : Nat) (rm : BitVec 3) (flush : Bool) (gen : Word) (v scale : Val) : Rounded :=
  match v, scale with
  | .fin x m e, .fin y n k => roundTo f rm flush gen (x != y) (quotient m n (e - k))
  | v, scale => convert f rm flush gen (if scale.isNan then .nan false true 0 else v)

/-! ### The tensor-ID entry (R73, R74) -/

/-- Bits [hi:lo] of an entry. -/
def entField (e : Entry512) (hi lo : Nat) : Nat := e.toNat / 2 ^ lo % 2 ^ (hi + 1 - lo)

def entFormat (e : Entry512) : Nat := entField e 7 0
def entScale (e : Entry512) : Nat := entField e 10 8
def entRm (e : Entry512) : BitVec 3 := e.extractLsb' 11 3
def entFlush (e : Entry512) : Bool := e.getLsbD 14
def entRank (e : Entry512) : Nat := entField e 17 16 + 1
def entBase (e : Entry512) : Nat := entField e 307 256
def entScaleBase (e : Entry512) : Nat := entField e 371 320
def entTscale (e : Entry512) : Word := e.extractLsb' 384 32
def entSeed (e : Entry512) : Word := e.extractLsb' 416 32
def entWidth (e : Entry512) : Nat := fmtWidth (entFormat e)

/-- Extent of dimension j: 1 at or above the rank. -/
def entDim (e : Entry512) (j : Nat) : Nat := if j < entRank e then entField e (63 + 32 * j) (32 + 32 * j) else 1

/-- Distance in elements of consecutive indices of dimension j. -/
def entStride (e : Entry512) (j : Nat) : Nat := if j = 0 then 1 else entField e (159 + 32 * j) (128 + 32 * j)

/-- Elements of a tensor and rows of dimension 0. -/
def entCount (e : Entry512) : Nat := entDim e 0 * entDim e 1 * entDim e 2 * entDim e 3
def entRows (e : Entry512) : Nat := entDim e 1 * entDim e 2 * entDim e 3

/-- The reserved fields of an entry are zero. -/
def entReservedOk (e : Entry512) : Bool :=
  entField e 511 448 = 0 && entField e 383 372 = 0 && entField e 319 308 = 0 && entField e 31 18 = 0 && entField e 15 15 = 0

/-- R74, but for its last case: what the entry shows of itself. -/
def entBad (e : Entry512) : Bool :=
  entFormat e > 0x19 || entScale e > 4 || (entScale e ≠ 0 && entWidth e > 8) || (entRm e).toNat > 5 ||
  !entReservedOk e || (List.range (entRank e)).any (fun j => entDim e j = 0) ||
  (List.range (entRank e)).any (fun j => 1 ≤ j && entStride e j * entWidth e % 8 ≠ 0)

/-- Does R50 let the matrix array read the format? -/
def isMatrixFmt (f : Nat) : Bool := f ≤ 0x17

/-- The element index of position k in index order, dimension 0 fastest. -/
def entIndex (e : Entry512) (k : Nat) : List Nat :=
  let d0 := entDim e 0
  let d1 := entDim e 1
  let d2 := entDim e 2
  [k % d0, k / d0 % d1, k / (d0 * d1) % d2, k / (d0 * d1 * d2)]

/-- The offset in elements of position k from the start (R185, R254). -/
def entOffset (e : Entry512) (k : Nat) : Nat :=
  match entIndex e k with
  | [a, b, c, d] => a + b * entStride e 1 + c * entStride e 2 + d * entStride e 3
  | _ => 0

/-- Blocks in a row of dimension 0 under the entry's scale mode. -/
def entBlocks (e : Entry512) : Nat :=
  let b := blockLen (entScale e)
  if b = 0 then 0 else (entDim e 0 + b - 1) / b

/-- The number, in order, of the block that holds position k (R71). -/
def entBlockOf (e : Entry512) (k : Nat) : Nat :=
  k / entDim e 0 * entBlocks e + k % entDim e 0 / blockLen (entScale e)

/-! ### The D-format and carry-save accumulation (R58, R65 to R69) -/

/-- The D-format of a decoded value, block scale applied (R58); exact for every matrix format. -/
def toD : Val → DVal
  | .zero _ => { cls := .fin, sign := false, x := 0, m := 0 }
  | .inf n => { cls := if n then .negInf else .posInf, sign := n, x := 0, m := 0 }
  | .nan _ _ _ => { cls := .invalid, sign := false, x := 0, m := 0 }
  | .nar => { cls := .invalid, sign := false, x := 0, m := 0 }
  | .fin n m e =>
    let sh : Int := 15 - Nat.log2 m
    let m' := if 0 ≤ sh then m * 2 ^ sh.toNat else m / 2 ^ (-sh).toNat
    { cls := .fin, sign := n, x := BitVec.ofInt 10 (e - sh + 526), m := BitVec.ofNat 16 m' }

/-- Zero in the D-format. -/
def dZero : DVal := { cls := .fin, sign := false, x := 0, m := 0 }

/-- The value of a D-format operand. -/
def fromD (d : DVal) : Val :=
  match d.cls with
  | .fin => Val.of d.sign d.m.toNat ((d.x.toNat : Int) - 526)
  | .posInf => .inf false
  | .negInf => .inf true
  | .invalid => .nar

/-- A CST of a sum: only S + C is architectural, and the split is left open (R65; DEDUCED, log entry 13). -/
def mkCst (v : Int) (e : Int) (st : NumClass) : Cst :=
  let sum := BitVec.ofInt 112 v
  let c := Config.carryPart sum.toNat
  { s := sum - c, c := c, e := BitVec.ofInt 12 e, st := st }

/-- A fresh CST (R65). -/
def freshCst : Cst := { s := 0, c := 0, e := BitVec.ofInt 12 (-2048), st := .fin }

/-- S + C. -/
def Cst.sum (x : Cst) : Int := (x.s + x.c).toInt

/-- Exp of the CST's value; none for zero. -/
def Cst.exp (x : Cst) : Option Int :=
  if x.sum = 0 then none else some ((Nat.log2 x.sum.natAbs : Int) + x.e.toInt - 96)

/-- The worse of two states (R68). -/
def NumClass.meet (a b : NumClass) : NumClass :=
  match a, b with
  | .fin, y => y
  | x, .fin => x
  | .posInf, .posInf => .posInf
  | .negInf, .negInf => .negInf
  | _, _ => .invalid

/-- floor(x / 2^k), k possibly negative. -/
def floorShift (x : Int) (k : Int) : Int := if 0 ≤ k then x / 2 ^ k.toNat else x * 2 ^ (-k).toNat

/-- The class of a product (R68): 0 × ∞ and any invalid operand make it invalid. -/
def productClass (a b : DVal) : NumClass :=
  if a.cls = .invalid || b.cls = .invalid then .invalid
  else match mulVal (fromD a) (fromD b) with
  | none => .invalid
  | some (.inf n) => if n then .negInf else .posInf
  | some .nar => .invalid
  | some (.nan _ _ _) => .invalid
  | some (.fin _ _ _) => .fin
  | some (.zero _) => .fin

/-- The product of two D-format operands as an integer times 2^e; zero where it is not finite. -/
def productInt (a b : DVal) : Int × Int :=
  match mulVal (fromD a) (fromD b) with
  | some (.fin n m e) => (scaledInt n m e e, e)
  | _ => (0, 0)

/-- Exp of a product; none for zero. -/
def productExp (p : Int × Int) : Option Int := if p.1 = 0 then none else some ((Nat.log2 p.1.natAbs : Int) + p.2)

/-- The greater of an exponent and one that may be absent, plus 2. -/
def raiseTo (e : Int) (x : Option Int) : Int :=
  match x with
  | some v => max e (v + 2)
  | none => e

/-- R66, R68: one K-block of products enters a CST. -/
def cstBlock (x : Cst) (ps : List (DVal × DVal)) : Cst :=
  let st := ps.foldl (fun s p => s.meet (productClass p.1 p.2)) x.st
  if st ≠ .fin then { x with st := st }
  else
    let qs := ps.map fun p => productInt p.1 p.2
    let e2 := raiseTo (qs.foldl (fun e q => raiseTo e (productExp q)) x.e.toInt) x.exp
    let v := qs.foldl (fun v q => v + floorShift q.1 (e2 - 96 - q.2)) (floorShift x.sum (e2 - x.e.toInt))
    mkCst v e2 .fin

/-- R67, R68: two CSTs combine. A sum whose state is not 00 carries S, C and E of the first (DEDUCED, log entry 56). -/
def cstAdd (x y : Cst) : Cst :=
  let st := x.st.meet y.st
  if st ≠ .fin then { x with st := st }
  else
    let e2 := raiseTo (raiseTo (max x.e.toInt y.e.toInt) x.exp) y.exp
    mkCst (floorShift x.sum (e2 - x.e.toInt) + floorShift y.sum (e2 - y.e.toInt)) e2 .fin

/-- R69: resolve a CST into FP32, BF16 or FP16, with the per-tensor scale where there is one. The flush control does not
reach the scale, a NaN scale gives its quieted NaN, and an infinity state takes no scale, whatever its sign or value (DEDUCED, log
entry 56). -/
def cstResolve (f : FloatFmt) (rm : BitVec 3) (flush : Bool) (gen : Word) (tscale : Option Word) (x : Cst) : Rounded :=
  match x.st with
  | .invalid => { bits := canonicalNan f, flags := flInvalid, gen := gen }
  | .posInf => finishExact f rm flush gen (.inf false)
  | .negInf => finishExact f rm flush gen (.inf true)
  | .fin =>
    let v := Val.ofScaled x.sum (x.e.toInt - 96)
    if x.sum = 0 then finishExact f rm flush gen (.zero false)
    else match tscale with
      | none => finishExact f rm flush gen v.exact
      | some t =>
        let tv := decodeVal fFP32 t.toNat
        match nanResult f gen [tv] with
        | some r => r
        | none => finishExact f rm flush gen (match mulVal v tv with
          | some p => p.exact
          | none => .invalid)

/-- The 256-bit image of a CST (R145). -/
def NumClass.code : NumClass → Nat
  | .fin => 0
  | .posInf => 1
  | .negInf => 2
  | .invalid => 3

/-- The class of a code. -/
def classOf (n : Nat) : NumClass :=
  match n with
  | 0 => .fin
  | 1 => .posInf
  | 2 => .negInf
  | _ => .invalid

/-- The CST group of a CST: eight words (R145). -/
def cstWords (x : Cst) : List Word :=
  let v := x.s.toNat + x.c.toNat * 2 ^ 112 + x.e.toNat * 2 ^ 224 + x.st.code * 2 ^ 236
  (List.range 8).map fun j => BitVec.ofNat 32 (v / 2 ^ (32 * j))

/-- The CST of a group of eight words. -/
def cstOfWords (ws : List Word) : Cst :=
  let v := (List.range 8).foldl (fun n j => n + ((ws[j]?).getD 0).toNat * 2 ^ (32 * j)) 0
  { s := BitVec.ofNat 112 v, c := BitVec.ofNat 112 (v / 2 ^ 112), e := BitVec.ofNat 12 (v / 2 ^ 224)
    st := classOf (v / 2 ^ 236 % 4) }

end Sys2Proof.Machine
end

