-- ==== Sys2Proof/Machine/Trans.lean ====
section
/-! DEFINITION. The functions of R134: frsq, fexp2, flog2, ftanh. Each returns one of the two FP32 values that bracket
the exact result, which of them the manual leaves open (Config.approxUp). The bracket is found from more than 90 bits
of the exact result (DEDUCED, log entry 11). -/

namespace Sys2Proof.Machine

/-- Numbers of the functions in Config.approxUp. -/
def fnRsq : Nat := 0
def fnExp2 : Nat := 1
def fnLog2 : Nat := 2
def fnTanh : Nat := 3

/-- Pick the result from the bracket of an exact magnitude: the exact value where FP32 holds it, else the lower or upper
neighbour; a tiny result is flagged or flushed by R61. -/
def pickBracket (fn : Nat) (src : Word) (flush : Bool) (gen : Word) (neg : Bool) (x : Mag) : Rounded :=
  let lo := roundFloat fp32 rmRTZ false gen false x
  let sgn := if neg then fp32.signBit else 0
  let exact := lo.flags = flNone
  let pat := if exact then lo.bits else if Config.approxUp fn src != neg then lo.bits + 1 else lo.bits
  let tiny := pat < 0x00800000
  if tiny && flush then { bits := sgn, flags := flUnderflow ||| flInexact, gen := gen }
  else
    { bits := sgn + pat
      flags := if exact then flNone else if tiny then flUnderflow ||| flInexact else flInexact
      gen := gen }

/-- A result that is no rounding. -/
def fixedResult (gen : Word) (bits : Nat) (flags : BitVec 5) : Rounded := { bits := bits, flags := flags, gen := gen }

/-- 1 / √(m × 2^e). -/
def rsqMag (m : Nat) (e : Int) : Mag :=
  let k := (e + 300) / 2
  let s := (2 * k - e).toNat
  let r := isqrt (2 ^ s / m)
  { m := r, e := -k, st := r * r * m ≠ 2 ^ s }

/-- `frsq` (R134). -/
def frsq32 (flush : Bool) (gen : Word) (w : Word) : Rounded :=
  match src32 flush w with
  | .zero n => fixedResult gen (if n then 0xFF800000 else 0x7F800000) flDivZero
  | .inf n => if n then fixedResult gen 0x7FC00000 flInvalid else fixedResult gen 0 flNone
  | .fin n m e => if n then fixedResult gen 0x7FC00000 flInvalid else pickBracket fnRsq w flush gen false (rsqMag m e)
  | v => (nanResult fp32 gen [v]).getD (fixedResult gen 0x7FC00000 flInvalid)

/-- 2^(2^−i) as a multiple of 2^−256, for i from 0: repeated square roots. -/
def rootsOfTwo : Nat → Nat → List Nat
  | 0, _ => []
  | n + 1, c =>
    let r := isqrt (c * 2 ^ 256)
    r :: rootsOfTwo n r

/-- 2^(f / 2^k) as a multiple of 2^−256. -/
def exp2Frac (f k : Nat) : Nat :=
  (((rootsOfTwo k (2 ^ 257)).mapIdx fun i r => (i, r)).foldl
    (fun acc p => if f.testBit (k - 1 - p.1) then acc * p.2 / 2 ^ 256 else acc) (2 ^ 256))

/-- 2^(±m × 2^e) for |x| < 256. -/
def exp2Mag (neg : Bool) (m : Nat) (e : Int) : Mag :=
  if 0 ≤ e then
    let n : Int := m * 2 ^ e.toNat
    { m := 1, e := if neg then -n else n, st := false }
  else
    let k := (-e).toNat
    let x : Int := if neg then -(m : Int) else m
    let n := x / 2 ^ k
    let f := (x % 2 ^ k).toNat
    if f = 0 then { m := 1, e := n, st := false } else { m := exp2Frac f k, e := n - 256, st := true }

/-- `fexp2` (R134). -/
def fexp232 (flush : Bool) (gen : Word) (w : Word) : Rounded :=
  match src32 flush w with
  | .zero _ => fixedResult gen 0x3F800000 flNone
  | .inf n => fixedResult gen (if n then 0 else 0x7F800000) flNone
  | .fin n m e =>
    let big := (magOf m e).exp
    if !n && 7 ≤ big then fixedResult gen 0x7F800000 (flOverflow ||| flInexact)
    else if n && 8 ≤ big then pickBracket fnExp2 w flush gen false { m := 1, e := -400, st := true }
    else pickBracket fnExp2 w flush gen false (exp2Mag n m e)
  | v => (nanResult fp32 gen [v]).getD (fixedResult gen 0x7FC00000 flInvalid)

/-- Bits of log2 of y / 2^256 in [1, 2), from the highest. -/
def log2Bits : Nat → Nat → Nat → Nat
  | 0, _, acc => acc
  | n + 1, y, acc =>
    let z := y * y / 2 ^ 256
    if z ≥ 2 ^ 257 then log2Bits n (z / 2) (2 * acc + 1) else log2Bits n z (2 * acc)

/-- `flog2` (R134). -/
def flog232 (flush : Bool) (gen : Word) (w : Word) : Rounded :=
  match src32 flush w with
  | .zero _ => fixedResult gen 0xFF800000 flDivZero
  | .inf n => if n then fixedResult gen 0x7FC00000 flInvalid else fixedResult gen 0x7F800000 flNone
  | .fin n m e =>
    if n then fixedResult gen 0x7FC00000 flInvalid
    else
      let x := (magOf m e).exp
      if m = 2 ^ Nat.log2 m then fixedResult gen (exactBits (Val.ofInt x)) flNone
      else
        let t : Int := x * 2 ^ 96 + log2Bits 96 (m * 2 ^ (256 - Nat.log2 m)) 0
        if 0 ≤ t then pickBracket fnLog2 w flush gen false { m := t.toNat, e := -96, st := true }
        else pickBracket fnLog2 w flush gen true { m := t.natAbs - 1, e := -96, st := true }
  | v => (nanResult fp32 gen [v]).getD (fixedResult gen 0x7FC00000 flInvalid)

/-- e^y − 1 as a multiple of 2^−320, by its series: `k` the next term's number, t the last term. -/
def expm1Sum (y : Nat) : Nat → Nat → Nat → Nat → Nat
  | 0, _, _, acc => acc
  | fuel + 1, k, t, acc =>
    let t' := t * y / (k * 2 ^ 320)
    expm1Sum y fuel (k + 1) t' (acc + t')

/-- tanh(m × 2^e). -/
def tanhMag (m : Nat) (e : Int) : Mag :=
  let big := (magOf m e).exp
  if 4 ≤ big then { m := 2 ^ 60 - 1, e := -60, st := true }
  else if big < -40 then { m := m * 2 ^ 100 - 1, e := e - 100, st := true }
  else
    let y := floorShift (2 * m) (-(e + 320))
    let x := expm1Sum y.toNat 200 1 (2 ^ 320) 0
    { m := x * 2 ^ 300 / (x + 2 ^ 321), e := -300, st := true }

/-- `ftanh` (R134). -/
def ftanh32 (flush : Bool) (gen : Word) (w : Word) : Rounded :=
  match src32 flush w with
  | .zero n => fixedResult gen (if n then 0x80000000 else 0) flNone
  | .inf n => fixedResult gen (if n then 0xBF800000 else 0x3F800000) flNone
  | .fin n m e => pickBracket fnTanh w flush gen n (tanhMag m e)
  | v => (nanResult fp32 gen [v]).getD (fixedResult gen 0x7FC00000 flInvalid)

end Sys2Proof.Machine
end

