-- ==== Sys2Proof/Machine/Units.lean ====
section
/-! DEFINITION. The units of the fabric: what a unit reads and where its result goes (R38, R39, R123, R125), the output
slot (R126, R127), ports (R130), boundary queues and the source station (R170, R188), the issue gate (R171), sinks
(R173) and the channels of the router (R149, R351). -/

namespace Sys2Proof.Machine

/-! ### Tokens (R43) -/

def kData : BitVec 3 := 0
def kEor : BitVec 3 := 1
def kEot : BitVec 3 := 2
def kErr : BitVec 3 := 3
def kBound : BitVec 3 := 4
def kDone : BitVec 3 := 5
def kRelatch : BitVec 3 := 6

/-- A DATA token. -/
def dataTok (v : Word) : Token := { kind := kData, data := v }
/-- An EOR. -/
def eorTok : Token := { kind := kEor, data := 0 }
/-- An EOT. -/
def eotTok : Token := { kind := kEot, data := 0 }
/-- The token closes an item: EOR, EOT or ERR (R170, R188). -/
def Token.closes (k : Token) : Bool := k.kind = kEor || k.kind = kEot || k.kind = kErr
/-- EOR or EOT. -/
def Token.ends (k : Token) : Bool := k.kind = kEor || k.kind = kEot
/-- The token is DATA. -/
def Token.isData (k : Token) : Bool := k.kind = kData
/-- The token is an ERR. -/
def Token.isErr (k : Token) : Bool := k.kind = kErr

/-! ### Configuration words of a tile -/

/-- The word of an enabled element slot. -/
def Tile.el (x : Tile) (n : Nat) : Option ElWord :=
  let w := unpackEl (x.slot n)
  if n < 328 && w.enable then some w else none

/-- The op code of an element slot. -/
def Tile.elOp (x : Tile) (n : Nat) : Nat := ((x.slot n).extractLsb' 0 7).toNat

/-- The word of an enabled router operator slot. -/
def Tile.router (x : Tile) (n : Nat) : Option RouterWord :=
  let w := unpackRouter ((x.slot n).setWidth 64)
  if 328 ≤ n && n < 360 && w.enable then some w else none

/-- The operator code of a router slot. -/
def Tile.routerOp (x : Tile) (n : Nat) : Nat := ((x.slot n).extractLsb' 0 3).toNat

/-- The slots of the enabled units and operators. -/
def Tile.enabled (x : Tile) : List Nat :=
  (x.slots.map Prod.fst).filter fun n => (x.el n).isSome || (x.router n).isSome

/-- The station of a unit or operator. -/
def Tile.stationOf (x : Tile) (n : Nat) : Nat :=
  match x.el n with
  | some w => w.station.toNat
  | none => match x.router n with
    | some w => w.station.toNat
    | none => 0

/-- The inputs that an operation reads (R125, and each operation's entry). -/
def usedInputs (op sub : Nat) : List Nat :=
  if op = 0x03 || op = 0x0D || op = 0x13 || op = 0x34 || op = 0x36 || op = 0x50 then [0, 1, 2]
  else if op < 0x17 || op = 0x18 || op = 0x24 || op = 0x25 || op = 0x35 || op = 0x37 || op = 0x3B || op = 0x3C then [0, 1]
  else if op = 0x40 then (if sub % 4 = 0 then [] else [0])
  else if op = 0x49 then (if sub.testBit 4 then [] else [0])
  else if op = 0x4B then (if sub.testBit 4 then [1] else [0, 1])
  else if op = 0x4A then []
  else [0]

/-- The selector of an input. -/
def elInput (w : ElWord) (i : Nat) : Nat :=
  match i with
  | 0 => w.in0.toNat
  | 1 => w.in1.toNat
  | _ => w.in2.toNat

/-- The selectors of a word that are no reserved fields: `agen` has in0 alone (R202; DEDUCED, log entry 74). -/
def elSelectors (op : Nat) (w : ElWord) : List Nat :=
  if op = 0x40 then [w.in0.toNat] else [w.in0.toNat, w.in1.toNat, w.in2.toNat]

/-- The selector that reads k. -/
def selK : Nat := 1023

/-- The selector of an element's or accumulator's own output; none for any other unit (R123). -/
def selOf (slot : Nat) : Option Nat :=
  if slot < 256 then some slot
  else if 312 ≤ slot && slot < 328 then some (slot + 48)
  else none

/-- The slot of the unit that a selector names. -/
def slotOfSel (sel : Nat) : Option Nat :=
  if sel < 256 then some sel else if 360 ≤ sel && sel < 376 then some (sel - 48) else none

/-- The channels that an operator reads (R45, R150, R151). -/
def operatorReads (op : Nat) (w : RouterWord) : List Nat :=
  match op with
  | 0 => [w.inA.toNat, w.ctl.toNat]
  | 1 => [w.inA.toNat, w.inB.toNat]
  | 2 => [w.inA.toNat, w.inB.toNat, w.ctl.toNat]
  | 3 => [w.inA.toNat]
  | _ => [w.inA.toNat, w.ctl.toNat]

/-- The channels that an operator writes. -/
def operatorWrites (op : Nat) (w : RouterWord) : List Nat :=
  if op = 0 || op = 3 then [w.out0.toNat, w.out1.toNat] else [w.out0.toNat]

/-- What an accumulator receives is a source of its own: 376 + its number. -/
def accSource (i : Nat) : Nat := 376 + i

/-- The sources that a unit or operator of a tile reads, as selectors (channel c is 320 + c). -/
def Tile.reads (x : Tile) (n : Nat) : List Nat :=
  match x.el n with
  | some w =>
    if 312 ≤ n && n < 328 then [accSource (n - 312)]
    else ((usedInputs (x.elOp n) w.sub.toNat).map (elInput w)).filter fun v => v ≠ selK
  | none => match x.router n with
    | some w => (operatorReads (x.routerOp n) w).map fun c => 320 + c
    | none => []

/-- What a unit or operator delivers to, beside its own output: fo p as 0x40 + p, channel c as 0x80 + c, accumulator i as
0xC0 + i. -/
def Tile.deliveries (x : Tile) (n : Nat) : List Nat :=
  match x.el n with
  | some w => if w.route.toNat = 0 then [] else [w.route.toNat]
  | none => match x.router n with
    | some w => ((operatorWrites (x.routerOp n) w).map fun c => 0x80 + c).eraseDups
    | none => []

/-- The units and operators of a tile that read a source. -/
def Tile.readers (x : Tile) (sel : Nat) : List Nat := x.enabled.filter fun n => (x.reads n).contains sel

/-- The readers of a source in a station. -/
def Tile.readersIn (x : Tile) (sel st : Nat) : List Nat := (x.readers sel).filter fun n => x.stationOf n = st

/-- The unit whose route has a value. -/
def Tile.routesTo (x : Tile) (route : Nat) : Option Nat :=
  x.enabled.find? fun n => match x.el n with
    | some w => w.route.toNat = route
    | none => false

/-! ### The mesh (R149, R351) -/

/-- A tile with an edge link (R351). -/
def hasEdge (t : Nat) : Bool :=
  let c := t % 80 / 8
  let p := t % 8
  (5 ≤ c && (p = 3 || p = 7)) || (p = 0 || p = 4)

/-- The numbers of a list, each once, in an order that choices give: each choice takes one of those left. -/
def dealt (pick : Nat → Nat) : Nat → List Nat → List Nat
  | 0, _ => []
  | n + 1, left =>
    let i := pick n % left.length
    left.getD i 0 :: dealt pick n (left.eraseIdx i)

/-- The columns of blocks of a die: a divisor of ten. -/
def blockColumns : Nat := [1, 2, 5, 10].getD (Config.blockColumns % 4) 1

/-- The row and column of a tile in the mesh of its die (R2, R3): its cluster fills a 2 × 4 block, the ten blocks of a die fill
its mesh, and the free constants say which block each cluster has and which of its eight places each position (DEDUCED, log entry 12). -/
def meshPlace (t : Nat) : Nat × Nat :=
  let die := t / 80 % 2
  let b := (dealt (Config.blockPick die) 10 (List.range 10)).getD (t % 80 / 8) 0
  let k := (dealt (Config.spotPick die) 8 (List.range 8)).getD (t % 8) 0
  let (row, col) := (b / blockColumns, b % blockColumns)
  if Config.tall then (4 * row + k / 2, 2 * col + k % 2) else (2 * row + k / 4, 4 * col + k % 4)

/-- The tile of a die that stands at a place of its mesh. -/
def meshTile (gdie : Nat) (p : Nat × Nat) : Option Nat :=
  ((List.range 80).map (80 * gdie + ·)).find? fun t => meshPlace t = p

/-- The place next to one in a mesh direction: 0 north, 1 east, 2 south, 3 west; none beyond the first row or column. -/
def meshStep (p : Nat × Nat) (dir : Nat) : Option (Nat × Nat) :=
  match dir with
  | 0 => if p.1 = 0 then none else some (p.1 - 1, p.2)
  | 1 => some (p.1, p.2 + 1)
  | 2 => some (p.1 + 1, p.2)
  | _ => if p.2 = 0 then none else some (p.1, p.2 - 1)

/-- The neighbour of a tile in the mesh of its die (R2, R149). -/
def meshNeighbour (t dir : Nat) : Option Nat := (meshStep (meshPlace t) dir).bind (meshTile (t / 80))

/-- The tile from which incoming channels of a direction come, and to which outgoing ones go. The edge of a tile that
borders the die-to-die interface is its partner on the other die. -/
def neighbour (t dir : Nat) : Option Nat :=
  if dir < 4 then meshNeighbour t dir
  else if 5 ≤ t % 80 / 8 && (t % 8 = 3 || t % 8 = 7) then
    some (if t % 160 < 80 then t + 80 else t - 80)
  else none

/-- The channel of the neighbour that feeds an incoming channel: the opposite direction, the same virtual channel. -/
def facing (c : Nat) : Nat :=
  let dir := c / 8
  (if dir < 4 then (dir + 2) % 4 else 4) * 8 + c % 8

/-- The unit or operator (tile, slot) that feeds an outgoing channel of a tile, following the channel maps backward (R149,
R170). -/
def State.channelFeeder (s : State) : Nat → Nat → Nat → Option (Nat × Nat)
  | 0, _, _ => none
  | fuel + 1, t, c =>
    let x := s.tile t
    match x.routesTo (0x80 + c) with
    | some n => some (t, n)
    | none =>
      let op := x.enabled.find? fun n => match x.router n with
        | some w => (operatorWrites (x.routerOp n) w).contains c
        | none => false
      match op with
      | some n => some (t, n)
      | none => match (List.range 40).find? fun e => x.chanEntry e = c with
        | none => none
        | some e => match neighbour t (e / 8) with
          | none => none
          | some u => s.channelFeeder fuel u (facing e)

/-- The unit or operator (tile, slot) whose tokens a source of a tile gives; none for a port. -/
def State.sourceUnit (s : State) (t sel : Nat) : Option (Nat × Nat) :=
  match slotOfSel sel with
  | some n => some (t, n)
  | none =>
    if 376 ≤ sel then ((s.tile t).routesTo (0xC0 + (sel - 376))).map fun n => (t, n)
    else if 320 ≤ sel then match neighbour t ((sel - 320) / 8) with
      | none => none
      | some u => s.channelFeeder 6400 u (facing (sel - 320))
    else none

/-- The station that a source of a tile belongs to; none for a port. -/
def State.sourceStation (s : State) (t sel : Nat) : Option Nat :=
  (s.sourceUnit t sel).map fun u => (s.tile u.1).stationOf u.2

/-! ### Boundary queues (R170) -/

/-- The key of the boundary queue from a source of a tile to a station. -/
def queueKey (t sel station : Nat) : Nat := (t * 512 + sel) * 64 + station
/-- The reader's tile, source and station of a key. -/
def keyTile (k : Nat) : Nat := k / 64 / 512
def keySel (k : Nat) : Nat := k / 64 % 512
def keyStation (k : Nat) : Nat := k % 64

/-- The tag of a token that a bubble's beat gave. -/
def noItem : Nat := 4096

/-- Serial a comes after serial b (R170: modulo 4,096). -/
def later (a b : Nat) : Bool := 0 < (a + 4096 - b) % 4096 && (a + 4096 - b) % 4096 < 2048

/-- May a station that holds the item read a token with the tag? Not one of a later item. -/
def readableTag (item : Option Nat) (tag : Nat) : Bool :=
  tag = noItem || match item with
    | none => false
    | some k => !later tag k

/-- A station of a region. -/
def Region.station (r : Region) (n : Nat) : Station := r.stations[n]?.getD default
/-- Replace a station. -/
def Region.setStation (r : Region) (n : Nat) (st : Station) : Region := { r with stations := r.stations.set n st }

/-- Replace a region. -/
def State.setRegion (s : State) (l : Nat) (r : Region) : State := { s with regions := mapSet s.regions l r }

/-- The boundary queues that read a source of a tile: (key, queue). -/
def Region.queuesOf (r : Region) (t sel : Nat) : Map BoundaryQueue :=
  r.queues.filter fun q => keyTile q.1 = t && keySel q.1 = sel

/-- The station selects no boundary queue, and has a unit: a source station (R188). -/
def Region.isSource (s : State) (r : Region) (st : Nat) : Bool :=
  !(r.queues.any fun q => keyStation q.1 = st) &&
    r.tiles.any fun t => (s.tile t).enabled.any fun n => (s.tile t).stationOf n = st

/-- The tag that a station's tokens carry. -/
def Station.tag (st : Station) : Nat := st.item.getD noItem

/-- An fo port as an outlet of a station. -/
def foOutlet (t p : Nat) : Nat := 2 ^ 40 + t * 64 + p

/-- The outlets of a station (R170): the boundary queues that it fills and the fo ports that its units feed. -/
def Region.outlets (s : State) (r : Region) (st : Nat) : List Nat :=
  (r.queues.filter fun q => q.2.src = st).map Prod.fst ++
  r.tiles.flatMap fun t => (s.tile t).enabled.filterMap fun n => match (s.tile t).el n with
    | some w =>
      if w.station.toNat = st && 0x40 ≤ w.route.toNat && w.route.toNat < 0x80 then some (foOutlet t (w.route.toNat - 0x40))
      else none
    | none => none

/-- A closing token has left by an outlet (R170). -/
def Region.closeOutlet (r : Region) (st outlet : Nat) (k : Token) : Region :=
  if k.closes && !(r.station st).closed.contains outlet then
    r.setStation st { r.station st with closed := outlet :: (r.station st).closed }
  else r

/-- The queues of a source station, one for each port that it selects: their keys. -/
def State.sourceKeys (s : State) (r : Region) (st : Nat) : List Nat :=
  r.tiles.flatMap fun t => ((List.range 64).filter fun p => ((s.tile t).readersIn (256 + p) st) ≠ []).map fun p => queueKey t (256 + p) st

/-- An item of a source station has taken its closing token from every port that the station selects (R188). -/
def State.admittedWhole (s : State) (r : Region) (st : Nat) : Bool :=
  !r.isSource s st || (s.sourceKeys r st).all fun k => (mapGet r.source k).any BoundaryQueue.closed

/-- A station has finished its item (R170); a bubble has finished at once, and no item that its source has admitted in part (R188;
DEDUCED, log entry 75). -/
def Region.finished (s : State) (r : Region) (st : Nat) : Bool :=
  (r.station st).item.isNone ||
  (s.admittedWhole r st && (r.outlets s st).all fun o => (r.station st).closed.contains o)

/-- A token enters a boundary queue that has room; none where it holds 32. -/
def Region.fillQueue (r : Region) (key tag : Nat) (k : Token) : Option Region :=
  match mapGet r.queues key with
  | none => none
  | some q =>
    if q.fill.length < 32 then
      some (({ r with queues := mapSet r.queues key { q with fill := q.fill ++ [(tag, k)] } } : Region).closeOutlet q.src key k)
    else none

/-! ### Ports (R130) and sinks (R173) -/

/-- The empty port. -/
def Port.empty : Port := { q := [], taken := [], owners := [] }
/-- An fi port of a tile. -/
def Tile.fiPort (x : Tile) (p : Nat) : Port := (mapGet x.fi p).getD Port.empty
/-- An fo port of a tile. -/
def Tile.foPort (x : Tile) (p : Nat) : Port := (mapGet x.fo p).getD Port.empty
/-- Replace an fi port; an empty one is not listed. -/
def State.setFi (s : State) (t p : Nat) (q : Port) : State :=
  let x := s.tile t
  s.setTile t { x with fi := if q = Port.empty then mapErase x.fi p else mapSet x.fi p q }
/-- Replace an fo port; an empty one is not listed. -/
def State.setFo (s : State) (t p : Nat) (q : Port) : State :=
  let x := s.tile t
  s.setTile t { x with fo := if q = Port.empty then mapErase x.fo p else mapSet x.fo p q }

/-- A port has a free place. -/
def Port.room (q : Port) : Bool := q.q.length < 32

/-- A token enters an fi port. -/
def State.pushFi (s : State) (t p : Nat) (k : Token) : State :=
  let q := (s.tile t).fiPort p
  s.setFi t p { q with q := q.q ++ [k] }

/-- The sink of a port. -/
def Region.sinkOf (r : Region) (t p : Nat) : Option Nat :=
  r.sinks.findIdx? fun k => k.tile = t % 160 && k.port = p

/-- A sink counts the EOT and ERR tokens that enter its port. -/
def Sink.count (k : Sink) (tok : Token) : Sink :=
  if tok.kind = kEot then { k with seen := k.seen + 1 }
  else if tok.isErr then { k with err := true }
  else k

/-- The cause of the first ERR that a sink of a region counts (R177). -/
def Region.noteErr (r : Region) (tok : Token) : Region :=
  if tok.isErr && r.err.isNone then { r with err := some (tok.data.extractLsb' 25 7) } else r

/-- Replace a sink. -/
def Region.setSink (r : Region) (i : Nat) (k : Sink) : Region := { r with sinks := r.sinks.set i k }

/-- A token enters an fo port, and the sink of the port, if any, counts it. -/
def State.pushFo (s : State) (l t p : Nat) (k : Token) : State :=
  let q := (s.tile t).foPort p
  let s := s.setFo t p { q with q := q.q ++ [k] }
  match mapGet s.regions l with
  | none => s
  | some r => match r.sinkOf t p with
    | none => s
    | some i => s.setRegion l ((r.setSink i ((r.sinks[i]?.getD default).count k)).noteErr k)

/-- An ordered sink places what it holds in serial order while its port has room (R173). -/
def State.placeOrdered (l t p i : Nat) : Nat → State → State
  | 0, s => s
  | fuel + 1, s =>
    match mapGet s.regions l with
    | none => s
    | some r =>
      let k := r.sinks[i]?.getD default
      match mapGet k.window k.next with
      | some (tok :: rest) =>
        if !((s.tile t).foPort p).room then s
        else
          let k := if tok.closes then { k with window := mapErase k.window k.next, next := (k.next + 1) % 4096 }
            else { k with window := mapSet k.window k.next rest }
          State.placeOrdered l t p i fuel ((s.setRegion l (r.setSink i k)).pushFo l t p tok)
      | _ => s

/-- The ordered sink of an fo port, if any, places what it can. -/
def State.refill (s : State) (t p : Nat) : State :=
  match (s.tile t).live with
  | none => s
  | some l => match mapGet s.regions l with
    | none => s
    | some r => match r.sinkOf t p with
      | none => s
      | some i => if (r.sinks[i]?.getD default).ordered then s.placeOrdered l t p i 32 else s

/-- The head of an fo port leaves it. -/
def State.popFo (s : State) (t p : Nat) : State :=
  let q := (s.tile t).foPort p
  (s.setFo t p { q with q := q.q.drop 1, taken := [] }).refill t p

/-- A unit's token for an fo port: into the reorder window of an ordered sink, else into the port; none where the port
has no room (R127, R173). -/
def State.sendFo (s : State) (l t p st : Nat) (k : Token) : Option State :=
  match mapGet s.regions l with
  | none => none
  | some r =>
    let r' := r.closeOutlet st (foOutlet t p) k
    let ordered := match r.sinkOf t p with
      | some i => if (r.sinks[i]?.getD default).ordered && (r.station st).item.isSome then some i else none
      | none => none
    match ordered with
    | some i =>
      let sk := r.sinks[i]?.getD default
      let n := (r.station st).tag
      let sk := { sk with window := mapSet sk.window n ((mapGet sk.window n).getD [] ++ [k]) }
      some ((s.setRegion l (r'.setSink i sk)).placeOrdered l t p i 32)
    | none => if ((s.tile t).foPort p).room then some ((s.setRegion l r').pushFo l t p k) else none

/-! ### Channels -/

/-- Tokens in an outgoing channel. -/
def Tile.outChan (x : Tile) (c : Nat) : List Token := (mapGet x.chanOut c).getD []
/-- An incoming channel. -/
def Tile.inChan (x : Tile) (c : Nat) : Channel := (mapGet x.chanIn c).getD { q := [], taken := [], times := [] }
/-- A token enters an outgoing channel. -/
def State.pushChan (s : State) (t c : Nat) (k : Token) : State :=
  let x := s.tile t
  s.setTile t { x with chanOut := mapSet x.chanOut c (x.outChan c ++ [k]) }
/-- Does an outgoing channel have a free slot? -/
def Tile.chanRoom (x : Tile) (c : Nat) : Bool := (x.outChan c).length < 16
/-- Replace an incoming channel. -/
def State.setInChan (s : State) (t c : Nat) (q : Channel) : State :=
  let x := s.tile t
  s.setTile t { x with chanIn := if q.q = [] && q.times = [] then mapErase x.chanIn c else mapSet x.chanIn c q }

/-! ### The output slot (R127) -/

/-- Who must take the head of a unit's output: the readers of its own station, and 512 + d for the boundary queue to
station d. -/
def State.outReaders (s : State) (r : Region) (t slot : Nat) : List Nat :=
  match selOf slot with
  | none => []
  | some sel =>
    let x := s.tile t
    (x.readers sel).filter (fun n => x.stationOf n = x.stationOf slot) ++
      (r.queuesOf t sel).map fun q => 512 + keyStation q.1

/-- The route of a unit. -/
def Tile.routeOf (x : Tile) (slot : Nat) : Nat :=
  match x.el slot with
  | some w => w.route.toNat
  | none => 0

/-- A unit's results stand in or wait for its output slot. -/
def State.emit (s : State) (t slot : Nat) (ks : List Token) : State :=
  let u := (s.tile t).unitAt slot
  s.setUnit t slot { u with out := u.out ++ ks }

/-- The output slot empties when every reader has consumed the head and the route target has accepted it. -/
def State.settle (s : State) (r : Region) (t slot : Nat) : State :=
  let u := (s.tile t).unitAt slot
  if u.out = [] then s
  else if (u.routed || (s.tile t).routeOf slot = 0) && (s.outReaders r t slot).all fun n => u.taken.contains n then
    s.setUnit t slot { u with out := u.out.drop 1, taken := [], routed := false }
  else s

/-- A mark of no reader, by which a firing tells whether the token that stood in the slot has left. -/
def nobody : Nat := 511

/-- The last token of a unit's output waits for the unit alone: a unit may name its own output as an input (R126), and its
firing empties the slot. -/
def State.awaitsSelf (s : State) (r : Region) (t slot : Nat) : Bool :=
  let u := (s.tile t).unitAt slot
  let readers := s.outReaders r t slot
  u.out.length = 1 && readers.contains slot && (u.routed || (s.tile t).routeOf slot = 0) &&
    readers.all fun n => n = slot || u.taken.contains n

/-- Mark that the head of a unit's output has been taken by a reader. -/
def State.markTaken (s : State) (t slot id : Nat) : State :=
  let u := (s.tile t).unitAt slot
  s.setUnit t slot { u with taken := id :: u.taken }

/-- The head goes into the boundary queues that read the unit's own output and have room. -/
def State.handOn (s : State) (l t slot : Nat) (k : Token) : State :=
  match mapGet s.regions l, selOf slot with
  | some r, some sel => (r.queuesOf t sel).foldl (fun s q =>
      let id := 512 + keyStation q.1
      match mapGet s.regions l with
      | none => s
      | some r =>
        if ((s.tile t).unitAt slot).taken.contains id then s
        else match r.fillQueue q.1 (r.station ((s.tile t).stationOf slot)).tag k with
          | none => s
          | some r' => (s.setRegion l r').markTaken t slot id) s
  | _, _ => s

/-- The route target accepts the head if it can; an accumulator of the unit's own station takes it in its own turn. -/
def State.routeHead (s : State) (l t slot : Nat) (k : Token) : State :=
  let x := s.tile t
  let route := x.routeOf slot
  let u := x.unitAt slot
  let st := x.stationOf slot
  let done (s : State) : State := s.setUnit t slot { (s.tile t).unitAt slot with routed := true }
  if u.routed || route = 0 then s
  else if route < 0x80 then match s.sendFo l t (route - 0x40) st k with
    | some s' => done s'
    | none => s
  else if route < 0xC0 then (if x.chanRoom (route - 0x80) then done (s.pushChan t (route - 0x80) k) else s)
  else match mapGet s.regions l with
    | none => s
    | some r => match r.queuesOf t (accSource (route - 0xC0)) with
      | [] => s
      | q :: _ => match r.fillQueue q.1 (r.station st).tag k with
        | some r' => done (s.setRegion l r')
        | none => s

/-- A unit delivers what it can of its results, head first. -/
def State.deliver (l t slot : Nat) : Nat → State → State
  | 0, s => s
  | fuel + 1, s =>
    match ((s.tile t).unitAt slot).out with
    | [] => s
    | k :: rest =>
      let s := (s.handOn l t slot k).routeHead l t slot k
      match mapGet s.regions l with
      | none => s
      | some r =>
        let s' := s.settle r t slot
        if ((s'.tile t).unitAt slot).out = rest then State.deliver l t slot fuel s' else s'

/-! ### Reading an input -/

/-- Where an input stands. -/
inductive Src where
  | const
  | out (slot : Nat)
  | queue (key : Nat)
  | source (key : Nat)
  | port (p : Nat)
  | chan (c : Nat)
  deriving DecidableEq, Repr

/-- Where a unit or operator of a tile reads a source. -/
def State.srcOf (s : State) (r : Region) (t slot sel : Nat) : Src :=
  let x := s.tile t
  let st := x.stationOf slot
  if sel = selK then .const
  else if (mapGet r.queues (queueKey t sel st)).isSome then .queue (queueKey t sel st)
  else if 376 ≤ sel then (match x.routesTo (0xC0 + (sel - 376)) with
    | some n => .out n
    | none => .const)
  else match slotOfSel sel with
    | some n => .out n
    | none =>
      if 320 ≤ sel then .chan (sel - 320)
      else if r.isSource s st then .source (queueKey t sel st)
      else .port (sel - 256)

/-- The head of a queue that a station's unit may read. -/
def queueHead (q : BoundaryQueue) (item : Option Nat) (slot : Nat) : Option Token :=
  match q.inlet with
  | (tag, k) :: _ => if readableTag item tag && !q.taken.contains slot then some k else none
  | [] => none

/-- The token at the head of a source as a unit sees it; none where there is none, where the unit has consumed the head,
or where the issue gate keeps the unit from its inlets (R125, R171). -/
def State.peekSrc (s : State) (r : Region) (t slot : Nat) (k : Word) (acc : Bool) : Src → Option Token
  | .const => if acc then none else some (dataTok k)
  | .out n =>
    let u := (s.tile t).unitAt n
    match u.out with
    | [] => none
    | h :: _ => if acc then (if u.routed then none else some h) else if u.taken.contains slot then none else some h
  | .queue key =>
    let st := r.station ((s.tile t).stationOf slot)
    if st.gate then none
    else match mapGet r.queues key with
      | none => none
      | some q => queueHead q st.item slot
  | .source key =>
    let st := r.station ((s.tile t).stationOf slot)
    if st.gate then none
    else match mapGet r.source key with
      | none => none
      | some q => queueHead q st.item slot
  | .port p =>
    if (r.station ((s.tile t).stationOf slot)).gate then none
    else
      let q := (s.tile t).fiPort p
      if q.taken.contains slot then none else q.q.head?
  | .chan c =>
    let q := (s.tile t).inChan c
    if q.taken.contains slot then none else q.q.head?

/-- The queue after a reader of a station has consumed its head; the head leaves when all have. -/
def BoundaryQueue.take (q : BoundaryQueue) (slot : Nat) (readers : List Nat) : BoundaryQueue :=
  let q := { q with taken := slot :: q.taken }
  if readers.all fun n => q.taken.contains n then { q with inlet := q.inlet.drop 1, taken := [] } else q

/-- Who must take the head of an fi port: the units of stations that read it directly, and 512 + d for a source station
d, which admits it (R130, R188). -/
def State.portReaders (s : State) (r : Region) (t p : Nat) : List Nat :=
  let x := s.tile t
  ((x.readers (256 + p)).map fun n =>
    if r.isSource s (x.stationOf n) then 512 + x.stationOf n else n).eraseDups

/-- The head of an fi port is taken by a reader; it leaves when all have taken it. -/
def State.takePort (s : State) (r : Region) (t p id : Nat) : State :=
  let q := (s.tile t).fiPort p
  let q := { q with taken := id :: q.taken }
  if (s.portReaders r t p).all fun n => q.taken.contains n then s.setFi t p { q with q := q.q.drop 1, taken := [] }
  else s.setFi t p q

/-- A unit consumes the head of a source. -/
def State.takeSrc (s : State) (l t slot : Nat) (acc : Bool) (src : Src) : State :=
  match mapGet s.regions l with
  | none => s
  | some r =>
    let x := s.tile t
    match src with
    | .const => s
    | .out n =>
      let s := if acc then s.setUnit t n { x.unitAt n with routed := true } else s.markTaken t n slot
      s.settle r t n
    | .queue key => match mapGet r.queues key with
      | none => s
      | some q => s.setRegion l
          { r with queues := mapSet r.queues key (q.take slot (x.readersIn (keySel key) (keyStation key))) }
    | .source key => match mapGet r.source key with
      | none => s
      | some q => s.setRegion l
          { r with source := mapSet r.source key (q.take slot (x.readersIn (keySel key) (keyStation key))) }
    | .port p => s.takePort r t p slot
    | .chan c =>
      let q := x.inChan c
      let q := { q with taken := slot :: q.taken }
      let here := x.readers (320 + c) |>.filter fun n => (mapGet r.queues (queueKey t (320 + c) (x.stationOf n))).isNone
      if here.all fun n => q.taken.contains n then s.setInChan t c { q with q := q.q.drop 1, taken := [] }
      else s.setInChan t c q

end Sys2Proof.Machine
end

