-- ==== Sys2Proof/Machine/Fire.lean ====
section
/-! DEFINITION. The firing of a unit: the rule of R126 to R128, which the element families instantiate. -/

namespace Sys2Proof.Machine

/-- Do a region's units act? From its first beat until it is held (R165, R172, R182, R341). -/
def Region.acts (r : Region) : Bool :=
  match r.phase with
  | .running => !r.paused
  | .slipping _ _ => true
  | .waiting => false
  | .held => false

/-- What a firing unit is: its region's leader, its tile and slot, its word, and the tensor-ID entry that it captured
when the region loaded (R75). -/
structure Ctx where
  l : Nat
  t : Nat
  slot : Nat
  w : ElWord
  op : Nat
  ent : Entry512
  deriving DecidableEq, Repr

/-- The sub field. -/
def Ctx.sub (c : Ctx) : Nat := c.w.sub.toNat
/-- The rounding mode; 110 takes it from the entry (R40). -/
def Ctx.rm (c : Ctx) : BitVec 3 := if c.w.rm = 6 then entRm c.ent else c.w.rm
/-- The unit's state. -/
def State.unitOf (s : State) (c : Ctx) : UnitState := (s.tile c.t).unitAt c.slot
/-- Replace the unit's state. -/
def State.setUnitOf (s : State) (c : Ctx) (u : UnitState) : State := s.setUnit c.t c.slot u

/-- Unit kind and number of a slot (R121, R44). -/
def unitKind (slot : Nat) : Nat × Nat :=
  if slot < 256 then (0, slot)
  else if slot < 264 then (1, slot - 256)
  else if slot < 280 then (2, slot - 264)
  else if slot < 296 then (3, slot - 280)
  else if slot < 312 then (4, slot - 296)
  else if slot < 328 then (5, slot - 312)
  else (7, slot - 328)

/-- An ERR located at a unit or operator of a tile (R44). -/
def State.errTok (s : State) (t slot : Nat) (cause : BitVec 7) : Token :=
  { kind := kErr, data := errWord cause t (unitKind slot).1 (unitKind slot).2 ((s.tile t).stationOf slot) }

/-- An ERR located at the firing unit. -/
def State.errOf (s : State) (c : Ctx) (cause : BitVec 7) : Token := s.errTok c.t c.slot cause

/-- The sticky flags of a region gather what its units raise (R129). -/
def State.raiseRegion (s : State) (l : Nat) (fl : BitVec 5) : State :=
  match mapGet s.regions l with
  | none => s
  | some r => s.setRegion l { r with flags := r.flags ||| fl }

/-! ### Inputs of a firing -/

/-- Where an input of the firing unit stands. -/
def State.inputSrc (s : State) (c : Ctx) (i : Nat) : Src :=
  match mapGet s.regions c.l with
  | none => .const
  | some r => s.srcOf r c.t c.slot (elInput c.w i)

/-- The token that an input holds. -/
def State.peekIn (s : State) (c : Ctx) (i : Nat) : Option Token :=
  match mapGet s.regions c.l with
  | none => none
  | some r => s.peekSrc r c.t c.slot c.w.k false (s.inputSrc c i)

/-- Consume the token that an input holds. -/
def State.takeIn (s : State) (c : Ctx) (i : Nat) : State := s.takeSrc c.l c.t c.slot false (s.inputSrc c i)

/-- Consume one token from each of several inputs; two that name one source consume it once (R126). -/
def State.takeAll (s : State) (c : Ctx) : List Nat → List Nat → State
  | [], _ => s
  | i :: r, seen =>
    if seen.contains (elInput c.w i) then s.takeAll c r seen
    else (s.takeIn c i).takeAll c r (elInput c.w i :: seen)

/-- What the used inputs hold, by the rows of R128. -/
inductive Got where
  | wait
  | err (k : Token)
  | data (vs : List Word)
  | marker (k : Token)
  | mixed
  deriving DecidableEq, Repr

/-- R128 over the used inputs that are not k: the tokens consumed and what they were. -/
def State.gather (s : State) (c : Ctx) (used : List Nat) : State × Got :=
  let live := used.filter fun i => elInput c.w i ≠ selK
  let heads := live.map fun i => (i, s.peekIn c i)
  let bad := heads.find? fun h => match h.2 with
    | some k => k.isErr
    | none => false
  match bad with
  | some (i, some k) => (s.takeIn c i, .err k)
  | _ =>
    if heads.any fun h => h.2.isNone then (s, .wait)
    else
      let toks := heads.filterMap fun h => h.2
      let s' := s.takeAll c live []
      if toks.all Token.isData then (s', .data (used.map fun i => ((s.peekIn c i).map Token.data).getD c.w.k))
      else match toks with
        | k :: r => if r.all fun j => j.kind = k.kind then (s', .marker k) else (s', .mixed)
        | [] => (s, .wait)

/-- The unit emits tokens. -/
def State.put (s : State) (c : Ctx) (ks : List Token) : State := s.emit c.t c.slot ks

/-! ### A turn of a unit -/

/-- The turn of a unit: it delivers what stands in its output slot, fires when the slot is empty and its operation can,
and delivers the result (R126, R127). A firing that takes the unit's own token from the slot empties it (DEDUCED, log entry 58). `go`
answers none where the operation cannot fire. -/
def unitTurn (go : Ctx → State → Option State) (s : State) : Out :=
  let t := s.cur
  let slot := s.slot
  match s.regionOf t, (s.tile t).el slot with
  | some (l, r), some w =>
    let s := State.deliver l t slot ((s.tile t).unitAt slot).out.length s
    let own := s.awaitsSelf r t slot
    if ((s.tile t).unitAt slot).out ≠ [] && !own then .next s
    else
      let c : Ctx := { l := l, t := t, slot := slot, w := w, op := (s.tile t).elOp slot
                       ent := (mapGet r.entries (t * 512 + slot)).getD 0 }
      match go c (if own then s.markTaken t slot nobody else s) with
      | none => .next s
      | some s' =>
        if own && ((s'.tile t).unitAt slot).taken.contains nobody then .next s
        else
          let x := s'.tile t
          let s' := s'.setTile t { x with unitFirings := x.unitFirings + 1 }
          .next (State.deliver l t slot ((s'.tile t).unitAt slot).out.length s')
  | _, _ => .next s

/-- The rule of an operation on three values: mode, flush and generator as the unit gives them. -/
abbrev Calc := Ctx → Word → Word → Word → Word → Rounded

/-- An operation that follows R128 in every row. -/
def simple (used : List Nat) (f : Calc) (c : Ctx) (s : State) : Option State :=
  match s.gather c used with
  | (_, .wait) => none
  | (s, .err k) => some (s.put c [k])
  | (s, .marker k) => some (s.put c [k])
  | (s, .mixed) => some (s.put c [s.errOf c 0x14])
  | (s, .data vs) =>
    let u := s.unitOf c
    let r := f c u.gen (vs[0]?.getD 0) (vs[1]?.getD 0) (vs[2]?.getD 0)
    let s := s.setUnitOf c { u with gen := r.gen }
    some ((s.raiseRegion c.l r.flags).put c [dataTok (BitVec.ofNat 32 r.bits)])

/-- A value with no flags and no draw. -/
def plainResult (g : Word) (v : Nat) : Rounded := { bits := v, flags := flNone, gen := g }

end Sys2Proof.Machine
end

