-- ==== Sys2Proof/Machine/ElMem.lean ====
section
/-! DEFINITION. Element operations 0x3A to 0x3E and 0x40, 0x41: memory nodes (R207, R208, R243, R244) and fabric address
generators (R201 to R206), and the RELATCH tokens of both (R208, R212). -/

namespace Sys2Proof.Machine

/-- The captured value of a register that a command names (R34). -/
def Cmd.reg (c : Cmd) (n : Nat) : Dword := if n = 0 then 0 else (mapGet c.regs n).getD 0

/-! ### What a handle stream reaches (R212) -/

/-- A unit is a memory node. -/
def isNode (n : Nat) : Bool := 280 ≤ n && n < 296

/-- A memory node of a tile executes `pub` or `acq`, which pass on what they take from in0 (R244). -/
def Tile.isFence (x : Tile) (n : Nat) : Bool := isNode n && (x.el n).isSome && (x.elOp n = 0x3D || x.elOp n = 0x3E)

/-- A unit of a tile ends what reaches it: a memory node that is no fence consumes it (R207, R208, R243). -/
def Tile.consumes (x : Tile) (n : Nat) : Bool := isNode n && !x.isFence n

/-- A unit of a tile ends a RELATCH token beside: a fence with sub[3] = 1 emits DATA in its place (R244), and an `agen` in mode 1
discards markers (R202). -/
def Tile.endsToken (x : Tile) (n : Nat) : Bool :=
  x.consumes n || match x.el n with
    | some w => (x.isFence n && w.sub.getLsbD 3) || (264 ≤ n && n < 280 && x.elOp n = 0x40 && w.sub.toNat % 4 = 1)
    | none => false

/-- A place that tokens pass through: a unit or operator of a tile, or a channel of its router. -/
inductive Place where
  | unit (t n : Nat)
  | outChan (t c : Nat)
  | inChan (t c : Nat)
  deriving DecidableEq, Repr

/-- The places that tokens go to from a place: by selectors, routes, channels and the channel map (R123, R149), from every unit that
does not end them. -/
def State.nextPlaces (s : State) (ends : Tile → Nat → Bool) : Place → List Place
  | .unit t n =>
    let x := s.tile t
    if ends x n then []
    else
      ((x.deliveries n).filterMap fun d =>
        if 0xC0 ≤ d then some (Place.unit t (312 + (d - 0xC0)))
        else if 0x80 ≤ d then some (.outChan t (d - 0x80))
        else none) ++
      match selOf n with
      | some sel => (x.readers sel).map (Place.unit t)
      | none => []
  | .outChan t c => ((neighbour t (c / 8)).map fun u => Place.inChan u (facing c)).toList
  | .inChan t c =>
    let e := (s.tile t).chanEntry c
    if e ≤ 0x27 then [.outChan t e]
    else if e = 0x3D || e = 0x3E then ((s.tile t).readers (320 + c)).map (Place.unit t)
    else []

/-- The places that tokens from some places pass through. -/
def State.pathFrom (s : State) (ends : Tile → Nat → Bool) : Nat → List Place → List Place → List Place
  | 0, _, seen => seen
  | fuel + 1, todo, seen =>
    match todo with
    | [] => seen
    | p :: r => if seen.contains p then s.pathFrom ends fuel r seen
      else s.pathFrom ends fuel (r ++ s.nextPlaces ends p) (p :: seen)

/-- The path of a fabric address generator's handles: fences pass them on. -/
def State.handlePath (s : State) (t a : Nat) : List Place := s.pathFrom Tile.consumes 8192 [.unit t (slotA a)] []

/-- The path of a RELATCH token of a fabric address generator. The generator emits it, whatever its mode. -/
def State.tokenPath (s : State) (t a : Nat) : List Place :=
  s.pathFrom Tile.endsToken 8192 (s.nextPlaces Tile.consumes (.unit t (slotA a))) []

/-- The place that a selector of a tile reads. -/
def selPlace (t sel : Nat) : Option Place :=
  match slotOfSel sel with
  | some n => some (.unit t n)
  | none => if 320 ≤ sel && sel < 360 then some (.inChan t (sel - 320)) else none

/-- The memory nodes (tile, slot) that the RELATCH token of an address generator reaches on in0 in its handle stream. -/
def State.reachedNodes (s : State) (t a : Nat) : List (Nat × Nat) :=
  let path := s.tokenPath t a
  path.filterMap fun p => match p with
    | .unit u n => match (s.tile u).el n with
      | some w => if isNode n && (selPlace u w.in0.toNat).any path.contains then some (u, n) else none
      | none => none
    | .outChan _ _ => none
    | .inChan _ _ => none

/-- The place whose tokens a boundary queue or a green item's inlet holds. -/
def queuePlaces (key : Nat) : List Place :=
  let t := keyTile key
  if 376 ≤ keySel key then [.unit t (312 + (keySel key - 376))] else (selPlace t (keySel key)).toList

/-- The tokens in flight on the path: in output slots, in buffers, on channels, in boundary queues and with green items. -/
def State.pathTokens (s : State) (r : Region) (t a : Nat) : List Token :=
  let path := s.handlePath t a
  let here (k : Nat) : Bool := (queuePlaces k).any path.contains
  (path.flatMap fun p => match p with
    | .unit u n => if (s.tile u).consumes n then [] else ((s.tile u).unitAt n).out ++ ((s.tile u).unitAt n).buf
    | .outChan u c => (s.tile u).outChan c
    | .inChan u c => ((s.tile u).inChan c).q) ++
  (r.queues.filter fun q => here q.1).flatMap (fun q => (q.2.fill ++ q.2.inlet).map Prod.snd) ++
  (r.stations.flatMap fun st => st.loop.flatMap fun g =>
    ((g.inlets.filter fun q => here q.1).flatMap fun q => q.2.1) ++ (g.outlets.filter fun q => here q.1).flatMap Prod.snd)

/-- The latches that handles in flight name (R200). -/
def State.namedLatches (s : State) (r : Region) (t a : Nat) : List Nat :=
  (s.pathTokens r t a).filterMap fun k =>
    if k.isData && k.data.getLsbD 31 then some (k.data.toNat / 2 ^ 27 % 16) else none

/-- The latches with what accesses in flight name. -/
def Age.named (g : Age) (ns : List Nat) : Age :=
  { g with latches := g.latches.map fun l => { l with refs := if ns.contains l.num then 1 else 0 } }

/-- An address generator with what accesses in flight name of its latches: handles name those of a fabric generator (R200); no
access of another is in flight between two steps. -/
def State.namedAge (s : State) (n : Nat) : Age :=
  let u := ageUnit n
  match ageKind n, s.regionOf (u / 16) with
  | 0, some (_, r) => (s.age n).named (s.namedLatches r (u / 16) (u % 16))
  | _, _ => s.age n

/-! ### Memory nodes -/

/-- What a re-latch waits for from a memory node: the token of generator a of tile t at node m of tile u. -/
def nodeDuty (t a u m : Nat) : Nat := 2 ^ 60 + (t * 16 + a) * 2 ^ 20 + (u * 16 + m)

/-- A memory node decodes a latch of generator a: not one that a RELATCH token has dropped and whose token the node has
taken, or does not take (R208, R212). -/
def State.decodes (s : State) (t a m : Nat) (l : Latch) : Bool :=
  !l.dropped || s.relatches.any fun q => q.left.contains (nodeDuty t a t m)

/-- The address of a handle at a memory node, or the cause of the ERR (R207, R208, in the table's order). -/
def State.nodeAddr (s : State) (c : Ctx) (user : Bool) (access : Nat) (h : Word) : Except (BitVec 7) Nat :=
  let b := fmtWidth (entFormat c.ent) / 8
  let v := h.toNat
  if h.getLsbD 31 then
    let g := ((s.tile c.t).unitAt (slotA (c.sub % 16))).age
    match g.latches.find? fun l => l.num = v / 2 ^ 27 % 16 && s.decodes c.t (c.sub % 16) (c.slot - 280) l with
    | none => .error 0x20
    | some l =>
      if l.size ≤ v % 2 ^ 25 || v / 2 ^ 25 % 4 ≠ 0 then .error 0x20
      else if !(match access with
        | 0 => l.r
        | 1 => l.w
        | _ => l.r && l.w) then .error 0x21
      else if (l.frame + v % 2 ^ 25) % b ≠ 0 then .error 0x05
      else .ok (l.frame + v % 2 ^ 25)
  else
    let a := v % 2 ^ 22
    if v / 2 ^ 22 ≠ 0 || a > spLast + 1 - b then .error 0x06
    else if user && a < supervisorArea then .error 0x03
    else if a % b ≠ 0 then .error 0x05
    else .ok (spBase c.t + a)

/-- Bytes that a node moves. -/
def Ctx.bytes (c : Ctx) : Nat := fmtWidth (entFormat c.ent) / 8

/-- The firing of a memory node: a RELATCH token waits for `RELATCH_TOKEN_CONSUME`; an EOT pair of `mwr` or `mamo` waits
for `MWR_EOT_DRAIN`; a handle is performed or becomes an ERR (R207, R208). An access that nothing carries stops the region (R355;
no rule names the ss.fval of its record: DEDUCED, log entry 46). -/
def nodeTurn (used : List Nat) (access : Nat) (perform : Ctx → State → Nat → Word → Option State) (c : Ctx) (s : State) :
    Option State :=
  let user := ((mapGet s.regions c.l).map Region.user).getD false
  let u := s.unitOf c
  let relatch := match s.peekIn c 0 with
    | some k => k.kind = kRelatch
    | none => false
  if u.drain || relatch then none
  else match s.gather c used with
    | (_, .wait) => none
    | (s, .err k) => some (s.put c [k])
    | (s, .mixed) => some (s.put c [s.errOf c 0x14])
    | (s, .marker k) =>
      if k.kind = kEot && access ≠ 0 then some (s.setUnitOf c { s.unitOf c with drain := true }) else some (s.put c [k])
    | (s, .data vs) => match s.nodeAddr c user access (vs[0]?.getD 0) with
      | .error cause => some (s.put c [s.errOf c cause])
      | .ok pa =>
        if s.noWay (deviceOf c.t) pa then some (s.stopRegion c.l 0x50 (BitVec.ofNat 64 pa))
        else perform c s pa (vs[1]?.getD 0)

/-- A node's read touches an absent word of a write-once buffer (R362). -/
def State.nodeAbsent (s : State) (v : View) (pa n : Nat) : Bool :=
  (List.range n).any fun i => s.woAbsent (pa + i) && (lastEntry v.pb (pa + i)).isNone

/-- `mrd` (R207). -/
def execElMrd (s : State) : Out :=
  unitTurn (nodeTurn [0] 0 fun c s pa _ =>
    let v := (s.unitOf c).view
    if s.nodeAbsent v pa c.bytes then none
    else some (s.put c [dataTok (BitVec.ofNat 32 (s.viewNum v pa c.bytes))])) s

/-- `mwr` (R207). -/
def execElMwr (s : State) : Out :=
  unitTurn (nodeTurn [0, 1] 1 fun c s pa v =>
    let u := s.unitOf c
    some (s.setUnitOf c { u with view := u.view.store pa (toBytes v.toNat c.bytes) })) s

/-- `mamo` (R243): one atomic step of R233. -/
def execElMamo (s : State) : Out :=
  unitTurn (nodeTurn [0, 1] 2 fun c s pa v =>
    let (s, w, old) := atomicStep s (nodeAgent c.t c.slot) (s.unitOf c).view pa 4 (c.w.k.toNat % 4)
      fun old => some (atomicOp (c.sub / 16 % 8) 32 old v.toNat)
    some ((s.setUnitOf c { s.unitOf c with view := w }).put c [dataTok (BitVec.ofNat 32 old)])) s

/-- An EOT pair's earlier writes have drained: DONE, then EOT (R207, R229). -/
def execMwrEotDrain (t m : Nat) (s : State) : Out :=
  match s.regionOf t with
  | none => .next s
  | some (l, r) =>
    let slot := slotM m
    if r.acts && ((s.tile t).unitAt slot).drain && !s.tileStops t && s.mayRun (deviceOf t) r.fn then
      let s := s.drainNode t slot 4
      let s := s.setUnit t slot { (s.tile t).unitAt slot with drain := false }
      let s := s.emit t slot [{ kind := kDone, data := BitVec.ofNat 32 (t % 160 * 256 + m) }, eotTok]
      .next (State.deliver l t slot 2 s)
    else .next s

/-- One thing that a re-latch waits for is replaced by others. -/
def State.relatchStep (s : State) (dev : Nat) (seq : Word) (was : Nat) (now : List Nat) : State :=
  { s with relatches := s.relatches.map fun q =>
      if q.dev = dev && q.seq = seq && q.left.contains was then { q with left := now ++ q.left.erase was } else q }

/-- Memory node m of tile t has taken a RELATCH token: what the re-latch waited for from it is done, and the token of the
generator that sent it emerges once every node that it reaches has (R208, R212). -/
def State.tokenTaken (s : State) (t m : Nat) (seq : Word) : State :=
  let dev := deviceOf t
  let duty := s.relatches.findSome? fun q =>
    if q.dev = dev && q.seq = seq then q.left.find? fun n => 2 ^ 60 ≤ n && n % 2 ^ 20 = t * 16 + m else none
  match duty with
  | some n => s.relatchStep dev seq n []
  | none => s

/-- The memory nodes of a mask. -/
def maskNodes (k : Word) : List Nat := ((List.range 16).filter fun j => k.getLsbD j).map slotM

/-- The firing of `pub` and `acq` (R244): a step on every masked node, then the token, or DATA when sub[3] = 1. It passes a RELATCH
token on like any other, and has then taken it as a memory node does (R212; DEDUCED, log entry 59). -/
def fence (act : State → Nat → Nat → Nat → State) (c : Ctx) (s : State) : Option State :=
  match s.peekIn c 0 with
  | none => none
  | some k =>
    let s := s.takeIn c 0
    if k.isErr then some (s.put c [k])
    else
      let s := (maskNodes c.w.k).foldl (fun s n => act s c.t n (c.sub % 8)) s
      let s := if k.kind = kRelatch then s.tokenTaken c.t (c.slot - 280) k.data else s
      some (s.put c [if c.sub.testBit 3 then dataTok k.data else k])

/-- `pub` (R244). -/
def execElPub (s : State) : Out := unitTurn (fence State.drainNode) s
/-- `acq` (R244). -/
def execElAcq (s : State) : Out := unitTurn (fence State.refreshUnit) s

/-! ### RELATCH tokens in the fabric -/

/-- A memory node that is no fence consumes a RELATCH token by a boundary of node scope (R208, R229). -/
def execRelatchTokenConsume (t m : Nat) (s : State) : Out :=
  let slot := slotM m
  match s.regionOf t, (s.tile t).el slot with
  | some (l, r), some w =>
    let op := (s.tile t).elOp slot
    let c : Ctx := { l := l, t := t, slot := slot, w := w, op := op, ent := 0 }
    match s.peekIn c 0 with
    | some k =>
      if r.acts && k.kind = kRelatch && !(s.tile t).isFence slot && !(s.unitOf c).drain && !s.tileStops t &&
          s.mayRun (deviceOf t) r.fn then
        let s := s.takeIn c 0
        .next (((s.drainNode t slot 4).refreshUnit t slot 4).tokenTaken t m k.data)
      else .next s
    | none => .next s
  | _, _ => .next s

/-! ### agen (R202) -/

/-- The extents of a binding's nest: dimensions 0 to 3, then count4 and count5, of which 0 runs once. -/
def nestExtents (b : Cmd) : List Nat :=
  (List.range 4).map (entDim b.entB) ++
    [max 1 (b.reg (b.w2.toNat % 32)).toNat, max 1 (b.reg (b.w3.toNat % 32)).toNat]

/-- The counters i0 to i5 of a handle, from the count of handles issued before it (R206). -/
def nestCounters : List Nat → Nat → List Nat
  | [], _ => []
  | e :: r, n => n % e :: nestCounters r (n / e)

/-- A binding addresses virtual memory. -/
def Cmd.virtual (b : Cmd) : Bool := b.w1.getLsbD 5

/-- The element offset n of R202. -/
def nestElement (b : Cmd) (i : List Nat) : Int :=
  let c (j : Nat) : Int := ((i[j]?.getD 0 : Nat) : Int)
  c 0 + c 1 * entStride b.entB 1 + c 2 * entStride b.entB 2 + c 3 * entStride b.entB 3 +
    (if b.virtual then (b.reg (b.w1.toNat % 32)).toInt else 0) +
    c 4 * (b.reg (b.w2.toNat / 32 % 32)).toInt + c 5 * (b.reg (b.w3.toNat / 32 % 32)).toInt

/-- The byte address of an element offset. -/
def nestAddress (b : Cmd) (n : Int) : Int :=
  (if b.virtual then (entBase b.entB : Int) else (b.reg (b.w1.toNat % 32)).toNat) + n * (entWidth b.entB / 8 : Nat)

/-- What an address becomes: the machine and the handle, a failing check and the machine as the walk left it (R197), or a
wait for a latch. -/
inductive Handle where
  | ok (s : State) (h : Word)
  | fail (s : State) (f : WalkFault)
  | wait

/-- The checks of R202 in order, and the handle of R201. -/
def State.makeHandle (s : State) (r : Region) (c : Ctx) (b : Cmd) (a : Int) : Handle :=
  let fail (cause : BitVec 7) : Handle := .fail s { cause := cause, level := 0, pte := 0 }
  let w := entWidth b.entB / 8
  if a < 0 || a ≥ 2 ^ 52 then fail 0x20
  else if a % w ≠ 0 then fail 0x05
  else if b.virtual then
    let g := s.namedAge (fabricAge c.t (c.slot - 264))
    match s.translate (dieOf c.t) r.fn c.l g a.toNat (c.sub / 4 % 4) with
    | .fault s g f => .fail (s.setUnitOf c { s.unitOf c with age := g }) f
    | .wait => .wait
    | .ok s g _ l =>
      .ok (s.setUnitOf c { s.unitOf c with age := g })
        (BitVec.ofNat 32 (2 ^ 31 + l.num * 2 ^ 27 + (a.toNat - l.va)))
  else if a + w - 1 > spLast then fail 0x06
  else if r.user && a < supervisorArea then fail 0x03
  else .ok s (BitVec.ofNat 32 a.toNat)

/-- A fabric address generator stops (R209): its record goes to the fault domain and AGEFAULT to the region's leader. An
address that no path can carry stops its region (R355). -/
def State.stopGenerator (s : State) (r : Region) (c : Ctx) (a : Int) (f : WalkFault) (loops : List Nat) (count : Nat) :
    State :=
  if f.cause = 0x50 then s.stopRegion c.l 0x50 (toDword a) else
  let n := c.slot - 264
  let rec' := ageRecord
    { cause := f.cause, tile := c.t, unit := n, kind := 0, access := c.sub / 4 % 4, level := f.level, ctxhi := 0
      fn := r.fn, va := (toDword a).toNat, count := count, loops := loops, pte := f.pte }
  let u := s.unitOf c
  let s := s.setUnitOf c { u with age := { u.age with stopped := some rec' } }
  (s.postFault (dieOf c.t) r.fn c.l rec').post c.l 0x20 n
    (f.cause.toNat + c.t % 160 * 2 ^ 8 + count % 2 ^ 32 * 2 ^ 16)

/-- A fabric address generator takes a RELATCH token ahead of its next address (R212): it drops the overlapping latches,
emits the token, and, if it is stopped, retries. The re-latch then waits for the memory nodes that the token reaches; where it
reaches none, for the generator yet, until the token has left its route. -/
def State.generatorRelatch (s : State) (c : Ctx) (q : Nat × Nat × Nat) (rest : List (Nat × Nat × Nat)) : State :=
  let n := c.slot - 264
  let u := s.unitOf c
  let g : Age := { latches := u.age.latches.map fun l => if l.meets q.2.1 q.2.2 then { l with dropped := true } else l
                   stopped := none, relatch := rest }
  let seq : Word := BitVec.ofNat 32 q.1
  let nodes := s.reachedNodes c.t n
  let s := s.setUnitOf c { u with age := g }
  let s := if nodes = [] then s
    else s.relatchStep (deviceOf c.t) seq (fabricAge c.t n) (nodes.map fun m => nodeDuty c.t n m.1 (m.2 - 280))
  s.put c [{ kind := kRelatch, data := seq }]

/-- A handle of the current binding is issued (R202): after the last of a row an EOR, after the last of the nest an EOT,
and the next binding is taken. -/
def State.issueHandle (s : State) (c : Ctx) (b : Cmd) (i : List Nat) (walk : Bool) (h : Word) : State :=
  let u := s.unitOf c
  let count := u.count + 1
  let exts := nestExtents b
  let rowEnd := walk && i.headD 0 + 1 = exts.headD 1
  let done := walk && count = exts.foldl (· * ·) 1
  let s := s.setUnitOf c { u with count := if done then 0 else count, bindings := if done then u.bindings.drop 1 else u.bindings }
  let s := if done then { s with cmds := mapErase s.cmds (u.bindings.headD 0) } else s
  s.put c ([dataTok h] ++ (if rowEnd then [eorTok] else []) ++ (if done then [eotTok] else []))

/-- The firing of `agen` (R202, R209). -/
def agenTurn (c : Ctx) (s : State) : Option State :=
  let u := s.unitOf c
  match mapGet s.regions c.l with
  | none => none
  | some r => match u.age.relatch with
    | q :: rest => some (s.generatorRelatch c q rest)
    | [] =>
      if u.age.stopped.isSome then none
      else match u.bindings.head?.bind (mapGet s.cmds) with
        | none => none
        | some b =>
          let mode := c.sub % 4
          let go (s : State) (i : List Nat) (el : Int) : Option State :=
            let a := nestAddress b el
            match s.makeHandle r c b a with
            | .wait => none
            | .fail s f => some (s.stopGenerator r c a f i u.count)
            | .ok s h =>
              let s := if mode = 0 then s else s.takeIn c 0
              some (s.issueHandle c b i (mode ≠ 2) h)
          let walk (s : State) : Option State :=
            let i := nestCounters (nestExtents b) u.count
            go s i (nestElement b i)
          if mode = 0 then walk s
          else match s.peekIn c 0 with
            | none => none
            | some k =>
              if k.isErr then some ((s.takeIn c 0).put c [k])
              else if !k.isData then some (if mode = 1 then s.takeIn c 0 else (s.takeIn c 0).put c [k])
              else if mode = 1 then walk s
              else if entCount b.entB ≤ k.data.toNat then some ((s.takeIn c 0).put c [s.errOf c 0x27])
              else go s [k.data.toNat] k.data.toNat

/-- `agen` (R202). -/
def execElAgen (s : State) : Out := unitTurn agenTurn s

/-! ### lgen (R204): `w` holds the counter i and the bound b -/

/-- The firing of `lgen`. -/
def lgenTurn (c : Ctx) (s : State) : Option State :=
  let u := s.unitOf c
  let i := u.w.headD 0
  let b := u.w[1]?.getD 0
  let eor := if c.sub.testBit 0 then [eorTok] else []
  let h := s.peekIn c 0
  if i.toNat < b.toNat then
    match h with
    | some k =>
      if k.isErr then some (((s.takeIn c 0).setUnitOf c { (s.takeIn c 0).unitOf c with w := [] }).put c [k])
      else some ((s.setUnitOf c { u with w := [i + 1, b] }).put c ([dataTok (c.w.k + i)] ++ if i + 1 = b then eor else []))
    | none => some ((s.setUnitOf c { u with w := [i + 1, b] }).put c ([dataTok (c.w.k + i)] ++ if i + 1 = b then eor else []))
  else match h with
    | none => none
    | some k =>
      let s := s.takeIn c 0
      if k.kind = kBound || (k.isData && c.sub.testBit 1) then
        some ((s.setUnitOf c { s.unitOf c with w := [0, k.data] }).put c (if k.data = 0 then eor else []))
      else if k.isData then some (s.put c [s.errOf c 0x14])
      else some (s.put c [k])

/-- `lgen` (R204). -/
def execElLgen (s : State) : Out := unitTurn lgenTurn s

end Sys2Proof.Machine
end

