-- ==== Sys2Proof/Machine/ElMatrix.lean ====
section
/-! DEFINITION. Element operations 0x48 to 0x4B: the matrix edge and the accumulators (R145 to R148). -/

namespace Sys2Proof.Machine

/-- `mfeed` (R148): the operand goes to a west lane, with EOR and EOT as row and tensor ends; nothing is emitted, and a
token of another kind ends here (DEDUCED, log entry 23). -/
def feedLane (c : Ctx) (s : State) : Option State :=
  match s.peekIn c 0 with
  | none => none
  | some k =>
    let s := s.takeIn c 0
    let x := s.tile c.t
    let lane := c.sub % 128
    let k := { k with data := BitVec.ofNat 32 (k.data.toNat % 2 ^ entWidth c.ent) }
    if k.isData || k.ends then
      some (s.setTile c.t { x with array :=
        { x.array with lanes := mapSet x.array.lanes lane ((mapGet x.array.lanes lane).getD [] ++ [k]) } })
    else some s

/-- `mfeed`. -/
def execElMfeed (s : State) : Out := unitTurn feedLane s

/-! ### CST groups (R145) -/

/-- The CST of eight DATA tokens. -/
def groupCst (ks : List Token) : Cst := cstOfWords (ks.map Token.data)

/-- The CST group of a CST. -/
def cstGroup (x : Cst) : List Token := (cstWords x).map dataTok

/-- norm takes its operand from the strip. -/
def Ctx.strip (c : Ctx) : Bool := c.sub.testBit 4

/-- The format that norm resolves into (R146). -/
def Ctx.normFmt (c : Ctx) : FloatFmt :=
  (floatFmt (match c.sub % 4 with
    | 0 => fFP32
    | 1 => fBF16
    | _ => fFP16)).getD fp32

/-- norm resolves a CST (R69, R146). -/
def resolveOne (c : Ctx) (x : Cst) (s : State) : State :=
  let u := s.unitOf c
  let scale := if entScale c.ent = 4 then some (entTscale c.ent) else none
  let r := cstResolve c.normFmt c.rm c.w.flush u.gen scale x
  ((s.setUnitOf c { u with gen := r.gen }).raiseRegion c.l r.flags).put c [dataTok (BitVec.ofNat 32 r.bits)]

/-- `norm` (R145, R146). -/
def normTurn (c : Ctx) (s : State) : Option State :=
  let u := s.unitOf c
  if c.strip then
    match u.buf with
    | [] => none
    | k :: rest =>
      if k.isData then
        (if u.buf.length < 8 then none
         else some (resolveOne c (groupCst (u.buf.take 8)) (s.setUnitOf c { u with buf := u.buf.drop 8 })))
      else some ((s.setUnitOf c { u with buf := rest }).put c [k])
  else match s.peekIn c 0 with
    | none => none
    | some k =>
      let s := s.takeIn c 0
      if k.isData then
        let buf := u.buf ++ [k]
        if buf.length < 8 then some (s.setUnitOf c { s.unitOf c with buf := buf })
        else some (resolveOne c (groupCst buf) (s.setUnitOf c { s.unitOf c with buf := [] }))
      else if k.isErr || u.buf = [] then some (s.put c [k])
      else some ((s.setUnitOf c { s.unitOf c with buf := [] }).put c [s.errOf c 0x14, k])

/-- `norm`. -/
def execElNorm (s : State) : Out := unitTurn normTurn s

/-- The head of cadd's A operand: the strip's or that of in0. -/
def headA (c : Ctx) (s : State) : Option Token := if c.strip then (s.unitOf c).buf.head? else s.peekIn c 0
/-- Consume the head of the A operand, where it is a marker or an ERR. -/
def dropA (c : Ctx) (s : State) : State :=
  if c.strip then s.setUnitOf c { s.unitOf c with buf := (s.unitOf c).buf.drop 1 } else s.takeIn c 0
/-- The tokens of A gathered since its last group: `buf`; with the strip, those that head it, up to eight. -/
def groupA (c : Ctx) (s : State) : List Token :=
  if c.strip then ((s.unitOf c).buf.takeWhile Token.isData).take 8 else (s.unitOf c).buf

/-- `cadd` (R145, R146, R67): each input gathers its group, A's in `buf` and B's in `w`. A marker that cuts a group
makes an ERR of its own and stays; a whole group against a marker is the pair that R128 gives an ERR. -/
def caddTurn (c : Ctx) (s : State) : Option State :=
  let u := s.unitOf c
  let a := headA c s
  let b := s.peekIn c 1
  let isMark (k : Option Token) : Bool := match k with
    | some k => !k.isData && !k.isErr
    | none => false
  let isErr (k : Option Token) : Bool := match k with
    | some k => k.isErr
    | none => false
  let isData (k : Option Token) : Bool := match k with
    | some k => k.isData
    | none => false
  let bad (s : State) : Token := s.errOf c 0x14
  let wholeA := (groupA c s).length = 8
  let wholeB := u.w.length = 8
  let clearA (s : State) : State := s.setUnitOf c
    { s.unitOf c with buf := if c.strip then (s.unitOf c).buf.drop 8 else [] }
  let clearB (s : State) : State := s.setUnitOf c { s.unitOf c with w := [] }
  if isErr a && !wholeA then some ((dropA c s).put c a.toList)
  else if isErr b && !wholeB then some ((s.takeIn c 1).put c b.toList)
  else if wholeA && wholeB then
    some ((clearB (clearA s)).put c (cstGroup (cstAdd (groupCst (groupA c s)) (cstOfWords u.w))))
  else if isMark a && !c.strip && u.buf ≠ [] && !wholeA then some ((clearA s).put c [bad s])
  else if isMark b && u.w ≠ [] && !wholeB then some ((clearB s).put c [bad s])
  else if isMark a && !wholeA && wholeB then some ((clearB (dropA c s)).put c [bad s])
  else if isMark b && !wholeB && wholeA then some ((clearA (s.takeIn c 1)).put c [bad s])
  else if isMark a && !wholeA && isMark b && !wholeB then
    some ((if c.strip then (dropA c s).takeIn c 1 else s.takeAll c [0, 1] []).put c
      [if a.map Token.kind = b.map Token.kind then a.getD (bad s) else bad s])
  else
    let gainA := isData a && !c.strip && !wholeA
    let gainB := isData b && !wholeB
    let s1 := if gainA then
        (let s' := s.takeIn c 0; s'.setUnitOf c { s'.unitOf c with buf := u.buf ++ a.toList })
      else s
    let s2 := if gainB then
        (let s' := if gainA && elInput c.w 0 = elInput c.w 1 then s1 else s1.takeIn c 1
         s'.setUnitOf c { s'.unitOf c with w := u.w ++ b.toList.map Token.data })
      else s1
    if gainA || gainB then some s2 else none

/-- `cadd`. -/
def execElCadd (s : State) : Out := unitTurn caddTurn s

/-! ### Accumulators (R147): `w` holds the value; empty, the identity -/

/-- The identity of a mode. -/
def accIdentity (sub : Nat) : List Word :=
  match sub with
  | 0 => [0, 0]
  | 4 => [0xFF800000]
  | 5 => cstWords freshCst
  | _ => [0]

/-- The value that an accumulator holds. -/
def accValue (c : Ctx) (u : UnitState) : List Word := if u.w = [] then accIdentity c.sub else u.w

/-- A DATA token enters modes 1 to 4. -/
def accFold (c : Ctx) (g : Word) (v x : Word) : Rounded :=
  match c.sub with
  | 1 => plainResult g (v + x).toNat
  | 2 => plainResult g (clampInt (rangeLo true 32) (rangeHi true 32) (v.toInt + x.toInt) % 2 ^ 32).toNat
  | 3 => add32 c.rm c.w.flush g (src32 c.w.flush v) (src32 c.w.flush x)
  | _ => minmax32 true g (src32 c.w.flush v) (src32 c.w.flush x)

/-- The token that the unit routing to the accumulator offers, and where it stands. -/
def accInput (c : Ctx) (s : State) : Option (Src × Token) :=
  match mapGet s.regions c.l with
  | none => none
  | some r =>
    let src := s.srcOf r c.t c.slot (accSource (c.slot - 312))
    (s.peekSrc r c.t c.slot 0 true src).map fun k => (src, k)

/-- `acc` (R147). -/
def accTurn (c : Ctx) (s : State) : Option State :=
  match accInput c s with
  | none => none
  | some (src, k) =>
    let s := s.takeSrc c.l c.t c.slot true src
    let u := s.unitOf c
    if c.sub = 0 then some ((s.setUnitOf c { u with w := [k.kind.setWidth 32, k.data] }).put c [k])
    else if k.isData then
      if c.sub = 5 then
        let buf := u.buf ++ [k]
        if buf.length < 8 then some (s.setUnitOf c { u with buf := buf })
        else some (s.setUnitOf c
          { u with buf := [], w := cstWords (cstAdd (cstOfWords (accValue c u)) (groupCst buf)) })
      else
        let r := accFold c u.gen ((accValue c u).headD 0) k.data
        some ((s.setUnitOf c { u with w := [BitVec.ofNat 32 r.bits], gen := r.gen }).raiseRegion c.l r.flags)
    else
      let cut := if c.sub = 5 && u.buf ≠ [] && !k.isErr then [s.errOf c 0x14] else []
      let buf := if k.isErr then u.buf else []
      let value := if k.ends then (accValue c u).map dataTok else []
      let w := if k.ends && !c.w.k.getLsbD 0 then [] else u.w
      some ((s.setUnitOf c { u with buf := buf, w := w }).put c (cut ++ value ++ [k]))

/-- `acc`. -/
def execElAcc (s : State) : Out := unitTurn accTurn s

end Sys2Proof.Machine
end

