-- ==== Sys2Proof/Machine/Fabric.lean ====
section
/-! DEFINITION. The scalar instructions of the fabric (R152 to R160) and the checks of a slot's word (R42, R46, R121, R122,
R148, R149). -/

namespace Sys2Proof.Machine

/-! ### The field checks of a slot's word -/

/-- The unit of a slot executes the operation (R121). -/
def unitExecutes (slot op : Nat) : Bool :=
  if slot < 256 then op < 0x39 || op = 0x48
  else if slot < 264 then 0x50 ≤ op && op ≤ 0x52
  else if slot < 280 then op = 0x40 || op = 0x41
  else if slot < 296 then 0x3A ≤ op && op ≤ 0x3E
  else if slot < 312 then op = 0x49 || op = 0x4B
  else op = 0x4A

/-- An enabled element word passes the checks that need no other slot (R42, R121, R123, R148); edge channels need an edge
link (R38). -/
def elSlotOk (t slot : Nat) (w : Slot128) : Bool :=
  let c := unpackEl w
  let op := (w.extractLsb' 0 7).toNat
  let edge (v : Nat) : Bool := 352 ≤ v && v ≤ 359
  match decodeEl w with
  | .ok _ =>
    unitExecutes slot op && (op ≠ 0x48 || c.route = 0) && (c.route ≠ 0 || slot < 256 || 312 ≤ slot) &&
      (hasEdge t || !(edge c.in0.toNat || edge c.in1.toNat || edge c.in2.toNat ||
        (0xA0 ≤ c.route.toNat && c.route.toNat ≤ 0xA7)))
  | .error _ => false

/-- An enabled router operator word passes its checks (R46, R122). -/
def routerSlotOk (t : Nat) (w : Slot128) : Bool :=
  let c := unpackRouter (w.setWidth 64)
  let edge (v : BitVec 6) : Bool := 32 ≤ v.toNat && v.toNat < 40
  match decodeRouter (w.setWidth 64) with
  | .ok _ => w.extractLsb' 64 64 = 0 &&
      (hasEdge t || !(edge c.inA || edge c.inB || edge c.ctl || edge c.out0 || edge c.out1))
  | .error _ => false

/-- A channel map slot passes its checks (R149). -/
def mapSlotOk (t slot : Nat) (w : Slot128) : Bool :=
  let n := if slot = 362 then 8 else 16
  w.toNat / 2 ^ (8 * n) = 0 && (List.range n).all fun j =>
    let e := w.toNat / 2 ^ (8 * j) % 256
    let c := 16 * (slot - 360) + j
    (e ≤ 0x27 || (0x3D ≤ e && e ≤ 0x3F)) && (hasEdge t || (e = 0x3F || (c < 32 && !(32 ≤ e && e ≤ 0x27))))

/-- The field checks of `cfgl` and of a region load on a slot's word (R153): only of a word whose enable bit is 1, and
of every channel map slot. -/
def slotOk (t slot : Nat) (w : Slot128) : Bool :=
  if slot < 328 then !(unpackEl w).enable || elSlotOk t slot w
  else if slot < 360 then !(unpackRouter (w.setWidth 64)).enable || routerSlotOk t w
  else if slot < 363 then mapSlotOk t slot w
  else slot < 427

/-! ### Program order with stream commands (R152, R182) -/

/-- An scfg of a tile's core has not completed or faulted. -/
def State.loadPending (s : State) (t : Nat) : Bool :=
  s.cmds.any fun c => c.2.tile = t && c.2.graph.isNone && c.2.kind = .stream 0x05 && c.2.stage ≠ .stalled

/-- An scfg, sage or sarg of a tile's core has not taken effect. -/
def State.fabricPending (s : State) (t : Nat) : Bool :=
  s.loadPending t || s.cmds.any fun c => c.2.tile = t && c.2.graph.isNone && c.2.stage = .queued &&
    (c.2.kind = .stream 0x03 || c.2.kind = .stream 0x06)

/-- An instruction of class fabric waits behind the stream commands that configure the tile (R152) (DEDUCED, log entry 33). -/
def inFabricOrder (i : Instr) (s : State) (go : State → Out) : Out :=
  if s.fabricPending s.cur then wait s (.beat i) else go s

/-! ### cfgl (R153) -/

/-- ss.fval of a 0x12: a reason and a slot number (R153). -/
def cfgFval (reason : Nat) (n : Dword) : Dword := BitVec.ofNat 64 (reason * 2 ^ 16 + n.toNat % 2 ^ 16)

/-- The number of 16 bytes as a slot's word. -/
def slotWord (bs : List Byte) : Slot128 := BitVec.ofNat 128 (ofBytes bs)

/-- `cfgl` of slot n from g[a]. -/
def loadSlot (i : Instr) (a : BitVec 5) (n : Dword) (len : Nat) (s : State) : Out :=
  let ea := (s.core.reg a).toNat
  let live := (s.tile s.cur).live.isSome
  checks s (localChecks s.core ea 16 ++
    [(decide (n.toNat > 426), 0x12, cfgFval 1 n), (live, 0x12, cfgFval 3 n)]) fun s =>
    if s.loadAbsent ea 16 then wait s (.writeOnce i)
    else
      let w := slotWord (s.readLocal ea 16)
      checks s [(!slotOk s.cur n.toNat w, 0x12, cfgFval 2 n)] fun s =>
        finish (s.setTile s.cur ((s.tile s.cur).setSlot n.toNat w)) len

/-- `cfgl`, form A (R153). -/
def execCfglA (f : FormA) (s : State) : Out :=
  guarded f.gn f.guard lenA s fun s => inFabricOrder (.cfglA f) s fun s =>
    loadSlot (.cfglA f) f.a (s.core.reg f.b) lenA s
/-- `cfgl`, form B. -/
def execCfglB (f : FormB) (s : State) : Out :=
  guarded f.gn f.guard lenB s fun s => inFabricOrder (.cfglB f) s fun s =>
    loadSlot (.cfglB f) f.a (imm16 false f.imm16) lenB s

/-! ### argw (R154) -/

/-- A word with another k. -/
def withK (w : Slot128) (v : Word) : Slot128 :=
  w.extractLsb' 80 48 ++ v ++ w.extractLsb' 0 48

/-- A value for the k of a slot: at once, or, on a live tile, into the argument network (R154). -/
def State.writeArg (s : State) (t n : Nat) (v : Word) : State :=
  let x := s.tile t
  if x.live.isSome then s.setTile t { x with argNet := x.argNet ++ [(n, v)] }
  else s.setTile t (x.setSlot n (withK (x.slot n) v))

/-- `argw` of a value to slot n. -/
def argWrite (n : Dword) (v : Word) (len : Nat) (s : State) : Out :=
  checks s [(decide (n.toNat > 327), 0x12, cfgFval 1 n)] fun s => finish (s.writeArg s.cur n.toNat v) len

/-- `argw`, form A (R154). -/
def execArgwA (f : FormA) (s : State) : Out :=
  guarded f.gn f.guard lenA s fun s => inFabricOrder (.argwA f) s fun s =>
    argWrite (s.core.reg f.a) ((s.core.reg f.b).setWidth 32) lenA s
/-- `argw`, form B. -/
def execArgwB (f : FormB) (s : State) : Out :=
  guarded f.gn f.guard lenB s fun s => inFabricOrder (.argwB f) s fun s =>
    argWrite (BitVec.ofNat 64 (f.ext16.toNat % 512)) (f.imm16.signExtend 32) lenB s
/-- `argw`, form C. -/
def execArgwC (f : FormC) (s : State) : Out :=
  guarded f.gn f.guard lenC s fun s => inFabricOrder (.argwC f) s fun s =>
    argWrite (BitVec.ofNat 64 (f.ext32.toNat % 512)) f.lit32 lenC s

/-! ### Ports (R155 to R157) -/

/-- The port that a sub bit and a register field name. -/
def portOf (sub : BitVec 3) (r : BitVec 5) : Nat := 32 * (sub.toNat % 2) + r.toNat

/-- Every stream command that stood before has left the port. -/
def Port.served (q : Port) (before : List Nat) : Bool := before.all fun c => !q.owners.contains c

/-- `fput` of a value: at once where nothing stands before it and a place is free, else it waits (R131, R155). -/
def portPut (port : Nat) (v : Word) (len : Nat) (s : State) : Out :=
  let q := (s.tile s.cur).fiPort port
  if q.owners = [] && q.room then finish (s.pushFi s.cur port (dataTok v)) len
  else wait s (.fput port v len q.owners)

/-- `fput`, form A (R155). -/
def execFputA (f : FormA) (s : State) : Out :=
  guarded f.gn f.guard lenA s fun s => portPut (portOf f.sub f.d) ((s.core.reg f.a).setWidth 32) lenA s
/-- `fput`, form B. -/
def execFputB (f : FormB) (s : State) : Out :=
  guarded f.gn f.guard lenB s fun s => portPut (portOf f.sub f.d) (f.imm16.signExtend 32) lenB s

/-- A waiting `fput` places its token (R131). -/
def execFputResume (t : Nat) (s : State) : Out :=
  match s.waitOf t with
  | some (.fput port v len before) =>
    let q := (s.tile t).fiPort port
    if q.served before && q.room then .next ((({ s with cur := t } : State).pushFi t port (dataTok v)).resumed len)
    else .next s
  | _ => .next s

/-- What `fget` writes for a token. -/
def tokenDword (k : Token) : Dword := BitVec.ofNat 64 (k.kind.toNat * 2 ^ 32 + k.data.toNat)

/-- `fget` with a limit of fc or none: at once where nothing stands before it and a token is present (R131, R156). -/
def portGet (port : Nat) (d : BitVec 5) (limit : Option Nat) (len : Nat) (s : State) : Out :=
  let q := (s.tile s.cur).foPort port
  match q.owners, q.q with
  | [], k :: _ => writeReg (s.popFo s.cur port) d (tokenDword k) len
  | _, _ => wait s (.fget port d limit (s.die (dieOf s.cur)).cycle q.owners)

/-- `fget`, form A (R156). -/
def execFgetA (f : FormA) (s : State) : Out :=
  guarded f.gn f.guard lenA s fun s => portGet (portOf f.sub f.a) f.d none lenA s
/-- `fget`, form B: a limit of imm16 × 16 fc. -/
def execFgetB (f : FormB) (s : State) : Out :=
  guarded f.gn f.guard lenB s fun s => portGet (portOf f.sub f.a) f.d (some (f.imm16.toNat * 16)) lenB s

/-- The length of a waiting `fget`. -/
def fgetLen (limit : Option Nat) : Nat := if limit.isSome then lenB else lenA

/-- A waiting `fget` pops a token (R156), of form B one that stands in the port by the end of its limit. -/
def execFgetResume (t : Nat) (s : State) : Out :=
  match s.waitOf t with
  | some (.fget port d limit since before) =>
    let q := (s.tile t).foPort port
    match q.q with
    | k :: _ =>
      if q.served before && limit.all fun n => decide ((s.die (dieOf t)).cycle ≤ since + n) then
        let s := ({ s with cur := t } : State).popFo t port
        .next ((s.withCore (s.core.setReg d (tokenDword k))).resumed (fgetLen limit))
      else .next s
    | [] => .next s
  | _ => .next s

/-- The wait of a form B `fget` expires (R156): its limit is over, and no token is there to take in its last fc. -/
def execFgetTimeout (t : Nat) (s : State) : Out :=
  match s.waitOf t with
  | some (.fget port d (some limit) since before) =>
    let q := (s.tile t).foPort port
    let now := (s.die (dieOf t)).cycle
    let ready := q.q ≠ [] && q.served before
    if since + limit < now || (since + limit = now && !ready) then
      let s := { s with cur := t }
      .next ((s.withCore (s.core.setReg d 0x0000000700000000)).resumed lenB)
    else .next s
  | _ => .next s

/-- The availability of a port (R157): free places of an fi port, tokens of an fo port. -/
def Tile.available (x : Tile) (fo : Bool) (port : Nat) : Nat :=
  if fo then (x.foPort port).q.length else 32 - (x.fiPort port).q.length

/-- `fcnt`, form A (R157). -/
def execFcntA (f : FormA) (s : State) : Out :=
  guarded f.gn f.guard lenA s fun s =>
    writeReg s f.d (BitVec.ofNat 64 ((s.tile s.cur).available (f.sub.getLsbD 1) (portOf f.sub f.a))) lenA

/-- `fcnt`, form B: waits until the availability is at least imm16. -/
def execFcntB (f : FormB) (s : State) : Out :=
  guarded f.gn f.guard lenB s fun s =>
    let n := (s.tile s.cur).available (f.sub.getLsbD 1) (portOf f.sub f.a)
    if f.imm16.toNat ≤ n then writeReg s f.d (BitVec.ofNat 64 n) lenB
    else wait s (.fcnt (f.sub.getLsbD 1) (portOf f.sub f.a) f.imm16.toNat f.d)

/-- A waiting `fcnt` reads its port (R157). -/
def execFcntResume (t : Nat) (s : State) : Out :=
  match s.waitOf t with
  | some (.fcnt fo port least d) =>
    let n := (s.tile t).available fo port
    if least ≤ n then
      let s := { s with cur := t }
      .next ((s.withCore (s.core.setReg d (BitVec.ofNat 64 n))).resumed lenB)
    else .next s
  | _ => .next s

/-! ### Accumulators (R158, R159) -/

/-- Two words as 64 bits, low word first. -/
def pair (ws : List Word) (j : Nat) : Dword := (ws[2 * j + 1]?.getD 0) ++ (ws[2 * j]?.getD 0)

/-- A piece of an accumulator's value, by its mode (R158). A sub of a disabled slot that is no mode reads as csum (DESIGN CHOICE, log
entry 87). -/
def accPiece (mode piece : Nat) (w : List Word) : Dword :=
  match mode with
  | 0 => if piece = 0 then pair [w[1]?.getD 0, w.headD 0] 0 else 0
  | 1 | 2 => if piece = 0 then ((if w = [] then 0 else w.headD 0).signExtend 64) else 0
  | 3 | 4 => if piece = 0 then (if w = [] then (accIdentity mode).headD 0 else w.headD 0).setWidth 64 else 0
  | _ => pair (if w = [] then accIdentity 5 else w) piece

/-- The slot of the accumulator that a field names. -/
def accSlot (a : BitVec 5) : Nat := slotAc (a.toNat % 16)

/-- `acrd` (R158). -/
def execAcrd (f : FormA) (s : State) : Out :=
  guarded f.gn f.guard lenA s fun s => inFabricOrder (.acrd f) s fun s =>
    let x := s.tile s.cur
    let mode := (unpackEl (x.slot (accSlot f.a))).sub.toNat
    writeReg s f.d (accPiece mode f.sub.toNat (x.unitAt (accSlot f.a)).w) lenA

/-- `acclr` (R159). The part of a CST group that a `csum` has received stays (DESIGN CHOICE, log entry 79). -/
def execAcclr (f : FormA) (s : State) : Out :=
  guarded f.gn f.guard lenA s fun s => inFabricOrder (.acclr f) s fun s =>
    let u := (s.tile s.cur).unitAt (accSlot f.a)
    finish (s.setUnit s.cur (accSlot f.a) { u with w := [] }) lenA

end Sys2Proof.Machine
end

