-- ==== Sys2Proof/Machine/Commands.lean ====
section
/-! DEFINITION. Stream commands: capture and the checks at issue (R33 to R36, R184 to R187, R203, R205, R222, R242, R253 to
R264, R269, R325, R356, R359, R361), the stream command queue and its dispatch (R34, R249), the commands on ports (R131,
R185, R186, R217), the ring (R222, R223), and completion and report (R232, R237, R238, R250 to R252). -/

namespace Sys2Proof.Machine

/-! ### Fields of a command -/

/-- The stream command code; 0xFF for a command that is none. -/
def Cmd.code (c : Cmd) : Nat :=
  match c.kind with
  | .stream n => n
  | .sdsave _ _ => 0xFF
  | .sdload _ _ => 0xFF
  | .ctxsv _ _ _ => 0xFF
  | .ctxld _ _ => 0xFF
  | .tier _ => 0xFF

/-- A of W0. -/
def Cmd.a (c : Cmd) : Nat := (c.w0.extractLsb' 16 8).toNat
/-- B of W0. -/
def Cmd.b (c : Cmd) : Nat := (c.w0.extractLsb' 24 8).toNat
/-- sn of W0. -/
def Cmd.sn (c : Cmd) : Nat := (c.w0.extractLsb' 8 3).toNat
/-- The values of the registers named in [4:0] of W1, W2 and W3. -/
def Cmd.r1 (c : Cmd) : Dword := c.reg (c.w1.toNat % 32)
def Cmd.r2 (c : Cmd) : Dword := c.reg (c.w2.toNat % 32)
def Cmd.r3 (c : Cmd) : Dword := c.reg (c.w3.toNat % 32)
/-- The values of the registers named in [9:5] of W2 and W3 and in [10:6] of W3. -/
def Cmd.r2high (c : Cmd) : Dword := c.reg (c.w2.toNat / 32 % 32)
def Cmd.r3high (c : Cmd) : Dword := c.reg (c.w3.toNat / 32 % 32)
def Cmd.r3image (c : Cmd) : Dword := c.reg (c.w3.toNat / 64 % 32)

/-- The fi or fo port that a port command serves: fo p at p, fi p at 64 + p. -/
def Cmd.port (c : Cmd) : Option Nat :=
  let n := c.code
  if n = 0x00 || n = 0x02 || n = 0x04 || n = 0x15 then some (64 + c.a)
  else if n = 0x01 then some c.a
  else if n = 0x13 || n = 0x14 then some (if c.w1.getLsbD 5 then 64 + c.a else c.a)
  else none

/-- The command feeds or drains a port token by token (R185, R186, R205). -/
def Cmd.onPort (c : Cmd) : Bool := c.code = 0x00 || c.code = 0x01 || c.code = 0x02 || c.code = 0x04 || c.code = 0x15

/-- The command stands in a queue of the matrix array (R249). -/
def Cmd.onArray (c : Cmd) : Bool := c.code = 0x07 || c.code = 0x08 || c.code = 0x09

/-- The command is carried by a copy engine (R249). -/
def Cmd.onCopy (c : Cmd) : Bool := c.code = 0x0A || c.code = 0x0B || c.code = 0x0C || c.code = 0x11

/-! ### Capture and checks at issue (R34) -/

/-- Who issues a command: its tile, function and mode, the address of W0, what a register number reads as, and what a
word of the tile's scratchpad reads as. -/
structure Issuer where
  tile : Nat
  fn : Nat
  user : Bool
  pc : BitVec 48
  reg : BitVec 5 → Dword
  read : Nat → Word

/-- The values of the registers that fields of W1 to W3 may name (R34). -/
def captureRegs (f : BitVec 5 → Dword) (c : StreamWord) : Map Dword :=
  [c.w1.extractLsb' 0 5, c.w2.extractLsb' 0 5, c.w2.extractLsb' 5 5, c.w3.extractLsb' 0 5, c.w3.extractLsb' 5 5,
   c.w3.extractLsb' 6 5].foldl (fun m r => mapSet m r.toNat (f r)) []

/-- A names a tensor ID (R35). -/
def usesA (code : Nat) : Bool := (0x09 ≤ code && code ≤ 0x0D) || code = 0x07 || (0x10 ≤ code && code ≤ 0x12)
/-- B names a tensor ID (R35). -/
def usesB (code : Nat) : Bool :=
  code = 0x00 || code = 0x01 || code = 0x03 || (0x09 ≤ code && code ≤ 0x0D) || code = 0x11 || code = 0x13

/-- Bytes from the start of a tensor to the end of its first rows, where strides only go up. -/
def entExtent (e : Entry512) (rows : Nat) : Nat :=
  let r := rows - 1
  let d1 := entDim e 1
  let d2 := entDim e 2
  let i1 := r % d1
  let i2 := r / d1 % d2
  let i3 := r / (d1 * d2)
  let at' (a b c : Nat) : Nat := a * entStride e 1 + b * entStride e 2 + c * entStride e 3
  let top := at' i1 i2 i3
  let top := if i2 = 0 then top else max top (at' (d1 - 1) (i2 - 1) i3)
  let top := if i3 = 0 then top else max top (at' (d1 - 1) (d2 - 1) (i3 - 1))
  ((entDim e 0 + top) * entWidth e + 7) / 8

/-- The checks on n scratchpad bytes from an address: alignment, range, supervisor area. -/
def areaChecks (x : Issuer) (a n align : Nat) : List (Bool × BitVec 7) :=
  [(decide (a % align ≠ 0), 0x05), (decide (a + n > spLast + 1), 0x06), (x.user && decide (a < supervisorArea), 0x03)]

/-- Bytes of an element, where its format is of 16 or 32 bits, else 1 (R254). -/
def elementAlign (e : Entry512) : Nat := if 16 ≤ entWidth e then entWidth e / 8 else 1

/-- The checks of R254 on a tensor at a register's value; R185 makes them without alignment in space 0. -/
def spaceChecks (x : Issuer) (e : Entry512) (reg : Dword) (va : Bool) (rows : Nat) (alignLocal : Bool) :
    List (Bool × BitVec 7) :=
  if va then [(decide (((entBase e : Int) + reg.toInt) % elementAlign e ≠ 0), 0x05)]
  else areaChecks x reg.toNat (entExtent e rows) (if alignLocal then elementAlign e else 1)

/-- R254 on the source and destination of a copy. -/
def copySpaces (x : Issuer) (c : Cmd) : List (Bool × BitVec 7) :=
  spaceChecks x c.entA c.r1 (c.w1.getLsbD 5) (entRows c.entA) true ++
  spaceChecks x c.entB c.r2 (c.w2.getLsbD 5) (entRows c.entB) true

/-- Same extents in all four dimensions. -/
def sameDims (a b : Entry512) : Bool := (List.range 4).all fun j => entDim a j = entDim b j

/-- The split of a scopy (R253). -/
def Cmd.split (c : Cmd) : Nat := if c.code = 0x0A then c.w3.toNat / 2 ^ 11 % 4 else 0

/-- A scopy has a follow-on (R253). -/
def Cmd.hasFollow (c : Cmd) : Bool := c.code = 0x0A && c.w3.getLsbD 5

/-- A per-tensor scale that is finite and positive (R259). -/
def goodTscale (w : Word) : Bool :=
  match decodeVal fFP32 w.toNat with
  | .fin false _ _ => true
  | _ => false

/-- R255. A split reads FP32 and writes BF16. -/
def copyFormats (c : Cmd) : Bool :=
  let rowsOnly := c.code = 0x0B || c.code = 0x0C
  (if rowsOnly then entDim c.entA 0 ≠ entDim c.entB 0 else !sameDims c.entA c.entB) ||
  entFormat c.entB = fE8M0 ||
  (c.code ≠ 0x11 && entScale c.entB ≠ 0) ||
  (c.code = 0x11 && (entScale c.entB = 0 || entWidth c.entB > 8)) ||
  (c.code = 0x11 && entScale c.entB = 4 && !goodTscale (entTscale c.entB)) ||
  (c.split ≠ 0 && (entFormat c.entA ≠ fFP32 || entFormat c.entB ≠ fBF16)) ||
  entCount c.entA > 2 ^ 32 || entCount c.entB > 2 ^ 32

/-- The index list of sgath and sscat: as many words as the side that it runs over has rows (R258). -/
def Cmd.indexCount (c : Cmd) : Nat :=
  if c.code = 0x0B then entRows c.entB else if c.code = 0x0C then entRows c.entA else 0

/-- The checks of R258 on the index list. -/
def indexChecks (x : Issuer) (c : Cmd) : List (Bool × BitVec 7) :=
  if c.w3.getLsbD 10 then [(decide (c.r3high.toNat % 4 ≠ 0), 0x05)]
  else areaChecks x c.r3high.toNat (4 * c.indexCount) 4

/-- The row count M of an smat (R264). -/
def Cmd.matrixRows (c : Cmd) : Nat :=
  if c.r2 = 0 then (if c.w1.getLsbD 6 then 0 else entDim c.entA 1) else c.r2.toNat

/-- The format checks of sldw (R51, R262). -/
def weightChecks (x : Issuer) (c : Cmd) : List (Bool × BitVec 7) :=
  [(!isMatrixFmt (entFormat c.entA), 0x32),
   (decide (entRank c.entA > 2 || entDim c.entA 0 > 128 || entDim c.entA 1 > 128), 0x34)] ++
  spaceChecks x c.entA c.r1 (c.w1.getLsbD 5) (entRows c.entA) true

/-- The checks of smat (R51, R264). -/
def streamChecks (x : Issuer) (c : Cmd) : List (Bool × BitVec 7) :=
  let m := c.matrixRows
  let held := c.w2.getLsbD 5 || c.w2.getLsbD 6
  [(!isMatrixFmt (entFormat c.entA), 0x32),
   (decide (entRank c.entA > 2 || entDim c.entA 0 > 128 || m = 0 || m > 65535 || m > entDim c.entA 1) ||
     (held && decide (m > 128)) ||
     !(entFormat c.entB = fFP32 || entFormat c.entB = fBF16 || entFormat c.entB = fFP16), 0x34)] ++
  (if c.w1.getLsbD 6 then [] else spaceChecks x c.entA c.r1 (c.w1.getLsbD 5) (entRows c.entA) true)

/-- The words of a layout program pass R48: each decodes with its fields in range (R270), and one is a stop. -/
def layoutProgramOk (ws : List Nat) : Bool :=
  ws.all (fun w => match decodeLayout (BitVec.ofNat 32 w) with
    | .ok _ => true
    | .error _ => false) && ws.any fun w => w % 16 = 0

/-- The checks of slay (R48, R269), and of R254 on a tensor that lies in the scratchpad. E8M0 is a scale format only
(R51). -/
def layoutChecks (x : Issuer) (c : Cmd) : List (Bool × BitVec 7) :=
  let loc (e : Entry512) (va : Bool) : List (Bool × BitVec 7) :=
    if va then [] else areaChecks x (entBase e) (entExtent e (entRows e)) (elementAlign e)
  areaChecks x c.r1.toNat 256 4 ++
  [(!layoutProgramOk c.words, 0x33), (decide (entFormat c.entB = fE8M0), 0x32)] ++
  loc c.entA (c.w2.getLsbD 0) ++ loc c.entB (c.w2.getLsbD 1)

/-- Is the tile of the node in the set of the function? -/
def State.tileOfFn (s : State) (fn t : Nat) : Bool := s.ownsTile (deviceOf t) fn (t % 160)

/-- The tiles of a cluster of the node. -/
def clusterTiles (k : Nat) : List Nat := (List.range 8).map fun p => 8 * k + p

/-- The largest window of the ring and of a write-once buffer. -/
def windowMax : Nat := 0x40000

/-- The checks of sring (R222). -/
def State.ringChecks (s : State) (x : Issuer) (c : Cmd) : List (Bool × BitVec 7) :=
  let n := c.r2.toNat
  areaChecks x c.r1.toNat n 64 ++
  [(decide (n % 64 ≠ 0 || n = 0 || n > windowMax), 0x10),
   (!(clusterTiles (x.tile / 8)).all (s.tileOfFn x.fn), 0x10)]

/-- The target tile of a sarg (R184, R187). -/
def Cmd.argTile (c : Cmd) : Nat :=
  if c.w2.getLsbD 8 then deviceOf c.tile * 160 + c.w2.toNat % 256 else c.tile

/-- The check of sarg (R187): the tile is in a live region that holds the issuer. -/
def State.argCheck (s : State) (c : Cmd) : Bool :=
  c.w2.getLsbD 8 && (c.w2.toNat % 256 > 159 || match (s.tile c.tile).live with
    | none => true
    | some l => match mapGet s.regions l with
      | none => true
      | some r => !r.tiles.contains c.argTile)

/-- The range of a signed value of sage (R203). -/
def sageRange (v : Dword) : Bool := -(2 : Int) ^ 47 ≤ v.toInt && v.toInt < 2 ^ 47

/-- The checks of sage (R203). -/
def sageChecks (c : Cmd) : List (Bool × BitVec 7) :=
  let w := entWidth c.entB
  [(!(w = 8 || w = 16 || w = 32), 0x32),
   (decide (c.r2.toNat ≥ 2 ^ 32 || c.r3.toNat ≥ 2 ^ 32) || !sageRange c.r2high || !sageRange c.r3high ||
     (c.virtual && !sageRange c.r1), 0x10)]

/-- The words of a write-once buffer (R361). -/
def Cmd.woWords (c : Cmd) : Nat := entCount c.entA

/-- The checks of swo (R361). -/
def State.woChecks (s : State) (x : Issuer) (c : Cmd) : List (Bool × BitVec 7) :=
  let a := c.r1.toNat
  let n := 4 * c.woWords
  let bound := (s.tile x.tile).writeOnce
  let lo := spBase x.tile + a
  areaChecks x a n 4 ++
  [(decide (n > windowMax) || bound.any (fun w => lo < w.base + 4 * w.words && w.base < lo + n) ||
     decide (bound.length ≥ 4), 0x10)]

/-- The first and last byte of a stier range: the VA base plus a signed byte offset (R325). -/
def Cmd.tierStart (c : Cmd) : Int := (entBase c.entA : Int) + c.r1.toInt

/-- The check of stier (R325). -/
def tierCheck (c : Cmd) : Bool := c.r2 = 0 || c.tierStart < 0 || c.tierStart + c.r2.toNat > 2 ^ 52

/-- The check of sxfer (R356). -/
def State.xferCheck (s : State) (x : Issuer) (c : Cmd) : Bool :=
  let far := c.r1.toNat
  c.r2.toNat < 16 || c.r2.toNat > 4096 || far ≥ 2 ^ 20 || far % 256 > 159 || !s.node.contains (far / 2 ^ 8 % 64) ||
  (mapGet (s.tile x.tile).streams (c.port.getD 0)).isSome

/-- The cause of an ERR that sfill or smark places is above 0x5F (R186). -/
def markCheck (c : Cmd) : Bool := c.b = 3 && (c.r1.toNat / 2 ^ 25 % 128) > 0x5F

/-- The value checks of a command's entry, in order. -/
def State.valueChecks (s : State) (x : Issuer) (c : Cmd) : List (Bool × BitVec 7) :=
  match c.code with
  | 0x00 | 0x01 =>
    let n := c.r2.toNat
    let rows := entRows c.entB
    [(decide (n > rows), 0x10)] ++ spaceChecks x c.entB c.r1 (c.w1.getLsbD 5) (if n = 0 then rows else n) false
  | 0x02 | 0x15 => [(markCheck c, 0x10)]
  | 0x03 => sageChecks c
  | 0x04 => [(decide (c.r1.toNat ≥ 2 ^ 32), 0x10)]
  | 0x05 => [(decide (c.r1.toNat % 16 ≠ 0), 0x05)]
  | 0x06 => [(s.argCheck c, 0x10)]
  | 0x07 => weightChecks x c
  | 0x09 => streamChecks x c
  | 0x0A | 0x11 => [(copyFormats c, 0x32)] ++ copySpaces x c
  | 0x0B | 0x0C => [(copyFormats c, 0x32)] ++ copySpaces x c ++ indexChecks x c
  | 0x0D => layoutChecks x c
  | 0x0E => s.ringChecks x c
  | 0x10 => s.woChecks x c
  | 0x12 => [(tierCheck c, 0x10)]
  | 0x13 => [(s.xferCheck x c, 0x10)]
  | 0x14 => [((mapGet (s.tile x.tile).streams (c.port.getD 0)).isNone, 0x10)]
  | _ => []

/-- The first failing check. -/
def firstBad (cs : List (Bool × BitVec 7)) : Option (BitVec 7) := (cs.find? fun c => c.1).map Prod.snd

/-- The checks of R235 for an issuer, in order. -/
def State.barrierIssue (s : State) (x : Issuer) (a : Dword) : Option (BitVec 7) :=
  firstBad [(decide (a.toNat % 16 ≠ 0), 0x05), (s.barrierForeign x.fn a, 0x28),
    (x.user && decide (a.toNat % 2 ^ 22 < supervisorArea), 0x03)]

/-- The command that an issuer's words make, captured (R34). -/
def State.capture (s : State) (x : Issuer) (code : Nat) (w : StreamWord) : Cmd :=
  let ws := packStream code w
  let d := dieOf x.tile
  let c : Cmd := { (default : Cmd) with
    kind := .stream code, w0 := ws[0]?.getD 0, w1 := w.w1, w2 := w.w2, w3 := w.w3
    tile := x.tile, fn := x.fn, user := x.user, pc := x.pc, regs := captureRegs x.reg w
    entA := if usesA code then s.tid d x.fn w.a.toNat else 0
    entB := if usesB code then s.tid d x.fn w.b.toNat else 0
    stage := .queued, gen := 1 }
  let c := { c with bar := if w.bar then some c.r3 else none }
  if code = 0x0D then { c with words := (List.range 64).map fun i => (x.read (c.r1.toNat + 4 * i)).toNat } else c

/-- A command without its follow-on: captured and checked, or a cause and its ss.fval, none where no rule names it
(DEDUCED, log entry 25). The entries' own checks come first (R51, R74), then the barrier (R36, R235), then the command's
values (DEDUCED, log entry 26). -/
def State.buildCmd (s : State) (x : Issuer) (code : Nat) (w : StreamWord) : Except (BitVec 7 × Option Dword) Cmd :=
  let c := s.capture x code w
  if (usesA code && entBad c.entA) || (usesB code && entBad c.entB) then .error (0x32, none)
  else
    let bar := if code = 0x0F then some c.r1 else c.bar
    match bar.bind fun a => (s.barrierIssue x a).map fun e => (e, some a) with
    | some e => .error e
    | none =>
      if code = 0x0F && (decide (c.r2.toInt < 0) || decide (c.r2.toNat ≥ 2 ^ 48)) then .error (0x2A, some c.r1)
      else match firstBad (s.valueChecks x c) with
        | some e => .error (e, none)
        | none => .ok c

/-- The follow-on of a scopy (R260): the image read, checked and captured at the scopy's issue. A failing check is the
scopy's own fault; no rule names its ss.fval (DEDUCED, log entry 25). -/
def State.buildFollow (s : State) (x : Issuer) (c : Cmd) : Except (BitVec 7 × Option Dword) Cmd :=
  let a := c.r3image.toNat
  match firstBad (areaChecks x a 16 16) with
  | some e => .error (e, none)
  | none =>
    let word (i : Nat) : Word := x.read (a + 4 * i)
    let w := unpackStream (word 0) (word 1) (word 2) (word 3)
    let code := (word 0).toNat / 4 % 64
    match decodeScalar (word 0) (word 1) (word 2) (word 3) with
    | .error _ => .error (0x10, none)
    | .ok _ =>
      if (word 0).toNat % 4 ≠ 3 || !(code = 0x07 || code = 0x09) || w.sn.toNat ≠ c.sn || w.bar || w.gn || w.guard ≠ 0 then
        .error (0x10, none)
      else match s.buildCmd { x with pc := BitVec.ofNat 48 a } code w with
        | .error (e, _) => .error (e, none)
        | .ok f => .ok f

/-- A command and its follow-on, if it has one. -/
def State.buildCommand (s : State) (x : Issuer) (code : Nat) (w : StreamWord) :
    Except (BitVec 7 × Option Dword) (Cmd × Option Cmd) :=
  match s.buildCmd x code w with
  | .error e => .error e
  | .ok c =>
    if c.hasFollow then match s.buildFollow x c with
      | .error e => .error e
      | .ok f => .ok (c, some f)
    else .ok (c, none)

/-! ### The stream command queue (R34) -/

/-- A port command joins the feeders or drainers of its port in issue order (R131). -/
def State.joinPort (s : State) (t n : Nat) (c : Cmd) : State :=
  match c.port with
  | none => s
  | some p =>
    if p < 64 then
      let q := (s.tile t).foPort p
      s.setFo t p { q with owners := q.owners ++ [n] }
    else
      let q := (s.tile t).fiPort (p - 64)
      s.setFi t (p - 64) { q with owners := q.owners ++ [n] }

/-- A command leaves its port. -/
def State.leavePort (s : State) (n : Nat) (c : Cmd) : State :=
  match c.port with
  | none => s
  | some p =>
    if p < 64 then
      let q := (s.tile c.tile).foPort p
      s.setFo c.tile p { q with owners := q.owners.filter (· ≠ n) }
    else
      let q := (s.tile c.tile).fiPort (p - 64)
      s.setFi c.tile (p - 64) { q with owners := q.owners.filter (· ≠ n) }

/-- A matrix command takes its place in its stream (R260, R261). -/
def State.joinArray (s : State) (t n : Nat) (c : Cmd) : State :=
  if c.onArray then
    let x := s.tile t
    let q := (mapGet x.array.queues c.sn).getD []
    s.setTile t { x with array := { x.array with queues := mapSet x.array.queues c.sn (q ++ [n]) } }
  else s

/-- swo binds its buffer and sxfer its end of the stream (R356, R361). -/
def State.bindAtIssue (s : State) (t n : Nat) (c : Cmd) : State :=
  let x := s.tile t
  if c.code = 0x10 then
    s.setTile t { x with writeOnce := x.writeOnce ++
      [{ cmd := n, base := spBase t + c.r1.toNat, words := c.woWords, present := [], bar := c.bar }] }
  else if c.code = 0x13 then
    let e : StreamEnd :=
      { cmd := n, rx := c.w1.getLsbD 5, far := c.r1.setWidth 20, depth := c.r2.toNat, name := BitVec.ofNat 8 c.b
        fn := c.fn, bar := c.bar, paired := false, peer := 0, out := 0, carried := 0, marked := false, closing := none }
    s.setTile t { x with streams := mapSet x.streams (c.port.getD 0) e }
  else s

/-- The command takes its place in the queue (R34 step 4), after the issue drain (R229). -/
def State.placeCmd (s : State) (n : Nat) : State :=
  match mapGet s.cmds n with
  | none => s
  | some c =>
    let t := c.tile
    let s := s.drainCore t 4
    let s := s.setCore t { s.coreOf t with queue := (s.coreOf t).queue ++ [n] }
    let s := { s with cmds := mapSet s.cmds n { c with stage := .queued } }
    let s := ((s.joinPort t n c).joinArray t n c).bindAtIssue t n c
    match c.follow with
    | none => s
    | some f => match mapGet s.cmds f with
      | none => s
      | some d => ({ s with cmds := mapSet s.cmds f { d with stage := .queued } } : State).joinArray t f d

/-- A command, with its follow-on, gets a number; it stands stalled until it is placed. -/
def State.newCmd (s : State) (c : Cmd) (f : Option Cmd) : State × Nat :=
  let n := s.nextCmd
  match f with
  | none => ({ s with cmds := mapSet s.cmds n { c with stage := .stalled }, nextCmd := n + 1 }, n)
  | some d => ({ s with
      cmds := mapSet (mapSet s.cmds n { c with stage := .stalled, follow := some (n + 1) }) (n + 1) { d with stage := .stalled }
      nextCmd := n + 2 }, n)

/-- Commands that the queue holds (R34). -/
def queueDepth : Nat := 64

/-- The control core as an issuer. -/
def State.coreIssuer (s : State) : Issuer :=
  { tile := s.cur, fn := fnOf s.core.fn, user := s.core.user, pc := s.core.pc, reg := s.core.reg
    read := fun a => BitVec.ofNat 32 (s.loadLocal a 4) }

/-- Issue touches an absent word of a write-once buffer: the program of a slay, the image of a follow-on (R362). -/
def State.issueAbsent (s : State) (code : Nat) : Bool :=
  let c := s.capture s.coreIssuer code s.ir
  if code = 0x0D then c.r1.toNat + 256 ≤ spLast + 1 && s.loadAbsent c.r1.toNat 256
  else c.hasFollow && c.r3image.toNat + 16 ≤ spLast + 1 && s.loadAbsent c.r3image.toNat 16

/-- The issue of a stream command (R34). -/
def issueStream (i : Instr) (code : Nat) (s : State) : Out :=
  guarded s.ir.gn s.ir.guard lenStream s fun s =>
    if s.issueAbsent code then wait s (.writeOnce i)
    else match s.buildCommand s.coreIssuer code s.ir with
      | .error (e, some v) => raise s e v
      | .error (e, none) => raiseOpen s e
      | .ok (c, f) =>
        let (s', n) := s.newCmd c f
        if s.core.queue.length < queueDepth then finish (s'.placeCmd n) lenStream else wait s' (.streamQueue n)

/-- `sport` (R185). -/
def execSport (s : State) : Out := issueStream .sport 0x00 s
/-- `ssink` (R185). -/
def execSsink (s : State) : Out := issueStream .ssink 0x01 s
/-- `sfill` (R186). -/
def execSfill (s : State) : Out := issueStream .sfill 0x02 s
/-- `sage` (R203). -/
def execSage (s : State) : Out := issueStream .sage 0x03 s
/-- `sbound` (R205). -/
def execSbound (s : State) : Out := issueStream .sbound 0x04 s
/-- `scfg` (R187). -/
def execScfg (s : State) : Out := issueStream .scfg 0x05 s
/-- `sarg` (R187). -/
def execSarg (s : State) : Out := issueStream .sarg 0x06 s
/-- `sldw` (R262). -/
def execSldw (s : State) : Out := issueStream .sldw 0x07 s
/-- `sswap` (R263). -/
def execSswap (s : State) : Out := issueStream .sswap 0x08 s
/-- `smat` (R264). -/
def execSmat (s : State) : Out := issueStream .smat 0x09 s
/-- `scopy` (R253, R260). -/
def execScopy (s : State) : Out := issueStream .scopy 0x0A s
/-- `sgath` (R258). -/
def execSgath (s : State) : Out := issueStream .sgath 0x0B s
/-- `sscat` (R258). -/
def execSscat (s : State) : Out := issueStream .sscat 0x0C s
/-- `slay` (R269). -/
def execSlay (s : State) : Out := issueStream .slay 0x0D s
/-- `sring` (R222). -/
def execSring (s : State) : Out := issueStream .sring 0x0E s
/-- `sbar` (R242). -/
def execSbar (s : State) : Out := issueStream .sbar 0x0F s
/-- `swo` (R361). -/
def execSwo (s : State) : Out := issueStream .swo 0x10 s
/-- `squant` (R259). -/
def execSquant (s : State) : Out := issueStream .squant 0x11 s
/-- `stier` (R325). -/
def execStier (s : State) : Out := issueStream .stier 0x12 s
/-- `sxfer` (R356). -/
def execSxfer (s : State) : Out := issueStream .sxfer 0x13 s
/-- `sclose` (R359). -/
def execSclose (s : State) : Out := issueStream .sclose 0x14 s
/-- `smark` (R186). -/
def execSmark (s : State) : Out := issueStream .smark 0x15 s

/-- A core stalled at step 4 of R34 places its command once an entry is free. -/
def execStreamQueueAdmit (t : Nat) (s : State) : Out :=
  match s.waitOf t with
  | some (.streamQueue n) =>
    if (s.coreOf t).queue.length < queueDepth then .next (({ s with cur := t } : State).placeCmd n |>.resumed lenStream)
    else .next s
  | _ => .next s

/-! ### Faults after issue (R251, R287) and address generators of engines (R209) -/

/-- A context fault (R287): the context stops, and a record of kind 7 goes to the tenant's fault domain (R338). -/
def State.contextFault (s : State) (ctx node : Nat) (cause : BitVec 7) : State :=
  match mapGet s.contexts ctx with
  | none => s
  | some g =>
    if g.stopped.isSome then s
    else
      let s := { s with contexts := mapSet s.contexts ctx { g with stopped := some cause, ready := [] } }
      let r : AgeRecord := BitVec.ofNat 512
        (cause.toNat + 7 * 2 ^ 20 + fnField g.fn * 2 ^ 32 + node % 2 ^ 16 * 2 ^ 64 + ctx % 64 * 2 ^ 80 + g.flags.toNat * 2 ^ 86)
      s.postFault (dieOf g.home) g.fn g.home r

/-- Flags go to the issuing core, or to the context of a graph's command (R252). -/
def State.giveFlags (s : State) (c : Cmd) : State :=
  match c.graph with
  | none => s.setCore c.tile { s.coreOf c.tile with flags := (s.coreOf c.tile).flags ||| c.flags }
  | some (ctx, _) => match mapGet s.contexts ctx with
    | none => s
    | some g => { s with contexts := mapSet s.contexts ctx { g with flags := g.flags ||| c.flags } }

/-- A command leaves the machine, its queues and its engine. -/
def State.removeCmd (s : State) (n : Nat) : State :=
  match mapGet s.cmds n with
  | none => s
  | some c =>
    let s := s.leavePort n c
    let x := s.tile c.tile
    let array := { x.array with
      queues := x.array.queues.map fun q => (q.1, q.2.filter (· ≠ n))
      running := x.array.running.filter fun r => r.1 ≠ n }
    let ring := match x.ring with
      | some (k, f) => if k = n then none else some (k, f)
      | none => none
    let s := s.setTile c.tile { x with
      array := array, ring := ring, core := { x.core with queue := x.core.queue.filter (· ≠ n) } }
    (({ s with cmds := mapErase s.cmds n } : State).freeEngines (· = n)).endLoading c

/-- A stream command of a core with bar = 1 will never report (R242, R251). -/
def State.loseReport (s : State) (n : Nat) (c : Cmd) : State :=
  if c.bar.isSome && c.graph.isNone && c.code ≠ 0xFF then
    s.setCore c.tile { s.coreOf c.tile with unreported := (s.coreOf c.tile).unreported ++ [n] }
  else s

/-- A command is dropped: it leaves the machine and reports nothing. -/
def State.dropCmd (s : State) (n : Nat) : State :=
  match mapGet s.cmds n with
  | none => s
  | some c => (s.loseReport n c).removeCmd n

/-- A fault of a command after issue (R251): the issuing core takes the cause imprecisely with the address of W0, or the
graph's context stops with it; the flags raised so far count (R252), and a follow-on is dropped (R260). -/
def State.cmdFault (s : State) (n : Nat) (cause : BitVec 7) : State :=
  match mapGet s.cmds n with
  | none => s
  | some c =>
    let s := (s.giveFlags c).loseReport n c
    let s := match c.graph with
      | none => s.impreciseTo c.fn c.tile cause c.pc.toNat
      | some (ctx, node) => s.contextFault ctx node cause
    let s := match c.follow with
      | some f => s.removeCmd f
      | none => s
    s.removeCmd n

/-- The number of a command that an engine carries. -/
def State.cmdNumber (s : State) (c : Cmd) : Option Nat :=
  (s.cmds.find? fun x => x.2.stage = .running && x.2.tile = c.tile && x.2.engine = c.engine && x.2.pc = c.pc && x.2.kind = c.kind).map Prod.fst

/-- An address generator of an engine, a port or an array stops (R209): its record goes to the fault domain. An access that
no path can carry is a fault of its command (R251, R355). -/
def State.stopEngineAge (s : State) (age : Nat) (c : Cmd) (f : FaultFields) : State :=
  match (if f.cause = 0x50 then s.cmdNumber c else none) with
  | some n => s.cmdFault n 0x50
  | none =>
    let r := ageRecord f
    let s := s.setAge age { s.age age with stopped := some r }
    s.postFault (dieOf c.tile) c.fn c.tile r

/-- An engine has read or written n bytes for a command (R347). -/
def State.engineBytes (s : State) (c : Cmd) (write : Bool) (n : Nat) : State :=
  s.count (deviceOf c.tile) c.fn (if write then 0x201 else 0x200) n

/-- What reaching bytes through an address generator comes to; at a fault, the machine as the walks left it (R197). -/
inductive Reach where
  | ok (s : State) (pas : List Nat)
  | fault (s : State) (va : Nat) (f : WalkFault)
  | wait

/-- A virtual address that the hardware is given, which may be 2^64 or more; a negative one lies beyond every VA (R192). -/
def vaOf (a : Int) : Nat := if a < 0 then 2 ^ 64 + (a % 2 ^ 64).toNat else a.toNat

/-- The node-physical addresses of n bytes from a VA (R200). -/
def State.reach (age gdie fn tile access : Nat) : Nat → State → Int → Reach
  | 0, s, _ => .ok s []
  | n + 1, s, va => match s.translate gdie fn tile (s.age age) (vaOf va) access with
    | .fault s g f => .fault (s.setAge age g) (vaOf va % 2 ^ 64) f
    | .wait => .wait
    | .ok s g pa _ => match State.reach age gdie fn tile access n (s.setAge age g) (va + 1) with
      | .ok s r => .ok s (pa :: r)
      | .fault s v f => .fault s v f
      | .wait => .wait

/-- The bytes of an element (R57): how far above its first byte it begins in bits, and how many bytes hold it. -/
def elemShift (bit : Nat) : Nat := bit % 8
def elemBytes (bit w : Nat) : Nat := (bit % 8 + w + 7) / 8

/-- The addresses of the element at a bit offset of a command's tensor: in the scratchpad from `start`, or by an address
generator. -/
def State.reachElement (s : State) (c : Cmd) (age : Nat) (virt : Bool) (start : Int) (bit w access : Nat) : Reach :=
  let a := start + (bit / 8 : Nat)
  let n := elemBytes bit w
  if virt then State.reach age (dieOf c.tile) c.fn c.tile access n s a
  else .ok s ((List.range n).map fun i => spBase c.tile + a.toNat + i)

/-- The number in M that bytes at addresses hold. -/
def State.numOf (s : State) (pas : List Nat) : Nat := ofBytes (pas.map s.mem.get)

/-- The pattern of an element of w bits. -/
def elemGet (raw bit w : Nat) : Nat := raw / 2 ^ elemShift bit % 2 ^ w

/-- The bytes with an element's pattern in place. -/
def elemPut (raw bit w v : Nat) : Nat :=
  raw - elemGet raw bit w * 2 ^ elemShift bit + v % 2 ^ w * 2 ^ elemShift bit

/-- Write an element's pattern into M: its bytes keep their other bits. -/
def State.putElement (s : State) (pas : List Nat) (bit w v : Nat) : State :=
  s.writeCells (pas.zip (toBytes (elemPut (s.numOf pas) bit w v) pas.length))

/-- The base of a tensor: a scratchpad address, or its VA base plus a signed byte offset (R185, R254). -/
def tensorStart (e : Entry512) (reg : Dword) (virt : Bool) : Int :=
  if virt then (entBase e : Int) + reg.toInt else (reg.toNat : Int)

/-! ### Ranges of a report (R237, R250) -/

/-- Add the byte at an address to disjoint ranges in rising order. -/
def addByte : Ranges → Nat → Ranges
  | [], a => [(a, 1)]
  | (b, n) :: r, a =>
    if a + 1 < b then (a, 1) :: (b, n) :: r
    else if a + 1 = b then (a, n + 1) :: r
    else if a < b + n then (b, n) :: r
    else if a = b + n then (match r with
      | (d, m) :: q => if d = a + 1 then (b, n + 1 + m) :: q else (b, n + 1) :: r
      | [] => [(b, n + 1)])
    else (b, n) :: addByte r a

/-- Add bytes. -/
def addBytes (r : Ranges) (as : List Nat) : Ranges := as.foldl addByte r

/-- The bytes that ranges hold. -/
def rangeBytes (r : Ranges) : Nat := r.foldl (fun n x => n + x.2) 0

/-- Replace a command. -/
def State.setCmd (s : State) (n : Nat) (c : Cmd) : State := { s with cmds := mapSet s.cmds n c }

/-! ### Dispatch (R34, R249) -/

/-- Is an earlier scfg of the command's core still loading (R152, R182)? -/
def State.behindLoad (s : State) (t n : Nat) : Bool :=
  s.cmds.any fun c => c.1 < n && c.2.tile = t && c.2.graph.isNone && c.2.code = 0x05 && c.2.stage ≠ .stalled

/-- May a command's engine act (R316, R352)? -/
def State.cmdMay (s : State) (c : Cmd) : Bool :=
  (c.isDraft || s.mayRun (deviceOf c.tile) c.fn) && !(s.die (dieOf c.tile)).lost && !(s.die (dieOf c.tile)).stopped &&
  !s.disabled c.tile

/-- The command leaves the queue and stands with its engine. -/
def State.start (s : State) (n : Nat) (c : Cmd) (engine : Nat) : State :=
  let k := s.coreOf c.tile
  let s := if c.graph.isNone then s.setCore c.tile { k with queue := k.queue.filter (· ≠ n) } else s
  s.setCmd n { c with stage := .running, engine := engine }

/-- The generator of an engine at the start of a command (R60): 448 + n for copy engine n, 456 + n for layout engine n. -/
def engineSeed (c : Cmd) (n : Nat) : Word := srSeed (entSeed c.entB ^^^ BitVec.ofNat 32 (c.tile % 160 * 512 + 448 + n))

/-- A layout engine at the start of a command (R268). -/
def layoutStart (n : Nat) (c : Cmd) : LayoutRun :=
  { cmd := n, pc := 0, prog := c.words.map (BitVec.ofNat 32), lc := Vector.replicate 8 0, count := Vector.replicate 8 0
    sc := Vector.replicate 4 0, dc := Vector.replicate 4 0, stage := [], rm := entRm c.entB, flush := entFlush c.entB
    ranges := [], pending := [], elem := 0 }

/-- The slot of the AGE of a sage holds an enabled agen (R203). -/
def Tile.hasAgen (x : Tile) (a : Nat) : Bool := x.elOp (slotA a) = 0x40 && (x.el (slotA a)).isSome

/-- The engine that a command goes to takes it: a copy engine 0 to 7 or a layout engine 8 or 9 that is free, by its
number; every other kind has one place of its own. -/
def State.dispatchCmd (s : State) (n : Nat) (c : Cmd) (eng : Nat) : State :=
  let d := dieOf c.tile
  let x := s.tile c.tile
  if c.onCopy || c.isDraft then
    if eng < 8 && (mapGet (s.die d).engines eng).isNone && (s.age (copyAge d eng)).stopped.isNone then
      let gen := if c.stage = .suspended then c.gen else engineSeed c eng
      let s := s.start n { c with gen := gen, ageStop := none } (d * 16 + eng)
      let s := s.setAge (copyAge d eng) { Age.reset with stopped := c.ageStop }
      s.setDie d { s.die d with engines := mapSet (s.die d).engines eng n }
    else s
  else if c.code = 0x0D then
    if 8 ≤ eng && eng < 10 && (mapGet (s.die d).layouts eng).isNone then
      let gen := if c.stage = .suspended then c.gen else engineSeed c eng
      let s := s.start n { c with gen := gen, ageStop := none, layout := none } (d * 16 + eng)
      let s := s.setAge (layoutAge d (eng - 8)) { Age.reset with stopped := c.ageStop }
      s.setDie d { s.die d with layouts := mapSet (s.die d).layouts eng (c.layout.getD (layoutStart n c)) }
    else s
  else if c.code = 0x06 then
    if s.behindLoad c.tile n then s
    else (((s.start n c 0).writeArg c.argTile c.a (c.r1.setWidth 32)).removeCmd n).cmdDone c
  else if c.code = 0x03 then
    if s.behindLoad c.tile n then s
    else if !x.hasAgen c.a then s.cmdFault n 0x10
    else
      let u := x.unitAt (slotA c.a)
      if u.bindings.length ≥ 4 then s
      else (s.start n c 0).setUnit c.tile (slotA c.a) { u with bindings := u.bindings ++ [n] }
  else if c.code = 0x0E then
    if x.ring.isSome then s
    else
      let s := s.start n c (portEngine c.tile)
      s.setTile c.tile { s.tile c.tile with ring := some (n, (s.die d).cycle) }
  else if c.code = 0x0F then s
  else if c.code = 0x12 then s.start n c (d * 16 + 10)
  else if c.onArray then s.start n c (arrayEngine c.tile)
  else s.start n c (portEngine c.tile)

/-- A command that stands in no queue waits for an engine. -/
def Cmd.awaits (c : Cmd) : Bool := c.stage = .suspended || (c.stage = .queued && (c.graph.isSome || c.isDraft))

/-- The stream command queue of a core hands its head command to an engine (R249); an engine number of 16 or more hands
it the oldest other command of the tile that has no engine: one that a graph issued (R282), `sdsave` or `sdload` (R307), or
one whose tile has been restored (R326) (DEDUCED, log entry 27). -/
def execCommandDispatch (t eng : Nat) (s : State) : Out :=
  let head := if eng < 16 then (s.coreOf t).queue.head?
    else (s.cmds.find? fun c => c.2.tile = t && c.2.awaits).map Prod.fst
  match head with
  | none => .next s
  | some n => match mapGet s.cmds n with
    | none => .next s
    | some c => if s.cmdMay c && (c.stage = .queued || c.stage = .suspended) then .next (s.dispatchCmd n c (eng % 16)) else .next s

/-! ### Completion and report -/

/-- The die and the key under which an engine's completion queue stands. -/
def cqPlace (eng : Nat) : Nat × Nat := if eng < 2 ^ 20 then (eng / 16, eng % 16) else (dieOf (eng % 2 ^ 20), eng)

/-- A record joins the completion queue of a command's engine where the command asks for a report (R250). -/
def State.pushReport (s : State) (n : Nat) (c : Cmd) (bytes : Nat) (ranges : Ranges) : State :=
  match c.bar with
  | none => s
  | some b =>
    let (d, key) := cqPlace c.engine
    s.pushCq d key { cmd := n, tile := c.tile, fn := c.fn, bar := b, bytes := bytes, expect := 0, arrivals := 0, ranges := ranges
                     own := c.graph.isNone && c.code ≠ 0xFF, ring := c.code = 0x0E }

/-- A command completes (R232, R252): its record, its flags, its follow-on (R260); its engine is free. A graph's command
stands until its node finishes. A region's load refreshes its memory nodes as it completes (R229, R246). -/
def State.completeCmd (s : State) (n : Nat) (c : Cmd) : State :=
  let s := if c.code ≠ 0x05 then s else match mapGet s.regions c.tile with
    | none => s
    | some r => if r.cmd = n then s.refreshNodes r.tiles else s
  let s := ((s.pushReport n c c.bytes c.ranges).giveFlags c).cmdDone c
  let s := match c.follow with
    | none => s
    | some f => match mapGet s.cmds f with
      | none => s
      | some d => s.setCmd f { d with stage := .running, engine := arrayEngine d.tile }
  if c.graph.isSome then (s.removeCmd n).setCmd n { c with stage := .done, bar := none }
  else s.removeCmd n

/-- An engine whose command has every write in M appends its record (R232). -/
def execEngineComplete (n : Nat) (s : State) : Out :=
  match mapGet s.cmds n with
  | none => .next s
  | some c => if s.cmdMay c && c.stage = .complete then .next (s.completeCmd n c) else .next s

/-- An engine applies its head record to its barrier (R237, R238); a failing update is taken imprecisely by the issuing
core with the barrier address, and the record is dropped. An engine of a lost die, or of one whose clock has stopped, does
nothing (R352, R408). -/
def execEngineReport (eng : Nat) (s : State) : Out :=
  let (d, key) := cqPlace eng
  let x := s.die d
  if x.lost || x.stopped then .next s
  else match (mapGet x.cq key).getD [] with
    | [] => .next s
    | r :: rest =>
      .next ((s.setDie d { x with cq := if rest = [] then mapErase x.cq key else mapSet x.cq key rest }).report r)

/-- Every earlier stream command of the core with bar = 1 has reported (R242); one that ended in a fault never does (R251). -/
def State.allReported (s : State) (t n : Nat) : Bool :=
  (s.cmds.all fun c => !(c.1 < n && c.2.tile = t && c.2.graph.isNone && c.2.bar.isSome && c.2.code ≠ 0xFF)) &&
  ((s.coreOf t).unreported.all fun m => n ≤ m) &&
  s.dies.all fun d => d.2.cq.all fun q => q.2.all fun r => !(r.cmd < n && r.tile = t && r.own)

/-- An sbar at the head of its queue arrives (R242). -/
def execSbarArrive (t : Nat) (s : State) : Out :=
  match (s.coreOf t).queue with
  | [] => .next s
  | n :: _ => match mapGet s.cmds n with
    | none => .next s
    | some c =>
      if s.cmdMay c && c.code = 0x0F && s.allReported t n then
        let s := (s.removeCmd n).cmdDone c
        match s.updateBarrier (deviceOf t) c.r1 { bytes := 0, expect := c.r2.toNat, arrivals := 1, ranges := [] } with
        | .ok s' => .next s'
        | .error code => .next (s.imprecise t code c.r1.toNat)
      else .next s

/-! ### Commands on ports -/

/-- Rows that a sport or ssink moves (R185). -/
def Cmd.portRows (c : Cmd) : Nat := if c.r2 = 0 then entRows c.entB else c.r2.toNat

/-- The port command has placed or taken its last token. -/
def State.portDone (s : State) (n : Nat) (c : Cmd) (bytes : Nat) : State :=
  (s.leavePort n c).setCmd n { c with stage := .complete, bytes := bytes }

/-- A port generator stops at an element (R217). -/
def State.stopPort (s : State) (c : Cmd) (va access : Nat) (f : WalkFault) (idx : List Nat) : State :=
  s.stopEngineAge (portAgeNo c.tile) c
    { (default : FaultFields) with
      cause := f.cause, tile := c.tile, kind := 2, access := access, level := f.level, fn := c.fn, va := va
      count := c.moved, loops := idx, pte := f.pte }

/-- The index of a row and a position in it. -/
def rowIndex (e : Entry512) (row i0 : Nat) : List Nat := entIndex e (row * entDim e 0 + i0)

/-- A sport places its next token (R185). -/
def State.sportTurn (s : State) (n : Nat) (c : Cmd) : State :=
  let e := c.entB
  let d0 := entDim e 0
  let rows := c.portRows
  let row := c.rd / (d0 + 1)
  let i0 := c.rd % (d0 + 1)
  let w := entWidth e
  let put (s : State) (k : Token) (c : Cmd) : State :=
    let s := s.pushFi c.tile c.a k
    let c := { c with rd := c.rd + 1 }
    if c.rd = rows * (d0 + 1) + (if c.r2 = 0 then 1 else 0) then s.portDone n c (rangeBytes c.ranges) else s.setCmd n c
  if !((s.tile c.tile).fiPort c.a).room then s
  else if row ≥ rows then put s eotTok c
  else if i0 = d0 then put s eorTok c
  else
    let k := row * d0 + i0
    let bit := entOffset e k * w
    match s.reachElement c (portAgeNo c.tile) c.virtual (tensorStart e c.r1 c.virtual) bit w 0 with
    | .wait => s
    | .fault s va f => s.stopPort c va 0 f (entIndex e k)
    | .ok s pas =>
      put (s.engineBytes c false pas.length) (dataTok (BitVec.ofNat 32 (elemGet (s.numOf pas) bit w)))
        { c with moved := c.moved + 1, ranges := addBytes c.ranges pas }

/-- An ssink takes the head of its port (R185): `rd` is its row, `wr` its place in the row. -/
def State.ssinkTurn (s : State) (n : Nat) (c : Cmd) : State :=
  let e := c.entB
  let w := entWidth e
  match ((s.tile c.tile).foPort c.a).q.head? with
  | none => s
  | some k =>
    let pop (s : State) : State := s.popFo c.tile c.a
    if k.isData then
      if c.rd < entRows e && c.wr < entDim e 0 then
        let j := c.rd * entDim e 0 + c.wr
        let bit := entOffset e j * w
        match s.reachElement c (portAgeNo c.tile) c.virtual (tensorStart e c.r1 c.virtual) bit w 1 with
        | .wait => s
        | .fault s va f => s.stopPort c va 1 f (entIndex e j)
        | .ok s pas =>
          (pop ((s.putElement pas bit w k.data.toNat).engineBytes c true pas.length)).setCmd n
            { c with wr := c.wr + 1, moved := c.moved + 1, ranges := addBytes c.ranges pas }
      else (pop s).setCmd n { c with wr := c.wr + 1 }
    else if k.kind = kEor then
      let c := { c with rd := c.rd + 1, wr := 0 }
      if c.r2 ≠ 0 && c.rd ≥ c.portRows then (pop s).portDone n c (rangeBytes c.ranges) else (pop s).setCmd n c
    else if k.kind = kEot || k.isErr then (pop s).portDone n c (rangeBytes c.ranges)
    else pop s

/-- The data of the tokens of sfill and smark (R186). R186 gives every token of sfill the value of its register, and R43 gives
EOR and EOT data of zero: sfill keeps R186's value for them too (DESIGN CHOICE, log entry 60). -/
def Cmd.markData (c : Cmd) : Word := if c.code = 0x15 && c.b < 3 then 0 else c.r1.setWidth 32

/-- A port command moves its next token, where the port has come to it (R131). -/
def State.portTurn (s : State) (n : Nat) (c : Cmd) : State :=
  let x := s.tile c.tile
  let owners := if c.code = 0x01 then (x.foPort c.a).owners else (x.fiPort c.a).owners
  if owners.head? ≠ some n then s
  else match c.code with
    | 0x00 => s.sportTurn n c
    | 0x01 => s.ssinkTurn n c
    | 0x02 =>
      if c.rd ≥ c.r2.toNat then s.portDone n c (4 * c.rd)
      else if !(x.fiPort c.a).room then s
      else
        let s := s.pushFi c.tile c.a { kind := BitVec.ofNat 3 c.b, data := c.markData }
        let c := { c with rd := c.rd + 1 }
        if c.rd ≥ c.r2.toNat then s.portDone n c (4 * c.rd) else s.setCmd n c
    | 0x04 =>
      if (x.fiPort c.a).room then
        (s.pushFi c.tile c.a { kind := kBound, data := c.r1.setWidth 32 }).portDone n c 0 else s
    | 0x15 =>
      if (x.fiPort c.a).room then
        (s.pushFi c.tile c.a { kind := BitVec.ofNat 3 c.b, data := c.markData }).portDone n c 0 else s
    | _ => s

/-- A sport or ssink through the tile's port address generator. -/
def Cmd.throughPortAge (c : Cmd) : Bool := (c.code = 0x00 || c.code = 0x01) && c.virtual

/-- A port command with no address generator moves its next token. -/
def State.localPortTurn (s : State) (n : Nat) (c : Cmd) : State := if c.throughPortAge then s else s.portTurn n c

/-- The port address generator of a tile serves its commands one at a time in queue order (R217). -/
def execPortAgeStream (t : Nat) (s : State) : Out :=
  match s.cmds.find? fun c => c.2.tile = t && c.2.stage = .running && c.2.throughPortAge with
  | none => .next s
  | some (n, c) =>
    if s.cmdMay c && (s.tile t).portAge.stopped.isNone then .next (s.portTurn n c) else .next s

/-! ### The ring (R223) -/

/-- The sring commands at the rendezvous of a cluster of the node: (tile, command number). -/
def State.ringCmds (s : State) (k : Nat) : List (Nat × Nat) :=
  (clusterTiles k).filterMap fun t => (s.tile t).ring.map fun r => (t, r.1)

/-- The fc that a tile's command has waited for the other seven. -/
def ringLimit : Nat := 1048576

/-- The local stores that a tile's core holds for its window (R224): they enter the rotation where the free value has the tile's
bit, and are overwritten by it where it has not (DESIGN CHOICE, log entry 2). `before` tells the drain before the rotation from
what comes after it. -/
def ringStore (a n : Nat) (before : Bool) (s : State) (t : Nat) : State :=
  let p (x : Nat) : Bool := inRange (spBase t + a) n x
  let enters := (Config.freeDword s.tick).getLsbD (t % 8)
  if before && enters then
    let (s', v) := drainView s (coreAgent t) (s.coreOf t).view p
    s'.setCore t { s'.coreOf t with view := v }
  else if !before && !enters then
    let c := s.coreOf t
    let v := c.view
    let q (x : Nat) : Bool := v.pb.any fun e => e.addr = x && p x
    s.setCore t { c with view := { refreshView s.mem v q with pb := v.pb.filter fun e => !p e.addr } }
  else s

/-- The same of every tile of a cluster. -/
def ringStores (a n : Nat) (before : Bool) (s : State) (ts : List Nat) : State := ts.foldl (ringStore a n before) s

/-- The eight commands of a cluster meet: the windows move one position on, or every tile takes 0x1C (R222, R223). -/
def execRingRendezvous (k : Nat) (s : State) : Out :=
  let here := s.ringCmds k
  let cmds := here.filterMap fun h => (mapGet s.cmds h.2).map fun c => (h.1, h.2, c)
  match cmds with
  | [] => .next s
  | (_, _, c0) :: _ =>
    if cmds.length ≠ 8 || !cmds.all (fun x => s.cmdMay x.2.2) then .next s
    else if !cmds.all fun x => x.2.2.r1 = c0.r1 && x.2.2.r2 = c0.r2 then
      .next (cmds.foldl (fun s x => s.cmdFault x.2.1 0x1C) s)
    else
      let a := c0.r1.toNat
      let n := c0.r2.toNat
      let s := ringStores a n true s (cmds.map Prod.fst)
      let windows := cmds.map fun x => s.mem.read (spBase x.1 + a) n
      let s := (List.range 8).foldl (fun s p => s.writeM (spBase (8 * k + p) + a) (windows[(p + 7) % 8]?.getD [])) s
      let s := ringStores a n false s (cmds.map Prod.fst)
      let s := { s with tick := s.tick + 1 }
      .next (cmds.foldl (fun s x =>
        let s := s.setTile x.1 { s.tile x.1 with ring := none }
        s.setCmd x.2.1 { x.2.2 with stage := .complete, bytes := n, ranges := [(spBase x.1 + a, n)] }) s)

/-- A waiting sring expires (R223): its core takes 0x19, and every command at the rendezvous is dropped. -/
def execRingTimeout (t : Nat) (s : State) : Out :=
  match (s.tile t).ring with
  | none => .next s
  | some (n, since) =>
    let here := s.ringCmds (t / 8)
    if since + ringLimit ≤ (s.die (dieOf t)).cycle && here.length ≠ 8 then
      .next ((here.map Prod.snd).foldl State.dropCmd (s.cmdFault n 0x19))
    else .next s

end Sys2Proof.Machine
end

