-- ==== Sys2Proof/Machine/Engines.lean ====
section
/-! DEFINITION. The copy engine (R253 to R260), the matrix array (R261 to R267) and the layout engine (R268 to R271). -/

namespace Sys2Proof.Machine

/-! ### Elements of a tensor as engines read them -/

/-- What fetching an element comes to: its pattern, its block scale's pattern, the bytes read; at a fault, the machine as the
walks left it (R197). -/
inductive Fetch where
  | ok (s : State) (pat scale : Nat) (pas : List Nat)
  | fault (s : State) (va : Nat) (f : WalkFault)
  | wait

/-- Fetch the element at position k with its block scale, which lies at the entry's scale base (R57, R71). -/
def State.fetchElement (s : State) (c : Cmd) (age : Nat) (e : Entry512) (virt : Bool) (start : Int) (k : Nat) : Fetch :=
  let w := entWidth e
  let bit := entOffset e k * w
  match s.reachElement c age virt start bit w 0 with
  | .wait => .wait
  | .fault s va f => .fault s va f
  | .ok s pas =>
    let pat := elemGet (s.numOf pas) bit w
    if entScale e = 0 then .ok s pat 0 pas
    else match State.reach age (dieOf c.tile) c.fn c.tile 0 1 s ((entScaleBase e : Int) + entBlockOf e k) with
      | .wait => .wait
      | .fault s va f => .fault s va f
      | .ok s more => .ok s pat (s.numOf more) (pas ++ more)

/-- The value of an element under its block scale (R71). -/
def elemValue (e : Entry512) (flush : Bool) (pat scale : Nat) : Val :=
  let v := decodeFlush (entFormat e) flush pat
  if entScale e = 0 then v else applyScale v (decodeVal (scaleFmt (entScale e)) scale)

/-! ### The copy engine: elements -/

/-- An index that skips its row (R258). -/
def skipRow : Nat := 0xFFFFFFFF

/-- Is the index list read whole? -/
def Cmd.indexed (c : Cmd) : Bool := c.words.length = c.indexCount

/-- The index of row j, or of a row whose index is not read, `skipRow`. Until the list is whole, `staged` holds index j at 2 j
and the element of place k at 2 k + 1; then it holds that element at k. -/
def Cmd.rowIndex (c : Cmd) (j : Nat) : Nat := (if c.indexed then c.words[j]? else mapGet c.staged (2 * j)).getD skipRow

/-- Where the element of place k stands in `staged`. -/
def Cmd.stagedAt (c : Cmd) (k : Nat) : Nat := if c.indexed then k else 2 * k + 1

/-- The source position of the copy's place k; none for a skipped sgath row, or one whose index is not read or out of range. -/
def Cmd.copySource (c : Cmd) (k : Nat) : Option Nat :=
  if c.code = 0x0B then
    let d0 := entDim c.entA 0
    let x := c.rowIndex (k / d0)
    if x = skipRow || x ≥ entRows c.entA then none else some (x * d0 + k % d0)
  else some k

/-- The destination position of the copy's place k. -/
def Cmd.copyDest (c : Cmd) (k : Nat) : Nat :=
  if c.code = 0x0C then
    let d0 := entDim c.entA 0
    (c.words[k / d0]?.getD skipRow) * d0 + k % d0
  else k

/-- The place k of an sscat lies in a row that is written. -/
def Cmd.copyPlace (c : Cmd) (k : Nat) : Bool :=
  if c.code = 0x0C then k < entCount c.entA && c.rowIndex (k / entDim c.entA 0) ≠ skipRow
  else k < entCount c.entB

/-- How many places the copy writes: elements, and for squant the scales of its blocks too. -/
def Cmd.copyPlaces (c : Cmd) : Nat :=
  if c.code = 0x11 then entCount c.entB + entRows c.entB * entBlocks c.entB
  else if c.code = 0x0C then (c.words.filter (· ≠ skipRow)).length * entDim c.entA 0
  else entCount c.entB

/-- A later row of an sscat with the same index has written the place already (R258: the higher j wins). -/
def Cmd.overtaken (c : Cmd) (k : Nat) : Bool :=
  c.code = 0x0C && c.did.any fun j => k < j && c.copyDest j = c.copyDest k

/-- The number of the engine that carries a copy or layout command. -/
def Cmd.engineNo (c : Cmd) : Nat := c.engine % 16

/-- The address generator of a command's copy engine. -/
def Cmd.copyAgeNo (c : Cmd) : Nat := copyAge (dieOf c.tile) c.engineNo

/-- A copy engine's address generator stops (R209, R210, R251). -/
def State.stopCopy (s : State) (c : Cmd) (va access : Nat) (f : WalkFault) (idx : List Nat) : State :=
  s.stopEngineAge c.copyAgeNo c
    { (default : FaultFields) with
      cause := f.cause, tile := c.tile, unit := c.engineNo, kind := 3, access := access, level := f.level, fn := c.fn
      va := va, loops := idx, pte := f.pte }

/-- Every place of the copy has been written: the command is complete, with the bytes that it wrote. -/
def Cmd.copyDone (c : Cmd) : Cmd :=
  if c.did.length = c.copyPlaces then { c with stage := .complete, bytes := rangeBytes c.ranges } else c

/-- The engine reads index j (R258), in any order (R232). When the list is whole, every index is checked. -/
def State.readIndex (s : State) (n j : Nat) (c : Cmd) : State :=
  let r := if c.w3.getLsbD 10 then
      State.reach c.copyAgeNo (dieOf c.tile) c.fn c.tile 0 4 s ((c.r3high.toNat : Int) + 4 * j)
    else .ok s ((List.range 4).map fun i => spBase c.tile + c.r3high.toNat + 4 * j + i)
  if j ≥ c.indexCount || (mapGet c.staged (2 * j)).isSome then s
  else match r with
  | .wait => s
  | .fault s va f => s.stopCopy c va 0 f [j]
  | .ok s pas =>
    let s := s.engineBytes c false 4
    let got := mapSet c.staged (2 * j) (s.numOf pas)
    let list := got.filter fun x => x.1 % 2 = 0
    let c : Cmd := if list.length = c.indexCount then
        { c with words := list.map Prod.snd, staged := (got.filter fun x => x.1 % 2 = 1).map fun x => (x.1 / 2, x.2) }
      else { c with staged := got }
    let limit := if c.code = 0x0B then entRows c.entA else entRows c.entB
    if c.indexed && c.words.any fun x => x ≠ skipRow && x ≥ limit then (s.setCmd n c).cmdFault n 0x27
    else s.setCmd n (if c.indexed then c.copyDone else c)

/-- The engine reads the element of place k (R256). That of a gathered or scattered row needs no index but its row's (R232). -/
def State.readPlace (s : State) (n k : Nat) (c : Cmd) : State :=
  let places := if c.code = 0x0B then entCount c.entB else entCount c.entA
  if k ≥ places || !c.copyPlace k || (mapGet c.staged (c.stagedAt k)).isSome || (c.code ≠ 0x11 && c.did.contains k) then s
  else match c.copySource k with
    | none => s
    | some p =>
      let virt := c.w1.getLsbD 5
      match s.fetchElement c c.copyAgeNo c.entA virt (tensorStart c.entA c.r1 virt) p with
      | .wait => s
      | .fault s va f => s.stopCopy c va 0 f (entIndex c.entA p)
      | .ok s pat scale pas => (s.engineBytes c false pas.length).setCmd n { c with staged := mapSet c.staged (c.stagedAt k) (pat + scale * 2 ^ 32) }

/-- The engine reads for a copy, in any order (R232): the element of place k, and, until the list of an sgath or sscat is whole,
index k / 2 for an even k and the element of place k / 2 for an odd one. -/
def State.copyRead (s : State) (n k : Nat) (c : Cmd) : State :=
  if c.indexed then s.readPlace n k c
  else if k % 2 = 0 then s.readIndex n (k / 2) c
  else s.readPlace n (k / 2) c

/-! ### Conversion (R256, R257) -/

/-- The difference of two values that are finite, exactly; zero minus zero takes the sign rule of R114. -/
def subExact (a b : Val) : Val :=
  match a, b with
  | .fin x m e, .fin y n k => Val.ofScaled (scaledInt x m e (min e k) - scaledInt y n k (min e k)) (min e k)
  | .zero x, .zero y => .zero (x && !y)
  | v, .zero _ => v
  | .zero _, v => v.negate
  | v, _ => v

/-- The BF16 term of a finite value, toward zero, without flags (R257). -/
def bf16Term (v : Val) : Nat := (convert fBF16 rmRTZ false 1 v).bits

/-- The split of R257: the term's pattern and the flags. -/
def splitTerm (term : Nat) (flush : Bool) (x : Val) : Nat × BitVec 5 :=
  let special : Nat × BitVec 5 :=
    let r := convert fBF16 rmRTZ false 1 x
    (if term = 0 then r.bits else 0, r.flags &&& flInvalid)
  let split : Nat × BitVec 5 :=
    let t0 := bf16Term x
    let r1 := subExact x (decodeVal fBF16 t0)
    let t1 := bf16Term r1
    let r2 := subExact r1 (decodeVal fBF16 t1)
    let t2 := bf16Term r2
    let lost := match subExact r2 (decodeVal fBF16 t2) with
      | .zero _ => flNone
      | _ => flInexact
    let t := if term = 0 then t0 else if term = 1 then t1 else t2
    if flush && isSubnormal fBF16 t then (t / 2 ^ 15 * 2 ^ 15, lost ||| flUnderflow ||| flInexact) else (t, lost)
  match x with
  | .fin _ _ _ => split
  | .zero _ => split
  | .inf _ => special
  | .nan _ _ _ => special
  | .nar => special

/-- The value that a copy converts (R256): its source's flush, block scale and per-tensor scale applied. -/
def Cmd.copyValue (c : Cmd) (pat scale : Nat) : Val :=
  let v := elemValue c.entA (entFlush c.entA) pat scale
  if entScale c.entA = 4 then applyScale v (decodeVal fFP32 (entTscale c.entA).toNat) else v

/-- The pattern that a copy writes for a pattern that it read (R256). -/
def Cmd.copyPattern (c : Cmd) (pat scale : Nat) : Rounded :=
  let f := entFormat c.entA
  let plain (bits : Nat) (flags : BitVec 5) : Rounded := { bits := bits, flags := flags, gen := c.gen }
  if c.split ≠ 0 then
    let (bits, flags) := splitTerm (c.split - 1) (entFlush c.entB) (c.copyValue pat scale)
    plain bits flags
  else if f = entFormat c.entB && entScale c.entA = 0 then
    if (entFlush c.entA || entFlush c.entB) && isSubnormal f pat then
      plain (pat / 2 ^ (entWidth c.entA - 1) * 2 ^ (entWidth c.entA - 1))
        (if entFlush c.entA then flNone else flUnderflow ||| flInexact)
    else plain pat flNone
  else convert (entFormat c.entB) (entRm c.entB) (entFlush c.entB) c.gen (c.copyValue pat scale)

/-- The engine writes place k of a scopy, sgath or sscat (R256); none before it has read every index (R258). -/
def State.copyWrite (s : State) (n k : Nat) (c : Cmd) : State :=
  let skipped := (c.copySource k).isNone
  match (if skipped then some 0 else mapGet c.staged k) with
  | none => s
  | some v =>
    if !c.indexed || !c.copyPlace k || c.did.contains k then s
    else
      let e := c.entB
      let w := entWidth e
      let p := c.copyDest k
      let bit := entOffset e p * w
      let virt := c.w2.getLsbD 5
      match s.reachElement c c.copyAgeNo virt (tensorStart e c.r2 virt) bit w 1 with
      | .wait => s
      | .fault s va f => s.stopCopy c va 1 f (entIndex e p)
      | .ok s pas =>
        let r : Rounded := if skipped then { bits := 0, flags := flNone, gen := c.gen }
          else c.copyPattern (v % 2 ^ 32) (v / 2 ^ 32)
        let s := if c.overtaken k then s else (s.putElement pas bit w r.bits).engineBytes c true pas.length
        let c := { c with did := k :: c.did, staged := mapErase c.staged k, flags := c.flags ||| r.flags, gen := r.gen
                          ranges := addBytes c.ranges pas }
        s.setCmd n c.copyDone

/-! ### squant (R259) -/

/-- The magnitude of a value, with infinities above every number and NaN above all. -/
def magnitudeLess (a b : Val) : Bool :=
  let rank (v : Val) : Nat := match v with
    | .zero _ => 0
    | .fin _ _ _ => 1
    | .inf _ => 2
    | .nan _ _ _ => 3
    | .nar => 3
  match a, b with
  | .fin _ m e, .fin _ n k => scaledInt false m e (min e k) < scaledInt false n k (min e k)
  | x, y => rank x < rank y

/-- The maximum magnitude of a block (R72). -/
def maxMagnitude (vs : List Val) : Val := vs.foldl (fun a v => if magnitudeLess a v then v else a) (.zero false)

/-- The per-tensor scale of the destination of an squant, in scale mode 4. -/
def Cmd.quantScale (c : Cmd) : Val :=
  if entScale c.entB = 4 then decodeVal fFP32 (entTscale c.entB).toNat else .fin false 1 0

/-- The scale chosen for a block (R72) of values that are first divided by a per-tensor scale (R259). -/
def chooseDivided (mode f : Nat) (a tscale : Val) : Nat :=
  match a, tscale with
  | .fin _ m e, .fin _ n k =>
    if mode = 4 then (max 0 (min 254 ((quotient m n (e - k)).exp - emax f + 127))).toNat else chooseScale mode f a
  | a, _ => chooseScale mode f a

/-- A value divided by both scales and rounded (R72, R259). -/
def divideBoth (f : Nat) (rm : BitVec 3) (flush : Bool) (gen : Word) (v scale tscale : Val) : Rounded :=
  match scale, tscale with
  | .fin x m e, .fin y n k => divideRound f rm flush gen v (.fin (x != y) (m * n) (e + k))
  | sc, _ => divideRound f rm flush gen v sc

/-- The positions of block b of a tensor. -/
def blockPositions (e : Entry512) (b : Nat) : List Nat :=
  let d0 := entDim e 0
  let len := blockLen (entScale e)
  let row := b / entBlocks e
  let i0 := b % entBlocks e * len
  (List.range (min len (d0 - i0))).map fun i => row * d0 + i0 + i

/-- The engine writes for an squant, one write after another in any order (R232): the scale of block k / 2 for an even k, the
element at position k / 2 for an odd one (R259). Every value of the block has been read by then; each element that is rounded
raises its flags and takes its draw (DEDUCED, log entry 32). -/
def State.quantWrite (s : State) (n k : Nat) (c : Cmd) : State :=
  let e := c.entB
  let p := k / 2
  let b := if k % 2 = 0 then p else entBlockOf e p
  if c.did.contains k || (if k % 2 = 0 then p ≥ entRows e * entBlocks e else p ≥ entCount e) then s
  else match (blockPositions e b).mapM (mapGet c.staged), (mapGet c.staged p).getD 0 with
    | none, _ => s
    | some vs, v =>
      let vals := vs.map fun v => c.copyValue (v % 2 ^ 32) (v / 2 ^ 32)
      let scale := chooseDivided (entScale e) (entFormat e) (maxMagnitude vals) c.quantScale
      let wrote (s : State) (c : Cmd) (pas : List Nat) : State :=
        (s.engineBytes c true pas.length).setCmd n
          ({ c with did := k :: c.did, ranges := addBytes c.ranges pas } : Cmd).copyDone
      if k % 2 = 0 then
        match State.reach c.copyAgeNo (dieOf c.tile) c.fn c.tile 1 1 s ((entScaleBase e : Int) + b) with
        | .wait => s
        | .fault s va f => s.stopCopy c va 1 f (entIndex e ((blockPositions e b).headD 0))
        | .ok s pas => wrote (s.writeM (pas.headD 0) [BitVec.ofNat 8 scale]) c pas
      else
        let w := entWidth e
        let bit := entOffset e p * w
        let virt := c.w2.getLsbD 5
        match s.reachElement c c.copyAgeNo virt (tensorStart e c.r2 virt) bit w 1 with
        | .wait => s
        | .fault s va f => s.stopCopy c va 1 f (entIndex e p)
        | .ok s pas =>
          let r := divideBoth (entFormat e) (entRm e) (entFlush e) c.gen (c.copyValue (v % 2 ^ 32) (v / 2 ^ 32))
            (decodeVal (scaleFmt (entScale e)) scale) c.quantScale
          wrote (s.putElement pas bit w r.bits) { c with flags := c.flags ||| r.flags, gen := r.gen } pas

/-! ### The matrix array -/

/-- The array's address generator stops at element k of A: the addresses issued before it, which R210 asks of a generator with a
binding (DESIGN CHOICE, log entry 81), and its indices (R209, R210). -/
def State.stopMatrix (s : State) (c : Cmd) (k issued va : Nat) (f : WalkFault) : State :=
  s.stopEngineAge (matrixAge c.tile) c
    { (default : FaultFields) with
      cause := f.cause, tile := c.tile, kind := 6, access := 0, level := f.level, fn := c.fn, va := va
      count := issued, loops := [k % entDim c.entA 0, k / entDim c.entA 0], pte := f.pte }

/-- What reading an operand comes to; a fault has stopped the generator. -/
inductive Operand where
  | ok (s : State) (c : Cmd)
  | stopped (s : State)
  | wait

/-- The array reads element k of A of a matrix command, in any order (R232); `staged` holds those read and not yet used, and
`moved` counts them. -/
def State.readOperand (s : State) (n k : Nat) (c : Cmd) : Operand :=
  let virt := c.w1.getLsbD 5
  if (mapGet c.staged k).isSome then .ok s c
  else match s.fetchElement c (matrixAge c.tile) c.entA virt (tensorStart c.entA c.r1 virt) k with
    | .wait => .wait
    | .fault s va f => .stopped ((s.setCmd n c).stopMatrix c k c.moved va f)
    | .ok s pat scale pas => .ok (s.engineBytes c false pas.length)
        { c with staged := mapSet c.staged k (pat + scale * 2 ^ 32), moved := c.moved + 1, ranges := addBytes c.ranges pas }

/-- The array reads the rest of some elements. -/
def State.readOperands (n : Nat) : List Nat → State → Cmd → Operand
  | [], s, c => .ok s c
  | k :: r, s, c => match s.readOperand n k c with
    | .ok s c => State.readOperands n r s c
    | .stopped s => .stopped s
    | .wait => .wait

/-- Element k of A that has been read, in the D-format (R58). -/
def Cmd.operand (c : Cmd) (k : Nat) : DVal :=
  let v := (mapGet c.staged k).getD 0
  toD (elemValue c.entA false (v % 2 ^ 32) (v / 2 ^ 32))

/-- The elements of row m of A. -/
def Cmd.rowElements (c : Cmd) (m : Nat) : List Nat := (List.range (entDim c.entA 0)).map fun i => m * entDim c.entA 0 + i

/-- acc and hold of an smat (R264). -/
def Cmd.accum (c : Cmd) : Bool := c.w2.getLsbD 5
def Cmd.hold (c : Cmd) : Bool := c.w2.getLsbD 6
/-- Activations come from the tile's mfeed elements (R264). -/
def Cmd.fed (c : Cmd) : Bool := c.w1.getLsbD 6

/-- Replace a tile's array. -/
def State.setArray (s : State) (t : Nat) (a : Array128) : State := s.setTile t { s.tile t with array := a }

/-- A fault of an smat (R251, R266): the last of a matrix operation ends its stream's ownership; its row at the strip is
discarded. -/
def State.matrixFault (s : State) (n : Nat) (c : Cmd) : State :=
  let a := (s.tile c.tile).array
  let mine := a.owner.any fun o => o.1 = c.sn
  let strip := match a.strip with
    | some (k, r) => if k = n then none else some (k, r)
    | none => none
  let s := s.setArray c.tile { a with owner := if c.accum && !c.hold && mine then none else a.owner, strip := strip }
  s.cmdFault n 0x34

/-- An smat that delivers to the strip is running (R261). -/
def State.stripBusy (s : State) (a : Array128) : Bool :=
  a.running.any fun r => match mapGet s.cmds r.1 with
    | some c => c.code = 0x09 && !c.hold
    | none => false

/-- The start of an smat fails (R265, R266). -/
def Array128.startFails (a : Array128) (c : Cmd) : Bool :=
  entDim c.entA 0 ≠ a.active.depth ||
  (if c.accum then a.owner ≠ some (c.sn, c.matrixRows) else c.hold && a.owner.any fun o => o.1 = c.sn)

/-- The array starts the command at the head of a stream's queue (R261 to R266). -/
def execMatrixCommandStart (t sn : Nat) (s : State) : Out :=
  let a := (s.tile t).array
  match ((mapGet a.queues sn).getD []).head? with
  | none => .next s
  | some n => match mapGet s.cmds n with
    | none => .next s
    | some c =>
      if !s.cmdMay c || c.stage ≠ .running || a.running.any (fun r => r.1 = n) then .next s
      else if c.code = 0x08 then
        .next ((s.setArray t { a with active := a.shadow, shadow := a.active }).completeCmd n c)
      else if c.code = 0x07 then
        .next (s.setArray t { a with running := a.running ++ [(n, { depth := entDim c.entA 1, rows := [] })] })
      else if !c.hold && s.stripBusy a then .next s
      else if c.hold && !c.accum && a.owner.any (fun o => o.1 ≠ sn) then .next s
      else if a.startFails c then .next (s.matrixFault n c)
      else
        let owner := if c.hold && !c.accum then some (sn, c.matrixRows) else a.owner
        .next (s.setArray t { a with owner := owner, running := a.running ++ [(n, a.active)] })

/-- The array reads element k of an sldw (R262), in any order (R232); with the last, the shadow plane holds the weights, all
its places in that one step (DESIGN CHOICE, log entry 86). -/
def State.weightRead (s : State) (n k : Nat) (c : Cmd) : State :=
  let a := (s.tile c.tile).array
  let all := entDim c.entA 0 * entDim c.entA 1
  match a.running.find? fun r => r.1 = n with
  | none => s
  | some (_, plane) =>
    if a.age.stopped.isSome || all ≤ k then s
    else match s.readOperand n k c with
      | .wait => s
      | .stopped s => s
      | .ok s c =>
        if c.staged.length = all then
          let plane := { plane with rows := (List.range (entDim c.entA 1)).map fun m => (c.rowElements m).map c.operand }
          (s.setArray c.tile { (s.tile c.tile).array with shadow := plane }).setCmd n
            { c with stage := .complete, bytes := rangeBytes c.ranges }
        else s.setCmd n c

/-- The array reads element k of an smat ahead of its row (R232). -/
def State.activationRead (s : State) (n k : Nat) (c : Cmd) : State :=
  let a := (s.tile c.tile).array
  let d0 := entDim c.entA 0
  if c.fed || a.age.stopped.isSome || !(a.running.any fun r => r.1 = n) || k < c.rd * d0 || c.matrixRows * d0 ≤ k then s
  else match s.readOperand n k c with
    | .wait => s
    | .stopped s => s
    | .ok s c => s.setCmd n c

/-- The weight at row k and column n of a plane; places beyond what was loaded are zero. -/
def Plane.at' (p : Plane) (k n : Nat) : DVal := ((p.rows[k]?.getD [])[n]?).getD dZero

/-- The CST of a column (R265, R66): one K-block. -/
def columnCst (x : Cst) (row : List DVal) (p : Plane) (n : Nat) : Cst :=
  cstBlock x (row.mapIdx fun k v => (v, p.at' k n))

/-- The mfeed slots of a tile, by lane. -/
def Tile.feeders (x : Tile) : List (Nat × Nat) :=
  x.enabled.filterMap fun n => match x.el n with
    | some w => if n < 256 && x.elOp n = 0x48 then some (w.sub.toNat % 128, n) else none
    | none => none

/-- Row and tensor ends at the head of a lane pass (R148). -/
def laneHead (q : List Token) : List Token := q.dropWhile fun k => !k.isData

/-- A row of activations from the lanes (R148, R265): none while a fed lane below the width of A holds no operand. -/
def State.feedRow (s : State) (c : Cmd) (width : Nat) : Option (State × List DVal) :=
  let x := s.tile c.tile
  let feeds := x.feeders.filter fun f => f.1 < width
  let q (lane : Nat) : List Token := laneHead ((mapGet x.array.lanes lane).getD [])
  if feeds.any fun f => q f.1 = [] then none
  else
    let entry (slot : Nat) : Entry512 :=
      match x.live.bind (mapGet s.regions) with
      | some r => (mapGet r.entries (c.tile * 512 + slot)).getD 0
      | none => 0
    let vals := (List.range width).map fun k => match feeds.find? fun f => f.1 = k with
      | none => dZero
      | some f => match q k with
        | [] => dZero
        | h :: _ => toD (decodeVal (entFormat (entry f.2)) h.data.toNat)
    let lanes := feeds.foldl (fun m f => mapSet m f.1 ((q f.1).drop 1)) x.array.lanes
    some (s.setArray c.tile { x.array with lanes := lanes }, vals)

/-- The next row of an smat goes through the array (R265): into the held buffer, or to the strip. -/
def State.takeRow (s : State) (n : Nat) (c : Cmd) (plane : Plane) (row : List DVal) : State :=
  let a := (s.tile c.tile).array
  let m := c.rd
  let held (j : Nat) : Cst := (mapGet a.held (m * 128 + j)).getD freshCst
  let out := (List.range 128).map fun j => columnCst (if c.accum then held j else freshCst) row plane j
  let c := { c with rd := m + 1 }
  if c.hold then
    let s := s.setArray c.tile { a with held := (out.zipIdx).foldl (fun h x => mapSet h (m * 128 + x.2) x.1) a.held }
    s.setCmd n (if c.rd = c.matrixRows then { c with stage := .complete, bytes := rangeBytes c.ranges } else c)
  else (s.setArray c.tile { a with strip := some (n, out) }).setCmd n c

/-- The row step of a running command, where it can take one. -/
def State.rowStep (s : State) (n : Nat) (plane : Plane) : Option State :=
  match mapGet s.cmds n with
  | none => none
  | some c =>
    let a := (s.tile c.tile).array
    if c.code ≠ 0x09 || c.stage ≠ .running || c.rd ≥ c.matrixRows || (!c.hold && a.strip.isSome) || !s.cmdMay c then none
    else
      let width := entDim c.entA 0
      if c.fed then (s.feedRow c width).map fun x => x.1.takeRow n c plane x.2
      else if a.age.stopped.isSome then none
      else match State.readOperands n (c.rowElements c.rd) s c with
        | .wait => none
        | .stopped s => some s
        | .ok s c =>
          let vals := (c.rowElements c.rd).map c.operand
          some (s.takeRow n { c with staged := (c.rowElements c.rd).foldl mapErase c.staged } plane vals)

/-- The first of the running commands that can take a row. -/
def State.firstRow (s : State) : List (Nat × Plane) → State
  | [] => s
  | (n, p) :: r => match s.rowStep n p with
    | some s' => s'
    | none => s.firstRow r

/-- The array takes one K-block for an activation row (R265). -/
def execSmatRow (t : Nat) (s : State) : Out := .next (s.firstRow (s.tile t).array.running)

/-- A normaliser node of a live region takes its operand from the strip under the output tensor of the smat (R267). -/
def State.stripNode (s : State) (c : Cmd) (j : Nat) : Bool :=
  let x := s.tile c.tile
  match x.el (slotN j) with
  | some w => x.live.isSome && w.sub.getLsbD 4 && w.tn.toNat = c.b && (x.elOp (slotN j) = 0x49 || x.elOp (slotN j) = 0x4B)
  | none => false

/-- What node j gets of a row (R267). -/
def stripTokens (row : List Cst) (j : Nat) (last : Bool) : List Token :=
  ((List.range 8).flatMap fun i => cstGroup (row[16 * i + j]?.getD freshCst)) ++ [eorTok] ++ (if last then [eotTok] else [])

/-- A delivered row goes down the strip (R267); it waits while a node has not taken the row before, and, after the first
row, while one is missing (DESIGN CHOICE, log entry 86). -/
def execStripDeliver (t : Nat) (s : State) : Out :=
  let a := (s.tile t).array
  match a.strip with
  | none => .next s
  | some (n, row) => match mapGet s.cmds n with
    | none => .next (s.setArray t { a with strip := none })
    | some c =>
      let ready := (List.range 16).all (s.stripNode c)
      if !s.cmdMay c then .next s
      else if c.wr = 0 && !ready then .next (s.matrixFault n c)
      else if !ready || (List.range 16).any (fun j => ((s.tile t).unitAt (slotN j)).buf ≠ []) then .next s
      else
        let last := c.wr + 1 = c.matrixRows
        let s := (List.range 16).foldl (fun s j =>
          let u := (s.tile t).unitAt (slotN j)
          s.setUnit t (slotN j) { u with buf := stripTokens row j last }) s
        let a := (s.tile t).array
        let s := s.setArray t { a with strip := none, owner := if last && c.accum then none else a.owner }
        let c := { c with wr := c.wr + 1 }
        .next (s.setCmd n (if last then { c with stage := .complete, bytes := rangeBytes c.ranges } else c))

/-! ### The layout engine -/

/-- Replace a layout engine's state. -/
def State.setLayout (s : State) (e : Nat) (l : LayoutRun) : State :=
  s.setDie (e / 16) { s.die (e / 16) with layouts := mapSet (s.die (e / 16)).layouts (e % 16) l }

/-- The engine goes to a word of its program; index 64 raises 0x33 imprecisely in place of the fetch (R48). -/
def State.layoutGo (s : State) (e : Nat) (l : LayoutRun) (pc : Nat) : State :=
  let l := { l with pc := pc, elem := 0 }
  if pc ≥ 64 then (s.setLayout e l).cmdFault l.cmd 0x33 else s.setLayout e l

/-- The instruction at the program counter of the engine whose turn it is, with its command and fields. -/
def layoutTurn (go : Nat → LayoutRun → Cmd → LayoutWord → State → State) (s : State) : Out :=
  let e := s.engine
  match mapGet (s.die (e / 16)).layouts (e % 16) with
  | none => .next s
  | some l => match mapGet s.cmds l.cmd with
    | none => .next s
    | some c => .next (go e l c (unpackLayout (l.prog[l.pc]?.getD 0)) s)

/-- `stop` (R270): with every write in M, the report, and the command completes. -/
def execLayoutStop (s : State) : Out :=
  layoutTurn (fun _ l c _ s =>
    if l.pending ≠ [] then s else s.completeCmd l.cmd { c with bytes := rangeBytes l.ranges, ranges := l.ranges }) s

/-- `for` (R270). -/
def execLayoutFor (s : State) : Out :=
  layoutTurn (fun e l c w s =>
    let x := w.x.toNat % 8
    let count := if w.imm16 = 0 then entDim c.entA (w.y.toNat % 4) else w.imm16.toNat
    s.layoutGo e { l with lc := l.lc.set! x 0, count := l.count.set! x count } (l.pc + 1)) s

/-- Counter x of a vector. -/
def counterAt (v : Vector Nat 8) (x : Nat) : Nat := v[x % 8]?.getD 0

/-- `next` (R270). -/
def execLayoutNext (s : State) : Out :=
  layoutTurn (fun e l _ w s =>
    let x := w.x.toNat % 8
    let n := counterAt l.lc x + 1
    s.layoutGo e { l with lc := l.lc.set! x n } (if n < counterAt l.count x then w.imm16.toNat else l.pc + 1)) s

/-- Where rd and wr start in the stage (R270). -/
def stageStart (l : LayoutRun) (w : LayoutWord) : Nat :=
  w.y.toNat + (if w.x.toNat < 8 then w.imm16.toNat * counterAt l.lc w.x.toNat else 0)

/-- A stage value; an index not listed holds +0. -/
def stageAt (m : Map Val) (i : Nat) : Val := (mapGet m (i % 256)).getD (.zero false)

/-- The position of a cursor in a tensor; none beyond the extents. -/
def cursorPlace (e : Entry512) (v : Vector Int 4) (j : Nat) : Option Nat :=
  let i (d : Nat) : Int := v[d]?.getD 0 + (if d = 0 then (j : Int) else 0)
  if (List.range 4).all fun d => 0 ≤ i d && i d < entDim e d then
    some ((i 0).toNat + entDim e 0 * ((i 1).toNat + entDim e 1 * ((i 2).toNat + entDim e 2 * (i 3).toNat)))
  else none

/-- A layout engine's address generator stops at an element. -/
def State.stopLayout (s : State) (e : Nat) (c : Cmd) (va access : Nat) (f : WalkFault) (idx : List Nat) : State :=
  s.stopEngineAge (layoutAge (e / 16) (e % 16 - 8)) c
    { (default : FaultFields) with
      cause := f.cause, tile := c.tile, unit := e % 16 - 8, kind := 4, access := access, level := f.level, fn := c.fn
      va := va, loops := idx, pte := f.pte }

/-- What moving the elements of a `rd` or `wr` comes to: all of them, or what had been moved at a stop or a wait. -/
inductive Moved where
  | all (s : State) (l : LayoutRun) (c : Cmd)
  | part (s : State) (l : LayoutRun) (c : Cmd) (fault : Option (Nat × WalkFault × List Nat))

/-- rd of the last k of n elements (R270). -/
def layoutRead (e start n : Nat) : Nat → State → LayoutRun → Cmd → Moved
  | 0, s, l, c => .all s l c
  | k + 1, s, l, c =>
    let j := n - (k + 1)
    let put (v : Val) : LayoutRun := { l with stage := mapSet l.stage ((start + j) % 256) v, elem := j + 1 }
    match cursorPlace c.entA l.sc j with
    | none => layoutRead e start n k s (put (.zero false)) c
    | some p =>
      match s.fetchElement c (layoutAge (e / 16) (e % 16 - 8)) c.entA (c.w2.getLsbD 0) (entBase c.entA) p with
      | .wait => .part s l c none
      | .fault s va f => .part s l c (some (va, f, entIndex c.entA p))
      | .ok s pat scale pas =>
        layoutRead e start n k (s.engineBytes c false pas.length) (put (elemValue c.entA false pat scale)) c

/-- wr of the last k of n elements (R270): the writes on their way, the flags and the generator. -/
def layoutWrite (e start n : Nat) : Nat → State → LayoutRun → Cmd → Moved
  | 0, s, l, c => .all s l c
  | k + 1, s, l, c =>
    let j := n - (k + 1)
    match cursorPlace c.entB l.dc j with
    | none => layoutWrite e start n k s { l with elem := j + 1 } c
    | some p =>
      let w := entWidth c.entB
      let bit := entOffset c.entB p * w
      match s.reachElement c (layoutAge (e / 16) (e % 16 - 8)) (c.w2.getLsbD 1) (entBase c.entB) bit w 1 with
      | .wait => .part s l c none
      | .fault s va f => .part s l c (some (va, f, entIndex c.entB p))
      | .ok s pas =>
        let r := convert (entFormat c.entB) l.rm l.flush c.gen (stageAt l.stage (start + j))
        layoutWrite e start n k s
          { l with pending := l.pending ++ [{ pas := pas, bit := bit, width := w, value := r.bits }], elem := j + 1 }
          { c with flags := c.flags ||| r.flags, gen := r.gen }

/-- The engine goes on behind a `rd` or `wr`, or stands at the element that it has come to (R251). -/
def layoutMoved (e access : Nat) (m : Moved) : State :=
  match m with
  | .all s l c => (s.setCmd l.cmd c).layoutGo e l (l.pc + 1)
  | .part s l c fault =>
    let s := (s.setCmd l.cmd c).setLayout e l
    match fault with
    | none => s
    | some (va, f, idx) => s.stopLayout e c va access f idx

/-- `rd` (R270). -/
def execLayoutRd (s : State) : Out :=
  layoutTurn (fun e l c w s =>
    let n := w.imm16.toNat
    layoutMoved e 0 (layoutRead e (stageStart l w) n (n - l.elem) s l c)) s

/-- `wr` (R270). A write may reach M later (R271). -/
def execLayoutWr (s : State) : Out :=
  layoutTurn (fun e l c w s =>
    let n := w.imm16.toNat
    layoutMoved e 1 (layoutWrite e (stageStart l w) n (n - l.elem) s l c)) s

/-- The oldest write of a layout engine reaches M (R271). -/
def State.layoutDrain (s : State) (c : Cmd) : State :=
  match mapGet (s.die (c.engine / 16)).layouts (c.engine % 16) with
  | none => s
  | some l => match l.pending with
    | [] => s
    | w :: r => ((s.putElement w.pas w.bit w.width w.value).engineBytes c true w.pas.length).setLayout c.engine
        { l with pending := r, ranges := addBytes l.ranges w.pas }

/-- A stage with the values that f gives the indices of a list, each from the old stage. -/
def restage (m : Map Val) (is : List Nat) (f : Nat → Val) : Map Val :=
  is.foldl (fun r i => mapSet r (i % 256) (f i)) m

/-- `tr8` (R270). -/
def execLayoutTr8 (s : State) : Out :=
  layoutTurn (fun e l _ w s =>
    let y := w.y.toNat
    let stage := restage l.stage ((List.range 64).map (y + ·)) fun i =>
      stageAt l.stage (y + 8 * ((i - y) % 8) + (i - y) / 8)
    s.layoutGo e { l with stage := stage } (l.pc + 1)) s

/-- `swz` (R270). -/
def execLayoutSwz (s : State) : Out :=
  layoutTurn (fun e l _ w s =>
    let y := w.y.toNat
    let stage := restage l.stage ((List.range (2 ^ w.x.toNat)).map (y + ·)) fun i =>
      stageAt l.stage (y + ((i - y) ^^^ w.imm16.toNat))
    s.layoutGo e { l with stage := stage } (l.pc + 1)) s

/-- `pad` (R270). -/
def execLayoutPad (s : State) : Out :=
  layoutTurn (fun e l _ w s =>
    let stage := restage l.stage ((List.range w.imm16.toNat).map (w.y.toNat + ·)) fun _ => .zero false
    s.layoutGo e { l with stage := stage } (l.pc + 1)) s

/-- `cvt` (R270). -/
def execLayoutCvt (s : State) : Out :=
  layoutTurn (fun e l c w s =>
    let rm := if w.x = 6 then entRm c.entB else w.x.setWidth 3
    let flush := if w.y = 0 then entFlush c.entB else decide (w.y = 1)
    s.layoutGo e { l with rm := rm, flush := flush } (l.pc + 1)) s

/-- A cursor moves in a dimension, as a signed 32-bit index (R268, R270). -/
def moveCursor (v : Vector Int 4) (dim : Nat) (set : Bool) (amount : Int) : Vector Int 4 :=
  let old := v[dim]?.getD 0
  v.set! dim ((BitVec.ofInt 32 (if set then amount else old + amount)).toInt)

/-- `adv` (R270). -/
def execLayoutAdv (s : State) : Out :=
  layoutTurn (fun e l _ w s =>
    let move (v : Vector Int 4) := moveCursor v (w.y.toNat % 4) (w.y.getLsbD 7) w.imm16.toInt
    let l := if w.x = 0 then { l with sc := move l.sc } else { l with dc := move l.dc }
    s.layoutGo e l (l.pc + 1)) s

/-- `mark` (R270): with every write in M, a report of what was written since the last mark (R271). -/
def execLayoutMark (s : State) : Out :=
  layoutTurn (fun e l c _ s =>
    if l.pending ≠ [] then s
    else (s.pushReport l.cmd c (rangeBytes l.ranges) l.ranges).layoutGo e { l with ranges := [] } (l.pc + 1)) s

/-- `sync` (R270). -/
def execLayoutSync (s : State) : Out :=
  layoutTurn (fun e l _ _ s => if l.pending ≠ [] then s else s.layoutGo e l (l.pc + 1)) s

end Sys2Proof.Machine
end

