-- ==== Sys2Proof/Machine/Draft.lean ====
section
/-! DEFINITION. The draft memory (R293 to R310). -/

namespace Sys2Proof.Machine

/-! ### Slots and the pool -/

/-- Slots of a die, the largest cap, and the pool's positions (R293, R295, R297). -/
def draftSlots : Nat := 8192
def capMax : Nat := 2 ^ 20
def draftPool : Nat := 2 ^ 26

/-- A draft slot of a die. -/
def Die.draftSlot (d : Die) (n : Nat) : DraftSlot := (mapGet d.draft n).getD DraftSlot.reset

/-- Replace a draft slot. -/
def Die.setDraft (d : Die) (n : Nat) (x : DraftSlot) : Die := { d with draft := mapSet d.draft n x }

/-- A slot number is one of the function's on the die (R293, R313). -/
def State.draftOk (s : State) (gdie fn n : Nat) : Bool :=
  let d := s.desc (gdie / 2) fn
  let lo := if gdie % 2 = 0 then 768 else 800
  let first := descField d (lo + 12) lo
  n < draftSlots && (fn = 16 || (first ≤ n && n < first + descField d (lo + 29) (lo + 16)))

/-- R293: 0x35 with ss.fval the number. -/
def State.draftCheck (s : State) (n : Nat) : Bool × BitVec 7 × Dword :=
  (!s.draftOk (dieOf s.cur) (fnOf s.core.fn) n, 0x35, BitVec.ofNat 64 n)

/-- The quotas of a die's slots other than n (R297). -/
def Die.quotasBut (d : Die) (n : Nat) : Nat := d.draft.foldl (fun k x => if x.1 = n then k else k + x.2.quota) 0

/-- Positions in use (R297). -/
def Die.positions (d : Die) : Nat := d.draft.foldl (fun k x => k + x.2.window.length) 0

/-- R296: the oldest tokens beyond the cap are dropped. -/
def DraftSlot.drop (x : DraftSlot) : DraftSlot :=
  let k := x.window.length - x.cap
  { x with window := x.window.drop k, dropped := x.dropped + BitVec.ofNat 64 k }

/-- Tokens of a slot beyond its quota. -/
def DraftSlot.over (x : DraftSlot) : Nat := x.window.length - x.quota

/-- Of some slots, the one furthest above its quota, the lowest number on a tie. -/
def furthest (m : Map DraftSlot) : Option Nat :=
  (m.foldl (fun (best : Option (Nat × Nat)) x => match best with
    | none => if x.2.over > 0 then some (x.1, x.2.over) else none
    | some (n, k) => if k < x.2.over then some (x.1, x.2.over) else some (n, k)) none).map Prod.fst

/-- The slot that R297 evicts from. A slot that loads keeps its contents (R309), unless no other stands above its quota
(DEDUCED, log entry 61). -/
def Die.victim (d : Die) : Option Nat :=
  match furthest (d.draft.filter fun x => !x.2.loading) with
  | some n => some n
  | none => furthest d.draft

/-- One eviction. -/
def Die.evictOne (d : Die) : Die :=
  match d.victim with
  | none => d
  | some v =>
    let x := d.draftSlot v
    d.setDraft v { x with window := x.window.drop 1, dropped := x.dropped + 1 }

/-- R297: evictions until the pool's positions suffice. -/
def Die.evict (d : Die) : Die := (List.range (d.positions - draftPool)).foldl (fun d _ => d.evictOne) d

/-- A draft step leaves slot n holding x, with R296 and R297. -/
def Die.draftStep (d : Die) (n : Nat) (x : DraftSlot) : Die := (d.setDraft n x.drop).evict

/-! ### Queries (R298) -/

/-- Length of the longest common run of two lists from their heads, at most `n`. -/
def commonRun : Nat → List (BitVec 24) → List (BitVec 24) → Nat
  | 0, _, _ => 0
  | n + 1, a :: as, b :: bs => if a = b then commonRun n as bs + 1 else 0
  | _ + 1, _, _ => 0

/-- Where the search stands over the places q, newest first: `rev` is the window from w[q] down, `full` from w[n − 1] down.
The longest match wins, the largest q on a tie. -/
def matchFrom (full : List (BitVec 24)) : List (BitVec 24) → Nat × Option Nat
  | [] => (0, none)
  | b :: rev =>
    let l := commonRun 255 (b :: rev) full
    let (m, p) := matchFrom full rev
    if l > 0 && l ≥ m then (l, some rev.length) else (m, p)

/-- The match length and position of a window (R298). -/
def draftQuery (w : List (BitVec 24)) : Nat × Option Nat := matchFrom w.reverse (w.reverse.drop 1)

/-! ### Instructions -/

/-- An instruction waits while a slot loads (R309); nothing has changed. -/
def whileLoading (i : Instr) (loading : Bool) (s : State) (go : State → Out) : Out := if loading then wait s (.draft i) else go s

/-- The check that a scratchpad area of n words, which a word address names, ends within the scratchpad (R302, R303);
ss.fval is the address (R302). -/
def draftEnd (ea n : Nat) : Bool × BitVec 7 × Dword := (decide (ea + 4 * n > spLast + 1), 0x06, BitVec.ofNat 64 ea)

/-- The check that keeps user mode from the supervisor area (R302, R303). No rule names its ss.fval. -/
def draftUser (c : Core) (ea : Nat) : Bool × BitVec 7 := (c.user && decide (ea < supervisorArea), 0x03)

/-- A token as a 32-bit word. -/
def tokenWord (t : BitVec 24) : Word := t.setWidth 32

/-- The result word of a query (R302). -/
def queryResult (m dn : Nat) (p : Option Nat) : Dword :=
  BitVec.ofNat 64 (m + 2 ^ 8 * dn + 2 ^ 16 * (if m > 0 then p.getD 0xFFFFF else 0xFFFFF))

/-- `sdq` (R302). -/
def execSdq (f : FormA) (s : State) : Out :=
  guarded f.gn f.guard lenA s fun s =>
    let c := s.core
    let n := (c.reg f.a).toNat
    let x := (c.reg f.b).toNat
    let ea := 4 * (x % 2 ^ 20)
    let limit := x / 2 ^ 20 % 64
    let least := x / 2 ^ 26 % 32
    let d := s.die (dieOf s.cur)
    checks s ([s.draftCheck n, (decide (x / 2 ^ 31 ≠ 0 || least = 0 || limit > 32), 0x39, c.reg f.b)] ++
        (if limit > 0 then [draftEnd ea limit] else [])) fun s =>
     checksOpen s (if limit > 0 then [draftUser c ea] else []) fun s =>
      whileLoading (.sdq f) (d.draftSlot n).loading s fun s =>
        let w := (d.draftSlot n).window
        let (m, p) := draftQuery w
        let out := if m ≥ least then (w.drop (p.getD 0 + 1)).take limit else []
        let s := if out = [] then s else s.storeLocal ea (out.flatMap fun t => toBytes (tokenWord t).toNat 4)
        writeReg s f.d (queryResult m out.length p) lenA

/-- `sdacc` (R303). -/
def execSdacc (f : FormA) (s : State) : Out :=
  guarded f.gn f.guard lenA s fun s =>
    let c := s.core
    let n := (c.reg f.a).toNat
    let x := (c.reg f.b).toNat
    let ea := 4 * (x % 2 ^ 20)
    let k := x / 2 ^ 20 % 128
    let g := dieOf s.cur
    checks s [s.draftCheck n, (decide (x / 2 ^ 27 ≠ 0 || k = 0 || k > 64), 0x39, c.reg f.b)] fun s =>
     checksOpen s [((draftEnd ea k).1, 0x06), draftUser c ea] fun s =>
      if s.loadAbsent ea (4 * k) then wait s (.writeOnce (.sdacc f))
      else
        let ts := (List.range k).map fun j => s.loadLocal (ea + 4 * j) 4
        match ts.find? fun t => 2 ^ 24 ≤ t with
        | some t => raise s 0x39 (BitVec.ofNat 64 t)
        | none =>
          let d := s.die g
          let y := d.draftSlot n
          whileLoading (.sdacc f) y.loading s fun s =>
            let y := { y with window := y.window ++ ts.map (BitVec.ofNat 24), total := y.total + BitVec.ofNat 64 k }
            let d := d.draftStep n y
            writeReg (s.setDie g d) f.d (BitVec.ofNat 64 (d.draftSlot n).window.length) lenA

/-- `sdcap` to a cap and a quota (R304); `bad` says that the argument v is malformed. In form B, where no register holds it, v is
the immediate as R28 extends it (R294; DEDUCED, log entry 85). -/
def setCaps (i : Instr) (n : Nat) (bad : Bool) (v : Dword) (cap quota len : Nat) (s : State) : Out :=
  let g := dieOf s.cur
  let d := s.die g
  checks s [s.draftCheck n, (bad || decide (cap > capMax || quota > cap || d.quotasBut n + quota > draftPool), 0x39, v)] fun s =>
    whileLoading i (d.draftSlot n).loading s fun s =>
      finish (s.setDie g (d.draftStep n { d.draftSlot n with cap := cap, quota := quota })) len

/-- `sdcap`, form A (R304). -/
def execSdcapA (f : FormA) (s : State) : Out :=
  guarded f.gn f.guard lenA s fun s =>
    let v := s.core.reg f.b
    let cap := v.toNat % 2 ^ 21
    let quota := v.toNat / 2 ^ 32 % 2 ^ 21
    setCaps (.sdcapA f) (s.core.reg f.a).toNat (decide (v.toNat ≠ cap + quota * 2 ^ 32)) v cap quota lenA s
/-- `sdcap`, form B. -/
def execSdcapB (f : FormB) (s : State) : Out :=
  guarded f.gn f.guard lenB s fun s =>
    let v := imm16 false f.imm16
    setCaps (.sdcapB f) (s.core.reg f.a).toNat (decide (v.toInt < 0)) v v.toNat v.toNat lenB s

/-- A slot after `sdrst` (R305). -/
def DraftSlot.cleared (x : DraftSlot) (all : Bool) : DraftSlot :=
  { x with window := [], total := 0, dropped := 0, cap := if all then 0 else x.cap, quota := if all then 0 else x.quota }

/-- `sdrst` of count v from slot n (R305); in form B v is the immediate as R28 extends it (R294; DEDUCED, log entry 85). -/
def resetSlots (i : Instr) (all : Bool) (n : Nat) (v : Dword) (len : Nat) (s : State) : Out :=
  let g := dieOf s.cur
  let k := v.toNat
  checks s [s.draftCheck n, (decide (k = 0 || k > draftSlots), 0x39, v)] fun s =>
    checks s ((List.range k).map fun j => s.draftCheck (n + j)) fun s =>
      let d := s.die g
      whileLoading i (d.draft.any fun x => inRange n k x.1 && x.2.loading) s fun s =>
        let draft := d.draft.map fun x => if inRange n k x.1 then (x.1, x.2.cleared all) else x
        finish (s.setDie g { d with draft := draft }) len

/-- `sdrst`, form A (R305). -/
def execSdrstA (f : FormA) (s : State) : Out :=
  guarded f.gn f.guard lenA s fun s =>
    resetSlots (.sdrstA f) (f.sub.getLsbD 0) (s.core.reg f.a).toNat (s.core.reg f.b) lenA s
/-- `sdrst`, form B. -/
def execSdrstB (f : FormB) (s : State) : Out :=
  guarded f.gn f.guard lenB s fun s =>
    resetSlots (.sdrstB f) (f.sub.getLsbD 0) (s.core.reg f.a).toNat (imm16 false f.imm16) lenB s

/-! ### Images (R306 to R309) -/

/-- A draft image's header. -/
def draftHeader (x : DraftSlot) : Nat :=
  1 + x.window.length * 2 ^ 32 + x.cap * 2 ^ 64 + x.quota * 2 ^ 96 + x.total.toNat * 2 ^ 128 + x.dropped.toNat * 2 ^ 192

/-- A slot's image as words: the header, then the tokens; zero words follow them. -/
def draftWords (x : DraftSlot) : List Nat :=
  (List.range 16).map (fun i => draftHeader x / 2 ^ (32 * i) % 2 ^ 32) ++ x.window.map BitVec.toNat

/-- Lines of 64 bytes that an image of n tokens takes. -/
def draftLines (n : Nat) : Nat := 1 + (n + 15) / 16

/-- The checks at the issue of `sdsave` and `sdload`, in order (R307). No rule names ss.fval of a misaligned VA; that of 0x20 is the
image's VA, as of a `gnode` (R280; DEDUCED, log entry 85). -/
def draftIssue (f : FormA) (s : State) (go : State → Out) : Out :=
  let va := s.core.reg f.b
  checks s [s.draftCheck (s.core.reg f.a).toNat] fun s =>
    checksOpen s [(decide (va.toNat % 64 ≠ 0), 0x05)] fun s =>
      checks s ([(decide (va.toNat ≥ 2 ^ 52), 0x20, va)] ++
        (if f.sub.getLsbD 0 then s.barrierChecks s.core (s.core.reg f.d) else [])) go

/-- The command of a draft image: the core drains at node scope, and the command waits for a copy engine (R307). -/
def State.draftCmd (s : State) (f : FormA) (kind : CmdKind) (words : List Nat) : State :=
  let c := s.core
  let cmd : Cmd := { (default : Cmd) with
    kind := kind, tile := s.cur, fn := fnOf c.fn, user := c.user, pc := c.pc, regs := [(1, c.reg f.b)], stage := .queued
    bar := if f.sub.getLsbD 0 then some (c.reg f.d) else none, words := words, gen := 1 }
  let s := s.drainCore s.cur 4
  { s with cmds := mapSet s.cmds s.nextCmd cmd, nextCmd := s.nextCmd + 1 }

/-- `sdsave` (R307, R308). -/
def execSdsave (f : FormA) (s : State) : Out :=
  guarded f.gn f.guard lenA s fun s => draftIssue f s fun s =>
    let g := dieOf s.cur
    let n := (s.core.reg f.a).toNat
    let x := (s.die g).draftSlot n
    whileLoading (.sdsave f) x.loading s fun s => finish (s.draftCmd f (.sdsave g n) (draftWords x)) lenA

/-- `sdload` (R307, R309). -/
def execSdload (f : FormA) (s : State) : Out :=
  guarded f.gn f.guard lenA s fun s => draftIssue f s fun s =>
    let g := dieOf s.cur
    let n := (s.core.reg f.a).toNat
    let d := s.die g
    whileLoading (.sdload f) (d.draftSlot n).loading s fun s =>
      let s := s.draftCmd f (.sdload g n) []
      finish (s.setDie g ((s.die g).setDraft n { d.draftSlot n with loading := true })) lenA

/-- The image VA of a draft command. -/
def Cmd.imageVa (c : Cmd) : Nat := (c.reg 1).toNat

/-- Line k of a draft image goes to M (R307, R308); a fault record has k as its i0 (DEDUCED, log entry 85). -/
def State.draftWrite (s : State) (n k : Nat) (c : Cmd) : State :=
  let lines := draftLines (c.words.length - 16)
  if k ≥ lines || c.did.contains k then s
  else match State.reach c.copyAgeNo (dieOf c.tile) c.fn c.tile 1 64 s ((c.imageVa + 64 * k : Nat) : Int) with
    | .wait => s
    | .fault s va f => s.stopCopy c va 1 f [k]
    | .ok s pas =>
      let s := (s.engineBytes c true 64).writeCells (pas.zip (padTo 64 (((c.words.drop (16 * k)).take 16).flatMap fun w => toBytes w 4)))
      let c := { c with did := k :: c.did, ranges := addBytes c.ranges pas }
      s.setCmd n (if c.did.length = lines then { c with stage := .complete, bytes := 64 * lines } else c)

/-- The header of an image is malformed (R309). -/
def headerBad (h : Nat) : Bool :=
  let n := h / 2 ^ 32 % 2 ^ 21
  let cap := h / 2 ^ 64 % 2 ^ 21
  let quota := h / 2 ^ 96 % 2 ^ 21
  h % 2 ^ 16 ≠ 1 || h / 2 ^ 16 % 2 ^ 16 ≠ 0 || h / 2 ^ 53 % 2 ^ 11 ≠ 0 || h / 2 ^ 85 % 2 ^ 11 ≠ 0 || h / 2 ^ 117 % 2 ^ 11 ≠ 0 ||
  h / 2 ^ 256 ≠ 0 || n > cap || cap > capMax || quota > cap

/-- Lines that a load reads: the header alone where it is malformed. -/
def loadLines (h : Nat) : Nat := if headerBad h then 1 else draftLines (h / 2 ^ 32 % 2 ^ 21)

/-- Line k of a draft image is read, the header first (R309); a fault record has k as its i0 (DEDUCED, log entry 85). -/
def State.draftRead (s : State) (n k : Nat) (c : Cmd) : State :=
  let may := match mapGet c.staged 0 with
    | none => k = 0
    | some h => k < loadLines h && (mapGet c.staged k).isNone
  if !may then s
  else match State.reach c.copyAgeNo (dieOf c.tile) c.fn c.tile 0 64 s ((c.imageVa + 64 * k : Nat) : Int) with
    | .wait => s
    | .fault s va f => s.stopCopy c va 0 f [k]
    | .ok s pas => (s.engineBytes c false 64).setCmd n { c with staged := mapSet c.staged k (s.numOf pas), ranges := addBytes c.ranges pas }

/-- The slot that an image gives. -/
def draftImage (h : Nat) (lines : List Nat) : DraftSlot :=
  let n := h / 2 ^ 32 % 2 ^ 21
  { window := ((lines.flatMap fun l => (List.range 16).map fun i => l / 2 ^ (32 * i) % 2 ^ 32).take n).map (BitVec.ofNat 24)
    cap := h / 2 ^ 64 % 2 ^ 21, quota := h / 2 ^ 96 % 2 ^ 21, total := BitVec.ofNat 64 (h / 2 ^ 128)
    dropped := BitVec.ofNat 64 (h / 2 ^ 192), loading := false }

/-- A token of an image has a non-zero bit in [31:24] (R309). -/
def tokensBad (n : Nat) (lines : List Nat) : Bool :=
  ((lines.flatMap fun l => (List.range 16).map fun i => l / 2 ^ (32 * i) % 2 ^ 32).take n).any fun t => 2 ^ 24 ≤ t

/-- An image that has been read is installed in one draft step, or the load faults with 0x39 and the slot keeps its old
state (R309). That fault comes after issue, so ss.fval is the address of W0 (R251, R307; DEDUCED, log entry 85). -/
def execSdloadInstall (n : Nat) (s : State) : Out :=
  match mapGet s.cmds n with
  | none => .next s
  | some c => match c.kind, mapGet c.staged 0 with
    | .sdload g slot, some h =>
      if c.stage ≠ .running || c.staged.length ≠ loadLines h || !s.cmdMay c then .next s
      else
        let lines := (c.staged.drop 1).map Prod.snd
        let d := s.die g
        let bad := headerBad h || tokensBad (h / 2 ^ 32 % 2 ^ 21) lines ||
          decide (d.quotasBut slot + h / 2 ^ 96 % 2 ^ 21 > draftPool)
        if bad then .next (s.cmdFault n 0x39)
        else .next ((s.setDie g (d.setDraft slot (draftImage h lines)).evict).setCmd n
          { c with stage := .complete, bytes := 64 * loadLines h })
    | _, _ => .next s

/-- A waiting core runs its instruction from the start: nothing has changed while it waited. -/
def State.rerun (s : State) (t : Nat) : State := { s.setCore t { s.coreOf t with run := .running } with cur := t }

/-- A draft instruction that waited on a loading slot takes its draft step (R309). -/
def execDraftWaitEnd (t : Nat) (s : State) : Out :=
  match s.waitOf t with
  | some (.draft i) =>
    let r := s.rerun t
    match i with
    | .sdq f => execSdq f r
    | .sdacc f => execSdacc f r
    | .sdsave f => execSdsave f r
    | .sdload f => execSdload f r
    | .sdcapA f => execSdcapA f r
    | .sdcapB f => execSdcapB f r
    | .sdrstA f => execSdrstA f r
    | .sdrstB f => execSdrstB f r
    | _ => .next s
  | _ => .next s

end Sys2Proof.Machine
end

