-- ==== Sys2Proof/Machine/Tier.lean ====
section
/-! DEFINITION. RELATCH tokens to the address generators of a function (R212, R248, R344), and the tier engine: tiers
(R191), free frames (R314, R322), budgets and residency (R318, R322, R324), page moves (R323), `stier` and TIER nodes
(R325), and working-set samples (R292). -/

namespace Sys2Proof.Machine

/-! ### The address generators of a function -/

/-- The address generators of a tile: core, port, matrix, ingress, and fabric 0 to 15 (R199). -/
def tileAges (t : Nat) : List Nat :=
  [coreAge t, portAgeNo t, matrixAge t, ingressAgeNo t] ++ (List.range 16).map (fabricAge t)

/-- Does an engine's command belong to the function? -/
def State.cmdOf (s : State) (fn n : Nat) : Bool :=
  match mapGet s.cmds n with
  | some c => c.fn = fn
  | none => false

/-- The address generators of the engines and walkers of a die that work for a function. -/
def State.dieAges (s : State) (gdie fn : Nat) : List Nat :=
  let d := s.die gdie
  (d.engines.filter fun e => s.cmdOf fn e.2).map (fun e => copyAge gdie e.1) ++
  (s.tiles.filter fun t => dieOf t.1 = gdie && fnOf t.2.core.fn = fn).flatMap (fun t =>
    t.2.core.experts.filterMap fun e => e.2.stopped.map (copyAge gdie)) ++
  (d.layouts.filter fun e => s.cmdOf fn e.2.cmd).map (fun e => layoutAge gdie (e.1 - 8)) ++
  (s.contexts.filter fun c => c.1 / 64 = gdie && c.2.fn = fn).map fun c => walkerAge c.1

/-- Every address generator of a function on some dies of a device. Those of a tile that another function has work for that one
(R344). -/
def State.agesOf (s : State) (dev fn : Nat) (dies : List Nat) : List Nat :=
  ((s.tilesOf dev fn).filter fun t => dies.contains (dieOf t) && fnOf (s.coreOf t).fn = fn).flatMap tileAges ++
  dies.flatMap fun d => s.dieAges d fn

/-- The latch serves new addresses and overlaps n bytes at a VA. -/
def Latch.overlaps (l : Latch) (va n : Nat) : Bool := !l.dropped && l.meets va n

/-- The generator is to receive a token of a range; an empty range names the stopped ones (R344). -/
def Age.receives (g : Age) (va n : Nat) : Bool :=
  if n = 0 then g.stopped.isSome else g.latches.any fun l => l.overlaps va n

/-- The tile whose generator a number names, for the kinds that belong to tiles. -/
def ageTile (age : Nat) : Nat := if ageKind age = 0 then ageUnit age / 16 else ageUnit age

/-- A fabric generator of a live tile that executes `agen` takes a token in its stream. -/
def State.streamsToken (s : State) (age : Nat) : Bool :=
  ageKind age = 0 && (s.tile (ageTile age)).live.isSome && (s.tile (ageTile age)).hasAgen (ageUnit age % 16)

/-- A core's buffer and snapshot over the frames of dropped latches (R248). -/
def State.settleFrames (s : State) (t : Nat) (ls : List Latch) : State :=
  let p (a : Nat) : Bool := ls.any fun l => inRange l.frame l.size a
  let (s', v) := drainView s (coreAgent t) (s.coreOf t).view p
  s'.setCore t { s'.coreOf t with view := refreshView s'.mem v p }

/-- A generator receives a RELATCH token (R212): a fabric generator that streams holds it for its next address; any
other drops the overlapping latches at once, a core's after R248, and a stopped one retries. -/
def State.giveToken (seq : Word) (va n : Nat) (s : State) (age : Nat) : State :=
  let g := s.age age
  if s.streamsToken age then s.setAge age { g with relatch := g.relatch ++ [(seq.toNat, va, n)] }
  else
    let gone := g.latches.filter fun l => l.overlaps va n
    let s := if ageKind age = 1 then s.settleFrames (ageTile age) gone else s
    s.setAge age { g with latches := g.latches.filter (fun l => !l.overlaps va n), stopped := none }

/-- The next re-latch number of a device, 32 bits, wrapping (R344). -/
def State.nextRelatch (s : State) (dev : Nat) : State × Word :=
  let d := s.device dev
  (s.setDevice dev { d with relatchSeq := d.relatchSeq + 1 }, d.relatchSeq)

/-- A re-latch of a range of a function on some dies: its tokens leave (R212, R344). -/
def State.sendRelatch (s : State) (dev fn : Nat) (dies : List Nat) (va n : Nat) : State × Word :=
  let (s, seq) := s.nextRelatch dev
  let ages := (s.agesOf dev fn dies).filter fun a => (s.age a).receives va n
  let s := ages.foldl (State.giveToken seq va n) s
  ({ s with relatches := s.relatches ++ [{ dev := dev, seq := seq, fn := fn, left := ages }] }, seq)

/-- Has every token of a re-latch emerged? -/
def State.emerged (s : State) (dev : Nat) (seq : Word) : Bool :=
  s.relatches.all fun q => !(q.dev = dev && q.seq = seq) || q.left = []

/-- A re-latch is over. -/
def State.endRelatch (s : State) (dev : Nat) (seq : Word) : State :=
  { s with relatches := s.relatches.filter fun q => !(q.dev = dev && q.seq = seq) }

/-- What a duty names: a token at a generator, or a generator's token at a memory node. -/
def dutyTile (n : Nat) : Nat := if 2 ^ 60 ≤ n then (n - 2 ^ 60) % 2 ^ 20 / 16 else ageTile n

/-- A layout engine has computed elements that it has not stored (R271). -/
def State.layoutHolds (s : State) (age : Nat) : Bool :=
  ageKind age = 4 && match mapGet (s.die (ageUnit age / 2)).layouts (8 + ageUnit age % 2) with
    | some r => r.pending ≠ []
    | none => false

/-- A fabric generator of a live tile has yet to take a token of a re-latch, or the token stands on its route. -/
def State.tokenStands (s : State) (age : Nat) (seq : Word) : Bool :=
  (s.age age).relatch.any (fun q => q.1 = seq.toNat) || match s.regionOf (ageTile age) with
    | some (_, r) => (s.pathTokens r (ageTile age) (ageUnit age % 16)).any fun k => k.kind = kRelatch && k.data = seq
    | none => false

/-- A duty of a re-latch is met: that of a node, once its tile is no longer live; that of a generator that streams its token and
whose token meets no node, once the token has left its route; that of any other, once all its accesses have completed
(R212). -/
def State.dutyMet (s : State) (n : Nat) (seq : Word) : Bool :=
  if 2 ^ 60 ≤ n then (s.tile (dutyTile n)).live.isNone
  else if s.streamsToken n then !s.tokenStands n seq
  else !s.layoutHolds n

/-- A token emerges from a generator, and what a tile that is no longer live held has emerged (R212). -/
def execRelatchTokenEmerge (age : Nat) (s : State) : Out :=
  let out (q : Relatch) : Relatch := if s.dutyMet age q.seq then { q with left := q.left.filter (· ≠ age) } else q
  .next { s with relatches := s.relatches.map out }

/-! ### Leaves as the tier engine reads them (R199) -/

/-- The leaf that maps a VA from a table at a level, whatever it allows. -/
def leafFrom (m : Memory) (va : Nat) : Nat → Nat → Option Leaf
  | 0, _ => none
  | l + 1, t =>
    let addr := t + 8 * (va / 2 ^ (16 + 9 * l) % 512)
    let pte := m.num addr 8
    if !pte.testBit 0 || pteMalformed pte (l + 1) then none
    else if pte.testBit 1 then some { addr := addr, pte := pte, level := l + 1 }
    else leafFrom m va l (pteAddr pte)

/-- The leaf of a VA of a function on a die. -/
def State.leafOn (s : State) (gdie fn va : Nat) : Option Leaf :=
  if va < 2 ^ 52 then leafFrom s.mem va 4 (s.root gdie fn) else none

/-- The leaf of a VA of a function on a device: by the root of d0, else by that of d1. -/
def State.leafOf (s : State) (dev fn va : Nat) : Option Leaf :=
  match s.leafOn (2 * dev) fn va with
  | some l => some l
  | none => s.leafOn (2 * dev + 1) fn va

/-- Both dies' leaf entries of a VA, each once. -/
def State.leavesOf (s : State) (dev fn va : Nat) : List Leaf :=
  ([2 * dev, 2 * dev + 1].filterMap fun g => s.leafOn g fn va).eraseDups

/-- The tier of a frame for agents of a device (R191); none for a scratchpad or what is not populated. -/
def tierOf (dev a : Nat) : Option Nat :=
  let l := a % 2 ^ 50
  if l < hbmBytes then some (if paDevice a = dev then 0 else 1)
  else if 2 ^ 42 ≤ l && l < 2 ^ 43 then some 2
  else if 2 ^ 48 ≤ l && l < 2 ^ 49 then some 3
  else none

/-- The page base of a leaf at a VA. -/
def Leaf.page (l : Leaf) (va : Nat) : Nat := va / pageSize l.level * pageSize l.level
/-- The frame that a leaf names. -/
def Leaf.frame (l : Leaf) : Nat := pteAddr l.pte
/-- The tier of a leaf's page. -/
def Leaf.tier (dev : Nat) (l : Leaf) : Option Nat := tierOf dev l.frame

/-! ### Frames -/

/-- The entries of a table that memory lists, each once. -/
def tableEntries (m : Memory) (t : Nat) : List Nat :=
  (((m.filter fun c => inRange t 4096 c.1).map fun c => (c.1 - t) / 8).eraseDups).map fun i => m.num (t + 8 * i) 8

/-- Every frame and table that a table at a level names, and the table itself: (base, size). -/
def tableRanges (m : Memory) : Nat → Nat → Ranges
  | 0, _ => []
  | l + 1, t => (t, 4096) :: (tableEntries m t).flatMap fun pte =>
      if !pte.testBit 0 || pteMalformed pte (l + 1) then []
      else if pte.testBit 1 then [(pteAddr pte, pageSize (l + 1))]
      else tableRanges m l (pteAddr pte)

/-- The frames under a run of bytes at an owner VA. -/
def State.ownerRanges (s : State) (dev va n : Nat) : Ranges :=
  (List.range (pagesOf n)).filterMap fun i =>
    if 2 ^ 16 * i < n then (s.leafOf dev 16 (va + 2 ^ 16 * i)).map fun l => (l.frame, pageSize l.level) else none

/-- Tiles of a descriptor. -/
def descTiles (d : BitVec 2048) : List Nat := (List.range 160).filter fun t => d.toNat.testBit t

/-- The length of a tenant's save area, and of its images in the shard record area (R330, R337). -/
def saveBytes (d : BitVec 2048) : Nat := deviceSection + (descTiles d).length * imageSize
def shardBytes (d : BitVec 2048) : Nat := 0x1000 + (descTiles d).length * imageSize

/-- What a function uses of its frames: its tables and pages, its save, shard and report areas. -/
def State.usedRanges (s : State) (dev fn : Nat) : Ranges :=
  let d := s.desc dev fn
  tableRanges s.mem 4 (s.root (2 * dev) fn) ++ tableRanges s.mem 4 (s.root (2 * dev + 1) fn) ++
  [(descField d 503 448, shardBytes d)] ++
  (if fn = 16 then [] else s.ownerRanges dev (descField d 435 384) (saveBytes d) ++
    s.ownerRanges dev (descField d 947 896) (8 + 8 * descField d 991 960))

/-- Two runs of bytes overlap. -/
def clash (a b : Nat × Nat) : Bool := a.1 < b.1 + b.2 && b.1 < a.1 + a.2

/-- Frames lent to tenants of a device, or about to be filled by a move. -/
def State.takenFrames (s : State) (dev : Nat) : Ranges :=
  (s.device dev).tenants.flatMap fun x => x.2.lent ++ x.2.moving.map fun m => (m.frame, m.size)

/-- A frame of a size that a function's own grants hold at a tier. -/
def State.fits (s : State) (dev src tier size frame : Nat) : Bool :=
  frame % size = 0 && tierOf dev frame = some tier && s.populated frame &&
  coveredBy (descGrants (s.desc dev src)) frame size

/-- What stands in a function's grants. -/
def State.heldRanges (s : State) (dev src : Nat) : Ranges := s.usedRanges dev src ++ s.takenFrames dev

/-- A free frame of a size in a function's own grants, at a tier. -/
def State.freeIn (s : State) (dev src tier size frame : Nat) : Bool :=
  s.fits dev src tier size frame && !(s.heldRanges dev src).any (clash (frame, size))

/-- The aligned frames of a size in a function's grants. -/
def State.frames (s : State) (dev src size : Nat) : List Nat :=
  (descGrants (s.desc dev src)).flatMap fun g => (List.range (g.2 / size)).map fun i => g.1 + i * size

/-- Does a function have a free frame of its own at a tier? -/
def State.hasFree (s : State) (dev src tier size : Nat) : Bool :=
  (s.frames dev src size).any (s.freeIn dev src tier size)

/-- May a page of a function go into the frame in tier 0 (R322): a frame of its grants, else of the pool, by lending? The
owner's come from the pool (R413). -/
def State.mayTake (s : State) (dev fn size frame : Nat) : Bool :=
  s.freeIn dev fn 0 size frame || (fn ≠ 16 && !s.hasFree dev fn 0 size && s.freeIn dev 16 0 size frame)

/-- Is there a frame in tier 0 for a page of a function? -/
def State.hasFrame (s : State) (dev fn size : Nat) : Bool :=
  s.hasFree dev fn 0 size || (fn ≠ 16 && s.hasFree dev 16 0 size)

/-! ### Budgets and residency -/

/-- The tier-0 bytes that count against a node's HBM budget with one page more: its record's pages and its pins. -/
def State.tier0Bytes (s : State) (dev fn node page size : Nat) : Nat :=
  let x := s.tenant dev fn
  let vas := (((mapGet x.ws node).getD []).map WsPage.va ++
    (x.pinned.filter fun p => p.1 = node).map Prod.snd).eraseDups.filter (· ≠ page)
  size + vas.foldl (fun n va => match s.leafOf dev fn va with
    | some l => if l.tier dev = some 0 then n + pageSize l.level else n
    | none => n) 0

/-- Would the page pass the node's HBM budget (R322)? The owner has none (R413). -/
def State.overBudget (s : State) (dev fn node page size : Nat) : Bool :=
  fn ≠ 16 && s.tier0Bytes dev fn node page size > (s.tenant dev fn).hbm node * 2 ^ 25

/-- The resident fraction of a node's record in 1/64 (R322). -/
def State.resident (s : State) (dev fn node : Nat) : Nat :=
  let ps := (mapGet (s.tenant dev fn).ws node).getD []
  if ps = [] then 64
  else 64 * (ps.filter fun p => match s.leafOf dev fn p.va with
    | some l => l.tier dev = some 0
    | none => false).length / ps.length

/-- The engine can yet free a run of bytes: a page that moves down from it already, or one of a tenant that does not run, lent
and not pinned, for which a lower tier has a free frame (R322). -/
def State.freeable (s : State) (dev : Nat) (f : Nat × Nat) : Bool :=
  (s.device dev).tenants.any fun x =>
    (x.2.moving.any fun m => tierOf dev m.frame ≠ some 0 && (s.leafOf dev x.1 m.va).any fun l => l.frame = f.1) ||
    (!s.mayRun dev x.1 && x.2.lent.contains f &&
      !(x.2.pinned.any fun p => (s.leafOf dev x.1 p.2).any fun l => l.frame = f.1) &&
      [1, 2, 3].any fun k => s.hasFree dev x.1 k f.2)

/-- Some frame of a size in a function's own grants is free in tier 0, or would be with what the engine can free. -/
def State.hasRoom (s : State) (dev src size : Nat) : Bool :=
  (s.frames dev src size).any fun frame =>
    s.fits dev src 0 size frame && ((s.heldRanges dev src).filter (clash (frame, size))).all (s.freeable dev)

/-- May the engine yet make room in tier 0 for a page of a function, by moving down whatever smaller or larger pages stand in
the way (R322)? -/
def State.canMakeRoom (s : State) (dev fn size : Nat) : Bool :=
  s.hasRoom dev fn size || (fn ≠ 16 && s.hasRoom dev 16 size)

/-- A page that the tier engine can bring to tier 0 for a node: one on its way there, or one that the budget allows, for which
there is a frame or room can be made (R322). -/
def State.movable (s : State) (dev fn node va : Nat) : Bool :=
  match s.leafOf dev fn va with
  | none => false
  | some l =>
    let size := pageSize l.level
    l.tier dev ≠ none && l.tier dev ≠ some 0 && ((s.tenant dev fn).underMove va ||
      (!s.overBudget dev fn node (l.page va) size && (s.hasFrame dev fn size || s.canMakeRoom dev fn size)))

/-- The engine can begin the page's move now. -/
def State.startable (s : State) (dev fn node va : Nat) : Bool :=
  s.movable dev fn node va && !(s.tenant dev fn).underMove va &&
  (s.leafOf dev fn va).any fun l => s.hasFrame dev fn (pageSize l.level)

/-- How long ago a page was used, by its history: 0 for the last sample. -/
def WsPage.age (p : WsPage) : Nat := ((List.range 4).find? fun i => p.history.getLsbD i).getD 4

/-- Can no page of the record be moved (R324)? -/
def State.noneMovable (s : State) (dev fn node : Nat) : Bool :=
  ((mapGet (s.tenant dev fn).ws node).getD []).all fun p => !s.movable dev fn node p.va

/-- A region load waits on the residency of a node's record (R324). The owner never waits (R413) (DEDUCED, log entry 28). -/
def State.residencyWaits (s : State) (dev fn node : Nat) : Bool :=
  fn ≠ 16 && s.resident dev fn node < (s.tenant dev fn).thresh node && !s.noneMovable dev fn node

/-- The record's page is the most recently used of those that are yet to be moved (R322). -/
def State.nextOfRecord (s : State) (dev fn node va : Nat) : Bool :=
  let ps := ((mapGet (s.tenant dev fn).ws node).getD []).filter fun p =>
    s.movable dev fn node p.va && !(s.tenant dev fn).underMove p.va
  match ps.find? fun p => p.va = va with
  | none => false
  | some p => ps.all fun q => p.age ≤ q.age

/-! ### stier and TIER nodes (R325) -/

/-- The operation of a tier command: 0 prefetch, 1 pin, 2 release; none for any other command. -/
def Cmd.tierOp (c : Cmd) : Option Nat :=
  match c.kind with
  | .stream 0x12 => some c.b
  | .stream _ => none
  | .tier op => some op
  | .sdsave _ _ => none
  | .sdload _ _ => none
  | .ctxsv _ _ _ => none
  | .ctxld _ _ => none

/-- The range of a tier command, widened outward to 64 KiB pages: first VA and end. A TIER node gives its VA and length. -/
def Cmd.tierRange (c : Cmd) : Nat × Nat :=
  let (lo, n) := match c.kind with
    | .tier _ => (c.words.headD 0, c.words[1]?.getD 0)
    | _ => (c.tierStart.toNat, c.r2.toNat)
  (lo / 2 ^ 16 * 2 ^ 16, (lo + n + 2 ^ 16 - 1) / 2 ^ 16 * 2 ^ 16)

/-- The node that governs a tier command. -/
def State.tierNode (s : State) (c : Cmd) : Nat :=
  if c.fn = 16 then 0 else (s.tenant (deviceOf c.tile) c.fn).governing c.tile

/-- The page that a tier command stands at. -/
def Cmd.tierPage (c : Cmd) : Nat := c.tierRange.1 + c.moved

/-- A tier command goes on behind a page; one that is mapped counts to the range that it reports (R325). -/
def State.tierPass (s : State) (n : Nat) (c : Cmd) (page size : Nat) (frame : Option Nat) : State :=
  let r := c.tierRange
  let c := { c with moved := page + size - r.1
                    ranges := match frame with
                      | some f => c.ranges ++ [(f, size)]
                      | none => c.ranges }
  s.setCmd n (if r.2 ≤ page + size then { c with stage := .complete, bytes := r.2 - r.1 } else c)

/-- The frames of the mapped pages from a VA to an end, page by page (R325); n bounds the pages. -/
def State.framesOf (s : State) (dev fn : Nat) : Nat → Nat → Nat → Ranges
  | 0, _, _ => []
  | n + 1, va, stop =>
    if stop ≤ va then []
    else match s.leafOf dev fn va with
      | none => s.framesOf dev fn n (va + 2 ^ 16) stop
      | some l => (l.frame, pageSize l.level) :: s.framesOf dev fn n (l.page va + pageSize l.level) stop

/-- A page is pinned for a node (R325). -/
def State.pinPage (s : State) (dev fn node page : Nat) : State :=
  let x := s.tenant dev fn
  if x.pinned.any fun p => p.2 = page then s
  else s.setTenant dev fn { x with pinned := x.pinned ++ [(node, page)] }

/-- A tier command's turn at its page (R325): it passes a page that is in tier 0, waits for a move that can be made, and
otherwise skips the page or faults (DEDUCED, log entry 34). -/
def State.tierTurn (s : State) (n : Nat) (c : Cmd) (op : Nat) : State :=
  let dev := deviceOf c.tile
  let node := s.tierNode c
  let r := c.tierRange
  let va := c.tierPage
  if op = 2 then
    let x := s.tenant dev c.fn
    let out (p : Nat × Nat) : Bool :=
      clash (r.1, r.2 - r.1) (p.2, ((s.leafOf dev c.fn p.2).map fun l => pageSize l.level).getD (2 ^ 16))
    (s.setTenant dev c.fn { x with pinned := x.pinned.filter fun p => !out p }).setCmd n
      { c with stage := .complete, bytes := r.2 - r.1, ranges := s.framesOf dev c.fn ((r.2 - r.1) / 2 ^ 16) r.1 r.2 }
  else match s.leafOf dev c.fn va with
    | none => if op = 1 then s.cmdFault n 0x20 else s.tierPass n c va (2 ^ 16) none
    | some l =>
      let size := pageSize l.level
      let page := l.page va
      let beyond := s.overBudget dev c.fn node page size
      let low := l.tier dev ≠ none && l.tier dev ≠ some 0
      if (s.tenant dev c.fn).underMove va then s
      else if !low then
        if op = 0 then s.tierPass n c page size (some l.frame)
        else if beyond && !(s.tenant dev c.fn).pinned.any (fun p => p.2 = page) then s.cmdFault n 0x42
        else (s.pinPage dev c.fn node page).tierPass n c page size (some l.frame)
      else if beyond then (if op = 1 then s.cmdFault n 0x42 else s.tierPass n c page size (some l.frame))
      else if s.hasFrame dev c.fn size || s.canMakeRoom dev c.fn size then s
      else if op = 1 then s.cmdFault n 0x2B
      else s.tierPass n c page size (some l.frame)

/-- A running tier command stands at the page and may have it moved. -/
def State.tierWants (s : State) (dev fn page : Nat) : Bool :=
  s.cmds.any fun x =>
    let c := x.2
    deviceOf c.tile = dev && c.fn = fn && c.stage = .running && (c.tierOp = some 0 || c.tierOp = some 1) &&
    (match s.leafOf dev fn c.tierPage with
     | some l => l.page c.tierPage = page
     | none => false) && s.movable dev fn (s.tierNode c) page

/-! ### Page moves (R322, R323) -/

/-- The records of a device, by function and node, for which a region load waits (R324). -/
def State.awaited (s : State) (dev : Nat) : List (Nat × Nat) :=
  (s.regions.filter fun r => r.2.phase = .waiting && deviceOf r.1 = dev && r.2.fn ≠ 16 && s.mayRun dev r.2.fn).map fun r =>
    (r.2.fn, (s.tenant dev r.2.fn).governing r.1)

/-- No record for which a load waits is served before the page: it is in one, or none has a page that can begin to move
(R324). -/
def State.turnOf (s : State) (dev fn page : Nat) : Bool :=
  let ws := s.awaited dev
  ws.any (fun w => w.1 = fn && s.nextOfRecord dev fn w.2 page) ||
  ws.all fun w => ((mapGet (s.tenant dev w.1).ws w.2).getD []).all fun p => !s.startable dev w.1 w.2 p.va

/-- The page of a function may go up: its record's next page, while the tenant runs, or one that a tier command asks for.
The record of a load that waits goes first (R324). -/
def State.mayMoveUp (s : State) (dev fn page : Nat) : Bool :=
  s.mayRun dev fn && s.turnOf dev fn page && (s.tierWants dev fn page ||
    (fn ≠ 16 && ((s.tenant dev fn).ws.any fun w => s.nextOfRecord dev fn w.1 page)))

/-- Some page of the device waits for a frame in tier 0 (R322). -/
def State.needsFrames (s : State) (dev : Nat) : Bool :=
  (s.device dev).tenants.any fun x => s.mayRun dev x.1 && (
    (x.2.ws.any fun w => w.2.any fun p => match s.leafOf dev x.1 p.va with
      | some l => l.tier dev ≠ none && l.tier dev ≠ some 0 && !s.hasFrame dev x.1 (pageSize l.level)
      | none => false) ||
    s.cmds.any fun c => deviceOf c.2.tile = dev && c.2.fn = x.1 && c.2.stage = .running && c.2.tierOp.isSome &&
      match s.leafOf dev x.1 c.2.tierPage with
      | some l => l.tier dev ≠ some 0 && !s.hasFrame dev x.1 (pageSize l.level)
      | none => false)

/-- The page may go down into the frame (R322): a page of tier 0, not pinned, of a tenant that does not run, to the first
lower tier with a free frame in its grants. -/
def State.mayMoveDown (s : State) (dev fn page size frame : Nat) : Bool :=
  !s.mayRun dev fn && s.needsFrames dev && !(s.tenant dev fn).pinned.any (fun p => p.2 = page) &&
  (match [1, 2, 3].find? fun k => s.hasFree dev fn k size with
   | some k => s.freeIn dev fn k size frame
   | none => false)

/-- Steps 1 and 2 of R323: the mark, and the re-latch of the page. -/
def State.startMove (s : State) (dev fn page size frame : Nat) : State :=
  let (s, seq) := s.sendRelatch dev fn [2 * dev, 2 * dev + 1] page size
  let x := s.tenant dev fn
  s.setTenant dev fn { x with moving := x.moving ++ [{ va := page, size := size, frame := frame, seq := seq }] }

/-- Bytes that the tier engine of a die has moved (R347 counter 0x304). Which die's engine serves a device is not architectural
(R322): a free choice (DESIGN CHOICE, log entry 2). -/
def State.tierBytes (s : State) (dev n : Nat) : State :=
  let (s, v) := s.free
  s.addShared (2 * dev + v.toNat % 2) 0x304 n

/-- Steps 3 to 5 of R323: the copy, the leaf, the mark; a frame of the pool is lent, and a lent one returns when its page
goes down (R322). A write of the device that waited for the mark is then made. -/
def State.endMove (s : State) (dev fn : Nat) (m : TierMove) : State :=
  let x := s.tenant dev fn
  let s := s.setTenant dev fn { x with moving := x.moving.filter (· ≠ m) }
  let s := s.endRelatch dev m.seq
  match s.leafOf dev fn m.va with
  | none => s.flushWrites dev
  | some l =>
    let old := l.frame
    let s := s.count dev fn (if tierOf dev m.frame = some 0 then 0x202 else 0x203) 1
    let s := s.tierBytes dev m.size
    let s := s.writeM m.frame (s.mem.read old m.size)
    let s := ((s.leavesOf dev fn m.va).filter fun k => k.frame = old).foldl (fun s k =>
      let pte := s.mem.num k.addr 8
      s.machineWrite k.addr (toBytes (pte - pteAddr pte + m.frame) 8)) s
    let x := s.tenant dev fn
    let lend := fn ≠ 16 && tierOf dev m.frame = some 0 && coveredBy (descGrants (s.desc dev 16)) m.frame m.size
    let kept := if tierOf dev m.frame = some 0 then x.lent else x.lent.filter fun f => f.1 ≠ old
    (s.setTenant dev fn { x with lent := if lend then kept ++ [(m.frame, m.size)] else kept }).flushWrites dev

/-- The tier engine begins a move of a page into a frame, or, once the tokens of its re-latch have emerged, ends it. -/
def execPageMove (dev fn va frame : Nat) (s : State) : Out :=
  match (s.tenant dev fn).moving.find? fun m => m.va = va with
  | some m => .next (if s.emerged dev m.seq then s.endMove dev fn m else s)
  | none => match s.leafOf dev fn va with
    | none => .next s
    | some l =>
      let size := pageSize l.level
      let page := l.page va
      if page ≠ va || (s.device dev).frozen then .next s
      else if l.tier dev = some 0 then
        .next (if s.mayMoveDown dev fn page size frame then s.startMove dev fn page size frame else s)
      else if l.tier dev ≠ none && s.mayMoveUp dev fn page && s.mayTake dev fn size frame then
        .next (s.startMove dev fn page size frame)
      else .next s

/-! ### Samples (R292) -/

/-- The sampling interval of a descriptor in µs (R313). -/
def sampleMicros (d : BitVec 2048) : Nat := (if descField d 855 848 = 0 then 1 else descField d 855 848) * 1000

/-- Pages sampled in one act, each once: whether accessed was set (VA, bit). It is read and cleared in one step. -/
def State.samplePages (dev fn : Nat) : List Nat → State → State × List (Nat × Bool)
  | [], s => (s, [])
  | va :: r, s =>
    let ls := s.leavesOf dev fn va
    let hit := ls.any fun l => l.pte.testBit 5
    let s := ls.foldl (fun s l =>
      let pte := s.mem.num l.addr 8
      s.machineWrite l.addr (toBytes (if pte.testBit 5 then pte - 2 ^ 5 else pte) 8)) s
    let (s, hits) := State.samplePages dev fn r s
    (s, (va, hit) :: hits)

/-- A page's history takes its sample. -/
def WsPage.sampled (p : WsPage) (hits : List (Nat × Bool)) : WsPage :=
  { p with history := p.history <<< 1 ||| (if hits.contains (p.va, true) then 1 else 0) }

/-- A node's record after a sample: a page whose history is all zero leaves it (R322). -/
def sampledRecord (hits : List (Nat × Bool)) (ps : List WsPage) : List WsPage :=
  (ps.map (·.sampled hits)).filter fun p => p.history ≠ 0

/-- The sample of every page in each of a tenant's records; each generator's first access through a latch then sets its
leaf's accessed bit again (R292). -/
def State.sample (s : State) (dev fn : Nat) : State :=
  let vas := ((s.tenant dev fn).ws.flatMap fun w => w.2.map WsPage.va).eraseDups
  let (s, hits) := State.samplePages dev fn vas s
  let x := s.tenant dev fn
  let ended := sampleMicros x.desc ≤ x.sampleAge
  let s := s.setTenant dev fn { x with
    ws := x.ws.map fun w => (w.1, sampledRecord hits w.2), sampled := !ended, sampleAge := if ended then 0 else x.sampleAge }
  (s.agesOf dev fn [2 * dev, 2 * dev + 1]).foldl (fun s a =>
    let g := s.age a
    s.setAge a { g with latches := g.latches.map fun l => { l with sampled := true } }) s

/-- A tenant whose working-set records stand on the device, RUNNING or READY (R346): its sampling intervals pass (R292). -/
def Tenant.samples (x : Tenant) : Bool :=
  match x.state with
  | .running => true
  | .ready => true
  | .absent => false
  | .stopped => false
  | .fatal => false

/-- One sample is taken in each sampling interval of a tenant (R292); an interval does not end without it (DEDUCED, log
entry 62). -/
def execWsSample (dev fn : Nat) (s : State) : Out :=
  let x := s.tenant dev fn
  .next (if fn = 16 || !x.samples || x.sampled then s else s.sample dev fn)

end Sys2Proof.Machine
end

