-- ==== Sys2Proof/Machine/Region.lean ====
section
/-! DEFINITION. Region loads: the image (R161 to R163), its checks (R42, R46, R74, R123, R124, R135, R139, R149, R164, R168,
R169, R171, R173, R315), the residency wait and the budget (R318, R324), and the start of a region in the held state
(R75, R165, R182). -/

namespace Sys2Proof.Machine

/-! ### The image -/

/-- Bits [hi:lo] of a number. -/
def bits (v hi lo : Nat) : Nat := v / 2 ^ lo % 2 ^ (hi + 1 - lo)

/-- A region image as read: header, station records, tile sections (tile of the device, words by slot), size in bytes. -/
structure RegionImage where
  head : Nat
  recs : List Nat
  tiles : List (Nat × Map Slot128)
  size : Nat
  deriving DecidableEq, Repr

/-- A fault of a load: its cause and ss.fval (R164). -/
abbrev LoadFault := BitVec 7 × Nat

/-- ss.fval of a load fault: tile × 2^16 + slot (R164). -/
def loadFval (t slot : Nat) : Nat := t % 160 * 2 ^ 16 + slot
/-- The slot that stands for the header and the station records. -/
def noSlot : Nat := 0xFFFF

/-- n bytes of the image, or 0x06 where they run past the scratchpad (R164). -/
def State.imageNum (s : State) (leader image off n : Nat) : Except LoadFault Nat :=
  if image + off + n - 1 > spLast then .error (0x06, loadFval leader noSlot)
  else .ok (s.mem.num (spBase leader + image + off) n)

/-- The header passes R161. -/
def headOk (h : Nat) : Bool :=
  bits h 511 448 = 0 && bits h 191 150 = 0 && bits h 127 115 = 0 && bits h 103 102 = 0 && bits h 47 46 = 0 &&
  bits h 45 44 < 3 && 1 ≤ bits h 43 36 && 1 ≤ bits h 111 104 && bits h 111 104 ≤ 160 &&
  bits h 149 128 % 8 = 0 && bits h 149 128 ≤ 0x2FFFF8 && bits h 55 48 < bits h 63 56 && bits h 63 56 ≤ 64

/-- A station record passes R162. -/
def recordOk (r : Nat) : Bool :=
  r / 2 ^ 33 = 0 && 1 ≤ bits r 11 0 && bits r 23 12 ≤ bits r 11 0 && bits r 27 24 ≤ 8 && bits r 31 28 ≤ 8 &&
  (r.testBit 32 || (bits r 23 12 = 0 && bits r 27 24 = 0 && bits r 31 28 = 0))

/-- The entries of a tile section (R163): n of them from an offset. -/
def State.readEntries (s : State) (leader image t : Nat) : Nat → Nat → Map Slot128 → Except LoadFault (Map Slot128)
  | 0, _, ws => .ok ws
  | n + 1, off, ws => match s.imageNum leader image off 32 with
    | .error e => .error e
    | .ok v =>
      let slot := v % 2 ^ 16
      if bits v 127 16 ≠ 0 || slot > 426 || (mapGet ws slot).isSome then .error (0x12, loadFval t slot)
      else s.readEntries leader image t n (off + 32) (mapSet ws slot (BitVec.ofNat 128 (v / 2 ^ 128)))

/-- The tile sections (R163): n of them from an offset, and the offset behind them. A tile may not be live in another
region. -/
def State.readSections (s : State) (busy : Nat → Bool) (leader image : Nat) :
    Nat → Nat → List (Nat × Map Slot128) → Except LoadFault (List (Nat × Map Slot128) × Nat)
  | 0, off, ts => .ok (ts, off)
  | n + 1, off, ts => match s.imageNum leader image off 16 with
    | .error e => .error e
    | .ok v =>
      let t := v % 256
      let k := bits v 18 8
      let gt := deviceOf leader * 160 + t
      if v / 2 ^ 19 ≠ 0 || t > 159 || (ts.any fun x => x.1 = gt) || k = 0 || k > 427 || busy gt then
        .error (0x12, t * 2 ^ 16 + noSlot)
      else match s.readEntries leader image gt k (off + 16) [] with
        | .error e => .error e
        | .ok ws => s.readSections busy leader image n (off + 16 + 32 * k) (ts ++ [(gt, ws)])

/-- Read an image with the checks on its form; `busy` tells the tiles that no section may name. -/
def State.readImage (s : State) (busy : Nat → Bool) (leader image : Nat) : Except LoadFault RegionImage :=
  let head : LoadFault := (0x12, loadFval leader noSlot)
  match s.imageNum leader image 0 64 with
  | .error e => .error e
  | .ok h =>
    if !headOk h then .error head
    else
      let n := bits h 101 96 + 1
      match (List.range n).mapM fun i => s.imageNum leader image (64 + 16 * i) 16 with
      | .error e => .error e
      | .ok recs =>
        if !recs.all recordOk then .error head
        else match s.readSections busy leader image (bits h 111 104) (64 + 16 * n) [] with
          | .error e => .error e
          | .ok (ts, size) =>
            if !ts.any (fun x => x.1 = leader) then .error head
            else .ok { head := h, recs := recs, tiles := ts, size := size }

/-! ### Checks of one slot -/

/-- The least lat of an operation (R168). -/
def latMin (op : Nat) : Nat :=
  if op = 0x02 || op = 0x03 then 3
  else if op ≤ 0x0D then 1
  else if op ≤ 0x13 && op ≠ 0x14 && op ≠ 0x15 then 4
  else if op ≤ 0x17 then 2
  else if op = 0x18 || op = 0x19 then 18
  else if op ≤ 0x1C then 14
  else if op = 0x1D then 16
  else if op = 0x22 || op = 0x23 then 2
  else if op = 0x24 then 6
  else if op = 0x25 then 5
  else if op ≤ 0x27 then 3
  else if op ≤ 0x2D then 4
  else if op ≤ 0x38 || op = 0x48 then 1
  else if op = 0x3A then 5
  else if op = 0x3B || op = 0x3C then 3
  else if op = 0x3D then 64
  else if op = 0x3E then 8
  else if op = 0x40 then 2
  else if op = 0x41 then 1
  else if op = 0x49 then 6
  else if op = 0x4A then 2
  else if op = 0x4B then 3
  else if op = 0x50 then 2
  else 1

/-- The words of a unit's state image (R169, R206). -/
def imageWords (op sub : Nat) : Nat :=
  if (0x28 ≤ op && op ≤ 0x2D) || op = 0x2F || op = 0x33 || (op = 0x4A && 1 ≤ sub && sub ≤ 4) then 1
  else if op = 0x41 || (op = 0x40 && sub % 4 ≠ 2) then 2
  else 0

/-- The progress words that a refire class claims (R169). -/
def classWords (c : Nat) : List Nat :=
  if 1 ≤ c && c ≤ 8 then [c - 1]
  else if 9 ≤ c && c ≤ 12 then [2 * (c - 9), 2 * (c - 9) + 1]
  else if c = 13 || c = 14 then (List.range 4).map fun i => 4 * (c - 13) + i
  else []

/-- The class suits the unit and its station (R169). -/
def classOk (resumable : Bool) (op sub c : Nat) : Bool :=
  (c = 0 || resumable) && (classWords c = [] || (classWords c).length = imageWords op sub) &&
  !(resumable && c ≠ 0 && (op = 0x30 || (op = 0x4A && sub = 5)))

/-- The unit may deliver to an outlet of a resumable station (R171). -/
def mayOutlet (op sub : Nat) : Bool := (0x28 ≤ op && op ≤ 0x2C) || (op = 0x4A && 1 ≤ sub && sub ≤ 4)

/-- The entry suits the operation (R135, R136, R148, R207, R243). -/
def entrySuits (op : Nat) (e : Entry512) : Bool :=
  let f := entFormat e
  let w := entWidth e
  if op = 0x20 || op = 0x21 then f ≤ 0x17
  else if op = 0x22 || op = 0x23 then w ≤ 16
  else if op = 0x24 then f ≤ 0x17 && w ≤ 8 && 1 ≤ entScale e
  else if op = 0x25 then 1 ≤ entScale e
  else if op = 0x3A || op = 0x3B then w = 8 || w = 16 || w = 32
  else if op = 0x3C then w = 32
  else if op = 0x48 then isMatrixFmt f
  else true

/-! ### Relations across slots; `s` has the region's slots in its tiles -/

/-- A selector names a unit that is enabled and emits tokens, or a channel that is local (R42, R124). -/
def Tile.selectorOk (x : Tile) (sel : Nat) : Bool :=
  match slotOfSel sel with
  | some n => (x.el n).isSome && x.elOp n ≠ 0x48
  | none => if 320 ≤ sel && sel < 360 then x.chanEntry (sel - 320) = 0x3E else true

/-- An enabled unit passes every check that its tile's slots decide. -/
def Tile.unitOk (x : Tile) (gdieEnt : Entry512) (recs : List Nat) (n : Nat) (w : ElWord) : Bool :=
  let op := x.elOp n
  let sub := w.sub.toNat
  let resumable := (recs[w.station.toNat]?.getD 0).testBit 32
  let route := w.route.toNat
  w.station.toNat < recs.length && !entBad gdieEnt && entrySuits op gdieEnt &&
  (elSelectors op w).all x.selectorOk &&
  (route < 0xC0 || (x.el (312 + (route - 0xC0))).isSome) &&
  latMin op ≤ w.lat.toNat && classOk resumable op sub w.refire.toNat &&
  ((op ≠ 0x3D && op ≠ 0x3E) || ((maskNodes w.k).all fun m => (x.el m).isSome))

/-- An enabled operator's word names a station and incoming channels that operators read (R149, R164). -/
def Tile.operatorOk (x : Tile) (recs : List Nat) (n : Nat) (w : RouterWord) : Bool :=
  w.station.toNat < recs.length && (operatorReads (x.routerOp n) w).all fun c => x.chanEntry c = 0x3D

/-- The channels stay in the tenant's mask (R315): the map's forwarding and the operators' channels. -/
def Tile.channelsOk (x : Tile) (mask n : Nat) : Bool :=
  let inMask (c : Nat) : Bool := mask.testBit (c % 8)
  if 360 ≤ n && n < 363 then
    (List.range (if n = 362 then 8 else 16)).all fun j =>
      let c := 16 * (n - 360) + j
      x.chanEntry c > 0x27 || (inMask c && inMask (x.chanEntry c))
  else match x.router n with
    | some w => (operatorReads (x.routerOp n) w ++ operatorWrites (x.routerOp n) w).all inMask
    | none => true

/-- No two units of a tile deliver to one target, and none feeds a lane that another feeds (R124). -/
def Tile.delivererOk (x : Tile) (n : Nat) : Bool :=
  let others := x.enabled.filter fun m => m < n
  (x.deliveries n).all (fun d => others.all fun m => !(x.deliveries m).contains d) &&
  (x.elOp n ≠ 0x48 || n ≥ 256 ||
    others.all fun m => !(m < 256 && x.elOp m = 0x48 &&
      ((x.el m).map fun w => w.sub.toNat % 128) = ((x.el n).map fun w => w.sub.toNat % 128)))

/-- A delay that feeds in0 of a quant directly is as deep as the block and one more (R139). -/
def Tile.fifoOk (x : Tile) (e : Entry512) (n : Nat) : Bool :=
  match x.el n with
  | some w =>
    if x.elOp n ≠ 0x24 then true
    else match slotOfSel w.in0.toNat with
      | none => true
      | some d => match x.el d with
        | some v => x.elOp d ≠ 0x30 || v.k.toNat = blockLen (entScale e) + 1
        | none => true
  | none => true

/-- The progress words that the units of a region claim: (station, word), by tile and slot. -/
def State.claims (s : State) (tiles : List Nat) : List ((Nat × Nat) × (Nat × Nat)) :=
  tiles.flatMap fun t => (s.tile t).enabled.flatMap fun n => match (s.tile t).el n with
    | some w => (classWords w.refire.toNat).map fun k => ((t, n), (w.station.toNat, k))
    | none => []

/-- The entry that an element's tn names (R75). -/
def State.elementEntry (s : State) (fn t n : Nat) : Entry512 :=
  match (s.tile t).el n with
  | some w => s.tid (dieOf t) fn w.tn.toNat
  | none => 0

/-- The unit or operator delivers to an outlet of its station: a boundary queue, over channels of the router too, or an fo
port (R170). -/
def State.atOutlet (s : State) (queues : Map BoundaryQueue) (t n : Nat) : Bool :=
  let route := (s.tile t).routeOf n
  (0x40 ≤ route && route < 0x80) || queues.any fun q => s.sourceUnit (keyTile q.1) (keySel q.1) = some (t, n)

/-- The boundary queues of a region: one for each source of another station and each station that reads it (R170). -/
def State.regionQueues (s : State) (tiles : List Nat) : Map BoundaryQueue :=
  tiles.foldl (fun m t =>
    let x := s.tile t
    x.enabled.foldl (fun m n => (x.reads n).foldl (fun m sel => match s.sourceStation t sel with
      | none => m
      | some st =>
        if st = x.stationOf n then m
        else mapSet m (queueKey t sel (x.stationOf n)) { src := st, fill := [], inlet := [], taken := [], closed := false, last := none }) m) m) []

/-- The first slot of a tile that fails, with its cause; a delay of a depth that R139 does not allow gives 0x13, which R164 lists
under 0x12 (DEDUCED, log entry 69). -/
def State.tileFault (s : State) (fn : Nat) (recs : List Nat) (queues : Map BoundaryQueue) (t : Nat) (slots : List Nat) :
    Option LoadFault :=
  let x := s.tile t
  let mask := descField (s.desc (deviceOf t) fn) 839 832
  let owned := fn = 16 || s.ownsTile (deviceOf t) fn (t % 160)
  slots.findSome? fun n =>
    let bad (c : BitVec 7) : Option LoadFault := some (c, loadFval t n)
    let e := s.elementEntry fn t n
    let outlet := (recs[x.stationOf n]?.getD 0).testBit 32 && s.atOutlet queues t n
    let good := slotOk t n (x.slot n) && (fn = 16 || x.channelsOk mask n) && x.delivererOk n &&
      (match x.el n with
       | some w => owned && x.unitOk e recs n w && (!outlet || mayOutlet (x.elOp n) w.sub.toNat)
       | none => match x.router n with
         | some w => owned && x.operatorOk recs n w && !outlet
         | none => true)
    if !good then bad 0x12 else if !x.fifoOk e n then bad 0x13 else none

/-- A sink of the header (R173). -/
def sinkOfWord (v : Nat) : Option Sink :=
  if v.testBit 15 then
    some { eots := v / 2 ^ 16, ordered := v.testBit 14, port := v / 2 ^ 8 % 64, tile := v % 256, seen := 0
           reported := false, err := false, window := [], next := 0 }
  else none

/-- The sinks of a header. -/
def headSinks (h : Nat) : List Sink := (List.range 8).filterMap fun i => sinkOfWord (h / 2 ^ (192 + 32 * i) % 2 ^ 32)

/-- The sinks pass R173. -/
def State.sinksOk (s : State) (dev : Nat) (tiles : List Nat) (ks : List Sink) : Bool :=
  ks ≠ [] && (ks.map fun k => (k.tile, k.port)).Nodup &&
  ks.all fun k =>
    let t := dev * 160 + k.tile
    1 ≤ k.eots && tiles.contains t && ((s.tile t).routesTo (0x40 + k.port)).isSome

/-- The largest static length. -/
def maxLength (recs : List Nat) : Nat := recs.foldl (fun n r => max n (bits r 11 0)) 0

/-- The bounds of the header's beat (R164). -/
def beatOk (h : Nat) (recs : List Nat) : Bool :=
  let low := max 4 (maxLength recs)
  low ≤ bits h 11 0 && low ≤ bits h 23 12 &&
  (bits h 45 44 = 0 || (bits h 23 12 ≤ bits h 11 0 && bits h 11 0 ≤ bits h 35 24))

/-- The words of a tile's slots that a load leaves: those named, the others as tile reset leaves them (R163). -/
def loadedSlots (ws : Map Slot128) : Map Slot128 := ws.filter fun w => w.2 ≠ slotReset w.1

/-- The machine with an image's slots in its tiles. -/
def State.putSlots (s : State) (ts : List (Nat × Map Slot128)) : State :=
  ts.foldl (fun s x => s.setTile x.1 { s.tile x.1 with slots := loadedSlots x.2 }) s

/-- The first fault of an image's slots, stations, sinks and beat (R164). -/
def State.imageFault (s : State) (leader fn : Nat) (im : RegionImage) : Option LoadFault :=
  let s := s.putSlots im.tiles
  let tiles := im.tiles.map Prod.fst
  let queues := s.regionQueues tiles
  match im.tiles.findSome? fun x => s.tileFault fn im.recs queues x.1 (x.2.map Prod.fst) with
  | some e => some e
  | none =>
    let cs := s.claims tiles
    match cs.find? fun c => cs.any fun d => d.2 = c.2 && d ≠ c with
    | some c => some (0x12, loadFval c.1.1 c.1.2)
    | none =>
      if !s.sinksOk (deviceOf leader) tiles (headSinks im.head) then some (0x12, loadFval leader noSlot)
      else if !beatOk im.head im.recs then some (0x16, loadFval leader noSlot)
      else none

/-! ### The region -/

/-- A station of a record. -/
def stationOfRecord (r : Nat) : Station :=
  { length := bits r 11 0, lead := bits r 23 12, places := bits r 27 24, yield := bits r 31 28, resumable := r.testBit 32
    item := none, closed := [], gate := false, loop := [], green := 0, reent := 0, peak := 0, slips := 0 }

/-- The region of an image that has passed its checks (R75, R165): waiting, its units not configured. -/
def State.regionOfImage (s : State) (cmd image fn : Nat) (user : Bool) (graph : Option (Nat × Nat))
    (im : RegionImage) : Region :=
  let h := im.head
  let s1 := s.putSlots im.tiles
  let tiles := im.tiles.map Prod.fst
  let entries := tiles.foldl (fun m t => (s1.tile t).enabled.foldl (fun m n =>
    if n < 328 then mapSet m (t * 512 + n) (s1.elementEntry fn t n) else m) m) []
  { cmd := cmd, image := image, fn := fn, user := user, tiles := tiles, phase := .waiting
    beat := bits h 11 0, floor := bits h 23 12, ceiling := bits h 35 24, step := bits h 43 36, mode := bits h 45 44
    hyslo := bits h 55 48, hyshi := bits h 63 56, slipceil := bits h 95 64, evmask := BitVec.ofNat 3 (bits h 114 112)
    cword := bits h 149 128, beats := 0, latched := none, nextBeat := none, direct := none
    stations := im.recs.map stationOfRecord, sinks := headSinks h, queues := s1.regionQueues tiles, source := []
    gated := false, paused := false, greens := [], serial := 0, beatStart := 0, rslip := 0, yields := 0, winBeats := 0, winGreens := 0, winSlips := 0
    flags := 0, err := none, holdAsked := true, govHold := false, parityHold := false, preempt := none, entries := entries
    slots := im.tiles.map fun x => (x.1, loadedSlots x.2), size := im.size, graph := graph }

/-- The seed of a unit's generator (R60). -/
def unitSeed (e : Entry512) (t slot : Nat) : Word := srSeed (entSeed e ^^^ BitVec.ofNat 32 (t % 160 * 512 + slot))

/-- A unit as a load leaves it: its operation's state and its output empty, its generator seeded, a memory node's snapshot M
(R60, R165, R229); an address generator keeps its latches and bindings (R200, R203), a node what its buffer holds (R226). -/
def State.freshUnit (s : State) (r : Region) (t n : Nat) : UnitState :=
  let u := (s.tile t).unitAt n
  { UnitState.reset with
    gen := unitSeed ((mapGet r.entries (t * 512 + n)).getD 0) t n
    age := { u.age with stopped := none, relatch := [] }, bindings := u.bindings
    view := { u.view with sv := if isNode n then s.mem else [] } }

/-- A unit that takes no part: what it held is discarded, and an accumulator stands at its identity (R165). -/
def idleUnit (n : Nat) (u : UnitState) : UnitState := { u.discard with w := if 312 ≤ n && n < 328 then [] else u.w }

/-- The units of a tile are configured. -/
def State.configureTile (s : State) (r : Region) (t : Nat) (slots : Map Slot128) : State :=
  let s := s.setTile t { s.tile t with slots := slots, parity := [] }
  let x := s.tile t
  let kept := x.units.filter fun u => !(x.enabled.contains u.1)
  let units := x.enabled.foldl (fun m n => mapSet m n (s.freshUnit r t n)) (kept.map fun u => (u.1, idleUnit u.1 u.2))
  s.setTile t { x with units := units }

/-- Does a count of tiles pass the budget of the governing node or one above it (R318)? -/
def State.overTiles (s : State) (r : Region) (leader : Nat) : Bool :=
  let dev := deviceOf leader
  let x := s.tenant dev r.fn
  let under (node : Nat) (l : Nat) : Bool := (x.pathUp 9 (x.governing l)).contains node
  r.fn ≠ 16 && (x.pathUp 9 (x.governing leader)).any fun node =>
    let others := s.regions.filter fun q => q.1 ≠ leader && q.2.fn = r.fn && deviceOf q.1 = dev && under node q.1
    r.tiles.length + others.foldl (fun n q => n + q.2.tiles.length) 0 > x.tbud node

/-- A load that faults (R164): nothing is configured and nothing reported; the leader's core takes the cause imprecisely,
or the graph's context stops with it (R287). -/
def State.loadFault (s : State) (cmd leader : Nat) (graph : Option (Nat × Nat)) (e : LoadFault) : State :=
  let s := match mapGet s.regions leader with
    | some r => if r.cmd = cmd && r.graph = graph then
        r.tiles.foldl (fun (s : State) t => s.setTile t { s.tile t with live := none })
          { s with regions := mapErase s.regions leader }
        else s
    | none => s
  match graph with
  | none => (s.imprecise leader e.1 e.2).removeCmd cmd
  | some (ctx, node) =>
    let s := match mapGet s.contexts ctx with
      | none => s
      | some g => { s with contexts := mapSet s.contexts ctx { g with regions := mapErase g.regions node } }
    s.contextFault ctx node e.1

/-- The load has ended its wait: the budget, the units, the completion word, the held state (R165, R318). A region that a
graph loads then starts as `bgo` starts it (R282). -/
def State.configureRegion (s : State) (leader : Nat) : State :=
  match mapGet s.regions leader with
  | none => s
  | some r =>
    if s.overTiles r leader then s.loadFault r.cmd leader r.graph (0x42, loadFval leader noSlot)
    else
      let s := s.writeM (spBase leader + r.cword) (toBytes 0 8)
      let s := r.slots.foldl (fun s x => s.configureTile r x.1 x.2) s
      let s := s.setRegion leader { r with phase := .held, slots := [], holdAsked := r.graph.isNone }
      match r.graph with
      | some _ => s
      | none => match mapGet s.cmds r.cmd with
        | none => s
        | some c => s.setCmd r.cmd
            { c with stage := .complete, bytes := r.size, ranges := [(spBase leader + r.image, r.size)] }

/-! ### One clock for a region on both dies (R352, R403, R404) -/

/-- V(s) in units of 5 mV (R403). -/
def stepVoltage (n : Nat) : Nat := 170 - 4 * n

/-- The dies of a device. -/
def diesOf (dev : Nat) : List Nat := [2 * dev, 2 * dev + 1]

/-- The region has tiles on both dies of its device. -/
def Region.spans (r : Region) : Bool := r.tiles.any (fun t => dieOf t % 2 = 0) && r.tiles.any fun t => dieOf t % 2 = 1

/-- A region has tiles on both dies of a device: the dies then change together (R352). -/
def State.spans (s : State) (dev : Nat) : Bool := s.regions.any fun r => deviceOf r.1 = dev && r.2.spans

/-- Change some dies. -/
def State.mapDies (s : State) (gs : List Nat) (f : Die → Die) : State := gs.foldl (fun (s : State) g => s.setDie g (f (s.die g))) s

/-- The live regions on some dies. -/
def State.regionsOfDies (s : State) (gs : List Nat) : List (Nat × Region) := s.regions.filter fun r => r.2.tiles.any fun t => gs.contains (dieOf t)

/-- Some dies begin a change to a step: each live region is asked for a hold (R404). -/
def State.beginStep (s : State) (gs : List Nat) (target : Nat) : State :=
  let s := (s.regionsOfDies gs).foldl (fun (s : State) r => s.setRegion r.1 { r.2 with govHold := true }) s
  s.mapDies gs fun d => { d with stepState := .holding target }

/-- The step that a die stands at or is to be held for; none where its clock is changing. -/
def Die.heading (d : Die) : Option Nat :=
  match d.stepState with
  | .run => some d.step
  | .holding n => some n
  | .ramp _ => none
  | .switch _ => none

/-- A die's clock is changing (R404). -/
def Die.changing (d : Die) : Bool := d.heading.isNone

/-- With a region live on both dies the governor brings them to the larger of their steps, and a change that one has begun goes
on for both; a step below a voltage floor is denied, and the dies meet at the largest one that both floors allow (R352, R403)
(DEDUCED, log entry 65). -/
def State.equalise (s : State) (dev : Nat) : State :=
  let gs := diesOf dev
  match (s.die (2 * dev)).heading, (s.die (2 * dev + 1)).heading with
  | some a, some b =>
    let still := (s.die (2 * dev)).stepState = (s.die (2 * dev + 1)).stepState && (s.die (2 * dev)).step = (s.die (2 * dev + 1)).step
    if !s.spans dev || still then s
    else
      let want := max a b
      let fits (n : Nat) : Bool := gs.all fun g => (s.die g).vfloor ≤ stepVoltage n
      let n := ((List.range (want + 1)).reverse.find? fits).getD want
      (s.beginStep gs n).mapDies gs fun d => if n = want then d else { d with denied := true, throttled := true }
  | _, _ => s

/-- A load from an image in the leader's scratchpad (R164): the checks, the tiles live, the wait of R324 if there is one,
and else the units. -/
def State.loadRegion (s : State) (cmd leader image fn : Nat) (user : Bool) (graph : Option (Nat × Nat)) : State :=
  match s.readImage (fun t => (s.tile t).live.isSome) leader image with
  | .error e => s.loadFault cmd leader graph e
  | .ok im => match s.imageFault leader fn im with
    | some e => s.loadFault cmd leader graph e
    | none =>
      let r := s.regionOfImage cmd image fn user graph im
      let s := r.tiles.foldl (fun s t => s.setTile t { s.tile t with live := some leader }) s
      let s := (s.setRegion leader r).equalise (deviceOf leader)
      if s.residencyWaits (deviceOf leader) fn ((s.tenant (deviceOf leader) fn).governing leader) then
        s.count (deviceOf leader) fn 0x204 1
      else s.configureRegion leader

/-- A load does not begin while a clock of its device changes (R404), nor may the owner's take a tile of a RUNNING tenant
(R315). -/
def State.loadWaits (s : State) (leader image fn : Nat) : Bool :=
  (diesOf (deviceOf leader)).any (fun g => (s.die g).changing) ||
  (fn = 16 && match s.readImage (fun _ => false) leader image with
    | .ok im => im.tiles.any fun x => s.tenantOn x.1
    | .error _ => false)

/-- A dispatched scfg loads its region (R187). -/
def execRegionLoad (cmd : Nat) (s : State) : Out :=
  match mapGet s.cmds cmd with
  | none => .next s
  | some c =>
    let begun := match mapGet s.regions c.tile with
      | some r => r.cmd = cmd && r.graph.isNone
      | none => false
    if s.cmdMay c && c.code = 0x05 && c.stage = .running && !begun && !s.loadWaits c.tile c.r1.toNat c.fn then
      .next (s.loadRegion cmd c.tile c.r1.toNat c.fn c.user none)
    else .next s

end Sys2Proof.Machine
end

