-- ==== Sys2Proof/Machine/Line.lean ====
section
/-! DEFINITION. A live region as a line: admission at its source (R188), issue gates (R171), the beat boundary (R172 to R175),
the governor (R176, R179 to R181), sinks and retirement (R173, R177), parity of slots (R341), and the beat instructions
(R182, R183). -/

namespace Sys2Proof.Machine

/-! ### The source (R188) -/

/-- The fc of the die that holds a tile. -/
def State.cycleAt (s : State) (t : Nat) : Nat := (s.die (dieOf t)).cycle

/-- The stations, in order, that select a port and are source stations; where several are, each draws serials of its own in a beat
(DESIGN CHOICE, log entry 80). -/
def State.sourceStations (s : State) (r : Region) (t p : Nat) : List Nat :=
  (List.range r.stations.length).filter fun st =>
    r.isSource s st && ((s.tile t).readersIn (256 + p) st) ≠ []

/-- The queue of a source station behind a port. -/
def Region.sourceQueue (r : Region) (key : Nat) : BoundaryQueue :=
  (mapGet r.source key).getD { src := 0, fill := [], inlet := [], taken := [], closed := false, last := none }

/-- A station's item may take in tokens: its beat runs, or the item slips, for which the issue gate has reopened (R175). -/
def Region.takesIn (r : Region) (st : Nat) : Bool :=
  match r.phase with
  | .running => !r.paused
  | .slipping ss _ => ss.contains st && !(r.station st).gate
  | .held => false
  | .waiting => false

/-- An item of a source station has gone green before its closing token has come by every port: what the ports give next belongs to
it, and begins no other item (R170, R172, R188; DEDUCED, log entry 75). -/
def State.owesTokens (s : State) (r : Region) (st : Nat) : Bool :=
  (r.station st).loop.any fun g => (s.sourceKeys r st).any fun k => !g.admitted.contains k

/-- A source station may take the head of a port: its item has begun, or begins at fc 1 of a beat that is not gated, where no item
before it is owed tokens; the item's closing token has not come by the port, the station has not taken the head, and has read no
other token of the port in this fc. -/
def State.mayAdmit (s : State) (l : Nat) (r : Region) (t p st : Nat) : Bool :=
  let now := s.cycleAt l
  let q := r.sourceQueue (queueKey t (256 + p) st)
  r.takesIn st && !q.closed && q.last ≠ some now && !((s.tile t).fiPort p).taken.contains (512 + st) &&
  (if (r.station st).item.isSome then decide (r.beatStart + 1 ≤ now)
   else r.phase = .running && !r.gated && now = r.beatStart + 1 && !s.owesTokens r st)

/-- The source station takes the head of a port into its item (R188); the first token of a beat gives the item its serial
(R170). -/
def State.takeIntoItem (s : State) (l : Nat) (r : Region) (t p st : Nat) (k : Token) : State :=
  let x := r.station st
  let key := queueKey t (256 + p) st
  let serial := x.item.getD r.serial
  let q := r.sourceQueue key
  let r' := { r with
    stations := r.stations.set st { x with item := some serial }
    serial := if x.item.isSome then r.serial else (r.serial + 1) % 4096
    source := mapSet r.source key
      { q with inlet := q.inlet ++ [(serial, k)], closed := k.closes, last := some (s.cycleAt l) } }
  (s.setRegion l r').takePort r' t p (512 + st)

/-- The clocks of a region's tiles run, none of them is disabled, and its function may act (R3, R316, R408). -/
def State.lineMay (s : State) (l : Nat) (r : Region) : Bool :=
  s.mayRun (deviceOf l) r.fn && r.tiles.all fun t => !s.tileStops t

/-- A source station of a region reads the next token of its item from a port, if it may (R188). -/
def State.takeItem (s : State) (leader t p : Nat) : State :=
  match mapGet s.regions leader with
  | none => s
  | some r => match ((s.tile t).fiPort p).q with
    | [] => s
    | k :: _ =>
      if !r.tiles.contains t || !s.lineMay leader r then s
      else match (s.sourceStations r t p).find? fun st => s.mayAdmit leader r t p st with
        | none => s
        | some st => s.takeIntoItem leader r t p st k

/-- A source station of a region reads the next token of its item from port tile × 64 + p (R188). -/
def execSourceItemAdmit (leader port : Nat) (s : State) : Out := .next (s.takeItem leader (port / 64) (port % 64))

/-- A token that stands at a selected port at fc 1 of a beat begins the station's item in that fc (R188): as fc 1 of the beats
on a die passes, what has not been taken is. -/
def State.passFirst (s : State) (gdie n : Nat) : State :=
  let now := (s.die gdie).cycle
  s.regions.foldl (fun (s : State) r =>
    if dieOf r.1 ≠ gdie || !(r.2.phase = .running) || r.2.gated || !(now ≤ r.2.beatStart + 1 && r.2.beatStart + 1 < now + n) then s
    else
      let s := s.setDie gdie { s.die gdie with cycle := r.2.beatStart + 1 }
      let s := r.2.tiles.foldl (fun (s : State) t => (s.tile t).fi.foldl (fun (s : State) q =>
        (s.sourceStations r.2 t q.1).foldl (fun (s : State) st =>
          match mapGet s.regions r.1 with
          | none => s
          | some x => if (x.sourceQueue (queueKey t (256 + q.1) st)).last.any (r.2.beatStart < ·) then s else s.takeItem r.1 t q.1) s) s) s
      s.setDie gdie { s.die gdie with cycle := now }) s

/-! ### Issue gates (R171) -/

/-- At fc B − G of a beat the governor closes a resumable station's issue gate. -/
def execIssueGateClose (leader station : Nat) (s : State) : Out :=
  match mapGet s.regions leader with
  | none => .next s
  | some r =>
    let st := r.station station
    if r.phase = .running && station < r.stations.length && st.resumable && s.lineMay leader r &&
        r.beatStart + r.beat - st.lead ≤ s.cycleAt leader then
      .next (s.setRegion leader (r.setStation station { st with gate := true }))
    else .next s

/-! ### The governor's beat length (R180, R181) -/

/-- B takes a value; a change begins a new window. -/
def Region.setBeat (r : Region) (v : Nat) : Region :=
  if v = r.beat then r else { r with beat := v, winBeats := 0, winGreens := 0, winSlips := 0 }

/-- The governor latches a length, unless a `bset.beat` overrides it (R180); RETUNE is posted where B is to change (DEDUCED, log entry 29). -/
def State.governorLatch (s : State) (l : Nat) (r : Region) (v : Nat) : State × Region :=
  if r.nextBeat.isSome || r.direct.isSome || v = r.beat then (s, r)
  else (if r.evmask.getLsbD 1 then s.post l 0x12 0 v else s, { r with nextBeat := some v })

/-- A window of 64 beats has ended in mode 2. -/
def Region.windowDone (r : Region) : Bool := r.mode = 2 && 64 ≤ r.winBeats

/-- The end of a window (R180). -/
def State.closeWindow (s : State) (l : Nat) (r : Region) : State × Region :=
  if !r.windowDone then (s, r)
  else
    let up := min r.ceiling (r.beat + r.step)
    let down := max r.floor (r.beat - r.step)
    let (s, q) := if 0 < r.winSlips || r.hyshi ≤ r.winGreens then s.governorLatch l r up
      else if r.winGreens ≤ r.hyslo then s.governorLatch l r down
      else (s, r)
    (s, { q with winBeats := 0, winGreens := 0, winSlips := 0 })

/-- The auto governor decides at the end of a window; a boundary that finds the window undecided decides it first. -/
def execGovernorWindow (leader : Nat) (s : State) : Out :=
  match mapGet s.regions leader with
  | none => .next s
  | some r =>
    if !s.lineMay leader r then .next s
    else
      let (s, r) := s.closeWindow leader r
      .next (s.setRegion leader r)

/-! ### Units of a station -/

/-- The units and operators of a station: (tile, slot). -/
def State.stationUnits (s : State) (r : Region) (st : Nat) : List (Nat × Nat) :=
  r.tiles.flatMap fun t => ((s.tile t).enabled.filter fun n => (s.tile t).stationOf n = st).map fun n => (t, n)

/-- The refire class of a unit; an operator has none. -/
def Tile.classOf (x : Tile) (n : Nat) : Nat :=
  match x.el n with
  | some w => w.refire.toNat
  | none => 0

/-- A unit at its load state: its words, its output and what it held (R172 step 3). -/
def UnitState.toLoad (u : UnitState) : UnitState :=
  { u with out := [], taken := [], routed := false, w := [], buf := [], held := none, count := 0, drain := false }

/-- The units of a station return to their load state; those of class 15 stay (R169). -/
def State.resetStation (s : State) (r : Region) (st : Nat) : State :=
  (s.stationUnits r st).foldl (fun s x =>
    if (s.tile x.1).classOf x.2 = 15 then s else s.setUnit x.1 x.2 ((s.tile x.1).unitAt x.2).toLoad) s

/-- The progress words of a unit (R169, R206): an address generator's count, else its own words. -/
def Tile.progressOf (x : Tile) (n : Nat) : List Word :=
  let u := x.unitAt n
  if x.elOp n = 0x40 then [BitVec.ofNat 32 u.count, BitVec.ofNat 32 (u.count / 2 ^ 32)] else u.w

/-- A unit takes up its progress words. -/
def UnitState.resume (u : UnitState) (agen : Bool) (ws : List Word) : UnitState :=
  if agen then { u with count := (ws.headD 0).toNat + (ws[1]?.getD 0).toNat * 2 ^ 32 } else { u with w := ws }

/-- The progress words of a station's units of classes 1 to 14, by tile × 512 + slot. -/
def State.stationProgress (s : State) (r : Region) (st : Nat) : Map (List Word) :=
  ((s.stationUnits r st).filter fun x => (classWords ((s.tile x.1).classOf x.2)) ≠ []).foldl
    (fun m x => mapSet m (x.1 * 512 + x.2) ((s.tile x.1).progressOf x.2)) []

/-! ### Green (R172 step 3) -/

/-- The greatest value of a 32-bit counter (R183). -/
def satWord (n : Nat) : Word := BitVec.ofNat 32 (min n (2 ^ 32 - 1))

/-- The fi ports that a station which reads a queue reads too, and no other station (R170): what stands in them is in its inlets
(DEDUCED, log entry 64). -/
def State.stationPorts (s : State) (r : Region) (st : Nat) : List (Nat × Nat) :=
  if r.isSource s st then []
  else r.tiles.flatMap fun t => (((s.tile t).fi.map Prod.fst).filter fun p =>
    let rs := (s.tile t).readers (256 + p)
    rs ≠ [] && rs.all fun n => (s.tile t).stationOf n = st).map fun p => (t, p)

/-- The tokens of some ports and the readers of each head, by tile × 64 + port. -/
def State.portInlets (s : State) (ps : List (Nat × Nat)) : Map (List Token × List Nat) :=
  ps.foldl (fun m x => let q := (s.tile x.1).fiPort x.2
    mapSet m (x.1 * 64 + x.2) (q.q, q.taken)) []

/-- Some ports take tokens before what they hold, with the readers of the head; with none, what they hold has left. -/
def State.regainPorts (s : State) (m : Map (List Token × List Nat)) : State :=
  m.foldl (fun s x =>
    let q := (s.tile (x.1 / 64)).fiPort (x.1 % 64)
    s.setFi (x.1 / 64) (x.1 % 64) { q with q := x.2.1 ++ q.q, taken := if x.2.1 = [] then q.taken else x.2.2 }) s

/-- Some ports lose what they hold. -/
def State.emptyPorts (s : State) (ps : List (Nat × Nat)) : State :=
  ps.foldl (fun s x => s.setFi x.1 x.2 { (s.tile x.1).fiPort x.2 with q := [], taken := [] }) s

/-- What a queue loses when its reader's item goes green. -/
def BoundaryQueue.leaveInlet (q : BoundaryQueue) (item : Option Nat) : BoundaryQueue :=
  { q with inlet := q.inlet.filter fun k => !readableTag item k.1, taken := [] }

/-- The unconsumed tokens of a station's inlets, with who has consumed each head. -/
def inletsOf (qs : Map BoundaryQueue) (st : Nat) (item : Option Nat) : Map (List Token × List Nat) :=
  (qs.filter fun q => keyStation q.1 = st).map fun q =>
    (q.1, ((q.2.inlet.filter fun k => readableTag item k.1).map Prod.snd, q.2.taken))

/-- The station's head re-enters at this boundary (R172 step 2): its incoming item is a bubble, and the head did not go
green at this boundary. A source station has no incoming item (R188). -/
def Region.reenters (s : State) (r : Region) (st : Nat) : Option GreenItem :=
  let incoming := if st = 0 || r.isSource s st then none else (r.station (st - 1)).item
  match incoming, (r.station st).loop with
  | none, g :: _ => if g.since = r.beats then none else some g
  | _, _ => none

/-- Places that a loop has in use once its head, if it re-enters, has left. -/
def Region.occupied (s : State) (r : Region) (st : Nat) : Nat :=
  (r.station st).loop.length - (if (r.reenters s st).isSome then 1 else 0)

/-- A station's item goes green; its event waits for step 7. -/
def State.goGreen (s : State) (r : Region) (st : Nat) : State × Region :=
  let x := r.station st
  let serial := x.item.getD 0
  let g : GreenItem :=
    { serial := serial, since := r.beats, progress := s.stationProgress r st
      inlets := inletsOf r.queues st x.item ++ inletsOf r.source st x.item
      ports := s.portInlets (s.stationPorts r st)
      admitted := (r.source.filter fun q => keyStation q.1 = st && q.2.closed).map Prod.fst
      outlets := (r.queues.filter fun q => q.2.src = st).map fun q => (q.1, q.2.fill.map Prod.snd)
      closed := x.closed }
  let occ := r.occupied s st + 1
  let s := (s.resetStation r st).emptyPorts (s.stationPorts r st)
  let part (q : Nat × BoundaryQueue) : Nat × BoundaryQueue :=
    let b := if keyStation q.1 = st then q.2.leaveInlet x.item else q.2
    (q.1, b)
  let r := { r with
    queues := r.queues.map fun q => ((part q).1, if q.2.src = st then { (part q).2 with fill := [] } else (part q).2)
    source := r.source.map part
    winGreens := r.winGreens + 1
    stations := r.stations.set st { x with
      item := none, loop := x.loop ++ [g], green := satWord (x.green.toNat + 1), peak := satWord (max x.peak.toNat occ) } }
  (s, { r with greens := r.greens ++ [(st, serial + occ * 2 ^ 12 + r.beats % 2 ^ 32 * 2 ^ 16)] })

/-- Steps 2 and 3 of R172 for the stations in order: what goes green, and the stations that slip. A station whose item goes green
hands on a bubble, so that the head of the next station re-enters at this boundary and its place counts as free (DEDUCED, log
entry 83). -/
def State.markGreen : List Nat → State → Region → List Nat → State × Region × List Nat
  | [], s, r, slips => (s, r, slips)
  | st :: rest, s, r, slips =>
    if r.finished s st then State.markGreen rest s r slips
    else if r.occupied s st < (r.station st).places then
      let (s, r) := s.goGreen r st
      State.markGreen rest s r slips
    else State.markGreen rest s r (slips ++ [st])

/-! ### Steps 4 to 8 -/

/-- Step 4: each outlet's queue goes to the next inlet. -/
def BoundaryQueue.handOver (q : BoundaryQueue) : BoundaryQueue := { q with inlet := q.inlet ++ q.fill, fill := [] }

/-- A head's inlet tokens stand before what has come since. -/
def BoundaryQueue.regain (q : BoundaryQueue) (serial : Nat) (v : List Token × List Nat) : BoundaryQueue :=
  { q with inlet := v.1.map (fun k => (serial, k)) ++ q.inlet, taken := v.2 }

/-- Put back what a head held in the queues of its station. -/
def regainAll (qs : Map BoundaryQueue) (g : GreenItem) : Map BoundaryQueue :=
  qs.map fun q => match mapGet g.inlets q.1 with
    | some v => (q.1, q.2.regain g.serial v)
    | none => q

/-- A head re-enters its station (R172 step 5). -/
def State.reenter (s : State) (r : Region) (st : Nat) (g : GreenItem) : State × Region :=
  let x := r.station st
  let s := s.resetStation r st
  let s := g.progress.foldl (fun s p =>
    let t := p.1 / 512
    let n := p.1 % 512
    s.setUnit t n (((s.tile t).unitAt n).resume ((s.tile t).elOp n = 0x40) p.2)) s
  let queues := (regainAll r.queues g).map fun q => match mapGet g.outlets q.1 with
    | some ks => (q.1, { q.2 with fill := ks.map (fun k => (g.serial, k)) ++ q.2.fill })
    | none => q
  (s.regainPorts g.ports, { r with
    queues := queues
    source := (regainAll r.source g).map fun q => if keyStation q.1 = st then (q.1, { q.2 with closed := g.admitted.contains q.1 }) else q
    stations := r.stations.set st { x with
      item := some g.serial, closed := g.closed, gate := false, loop := x.loop.drop 1
      reent := satWord (x.reent.toNat + 1) } })

/-- Step 5 for the stations, the last first: each takes the head that re-enters, or what the station before it held. -/
def State.placeItems : List Nat → State → Region → State × Region
  | [], s, r => (s, r)
  | st :: rest, s, r =>
    let incoming := if st = 0 || r.isSource s st then none else (r.station (st - 1)).item
    let (s, r) := match r.reenters s st with
      | some g => s.reenter r st g
      | none => (s, { r.setStation st { r.station st with item := incoming, closed := [], gate := false } with
          source := r.source.map fun q => if keyStation q.1 = st then (q.1, { q.2 with closed := false }) else q })
    State.placeItems rest s r

/-- W of R173: the total of refire places and 1. -/
def Region.window (r : Region) : Nat := r.stations.foldl (fun n st => n + st.places) 1

/-- R174, cases 1 and 2. -/
def Region.gates (r : Region) : Bool :=
  (r.stations.any fun st => st.yield ≠ 0 && st.yield ≤ st.loop.length) ||
  (r.sinks.any Sink.ordered && r.stations.any fun st => st.loop.any fun g => r.window ≤ (r.serial + 4096 - g.serial) % 4096)

/-- The argument network's latest values become the k of their slots (R154). -/
def State.applyArgs (s : State) (r : Region) : State :=
  r.tiles.foldl (fun s t =>
    let x := s.tile t
    let x := x.argNet.foldl (fun x a => Tile.setSlot x a.1 (withK (x.slot a.1) a.2)) x
    s.setTile t { x with argNet := [] }) s

/-- No hold keeps the next beat from starting. -/
def Region.mayStart (r : Region) : Bool := !r.holdAsked && !r.govHold && !r.parityHold && r.preempt.isNone

/-- A selected port of a source station holds a token (R188). -/
def State.sourceWaits (s : State) (r : Region) : Bool :=
  (List.range r.stations.length).any fun st => r.isSource s st && r.tiles.any fun t =>
    (List.range 64).any fun p => ((s.tile t).readersIn (256 + p) st) ≠ [] && ((s.tile t).fiPort p).q ≠ []

/-- Step 6 (R172): the source issues, or, by R174, a bubble: in each of its three cases. A bubble counts as issued by R174 where
a selected port holds a token (R183, R188). -/
def State.issue (s : State) (r : Region) : Region :=
  let gated := r.gates || !r.mayStart
  { r with gated := gated, yields := if gated && s.sourceWaits r then satWord (r.yields.toNat + 1) else r.yields }

/-- A beat starts (R172 step 8). A length that came in a hold or a slip applies to it (R181). -/
def State.startBeat (s : State) (l : Nat) (r : Region) : State :=
  let r := match r.direct with
    | some v => { r.setBeat v with direct := none, nextBeat := none }
    | none => r
  s.setRegion l { r with
    phase := .running, beatStart := s.cycleAt l, beats := r.beats + 1
    stations := r.stations.map fun st => { st with gate := false } }

/-- GREEN is posted for the items that went green at the boundary (R172 step 7, R176). -/
def State.postGreens (s : State) (l : Nat) (r : Region) : State × Region :=
  (if r.evmask.getLsbD 0 then r.greens.foldl (fun s g => s.post l 0x11 g.1 g.2) s else s, { r with greens := [] })

/-- A slip's count and SLIP (R175, R176), and the length that it latches in modes 1 and 2 (R180). -/
def State.countSlip (s : State) (l : Nat) (r : Region) (slip : List Nat × Nat × Nat) : State × Region :=
  let (stations, serial, since) := slip
  let hold := min (s.cycleAt l - since) (2 ^ 32 - 1)
  let s := s.post l 0x10 (stations.headD 0) (serial + hold * 2 ^ 16)
  let r := { r with
    rslip := satWord (r.rslip.toNat + 1), winSlips := r.winSlips + 1
    stations := r.stations.mapIdx fun i st =>
      if stations.contains i then { st with slips := satWord (st.slips.toNat + 1) } else st }
  if r.mode = 0 then (s, r) else s.governorLatch l r (min r.ceiling (r.beat + r.step))

/-- Steps 4 to 8 of R172; `slip` gives the stations that slipped, the lowest one's serial and when the slip began. A slip is counted
and SLIP posted behind GREEN and steps 4 to 6, and where B changes at this boundary the greens count in the window before the change
and the slip in the one behind it (DESIGN CHOICE, log entry 80). -/
def State.finishBoundary (s : State) (l : Nat) (r : Region) (slip : Option (List Nat × Nat × Nat)) : State :=
  let r := { r with queues := r.queues.map fun q => (q.1, q.2.handOver) }
  let (s, r) := State.placeItems (List.range r.stations.length).reverse s r
  let r := s.issue r
  let s := s.applyArgs r
  let r := { r with winBeats := r.winBeats + 1 }
  let r := match r.nextBeat with
    | some v => { r.setBeat v with nextBeat := none }
    | none => r
  let r := { r with nextBeat := r.latched, latched := none }
  let (s, r) := s.postGreens l r
  let (s, r) := match slip with
    | some x => s.countSlip l r x
    | none => (s, r)
  if slip.isSome && r.slipceil ≠ 0 && r.slipceil < r.rslip.toNat then (s.setRegion l r).stopRegion l 0x18 0
  else if r.mayStart then s.startBeat l r
  else
    let s := if (r.holdAsked || r.preempt.isSome) && r.evmask.getLsbD 2 then s.post l 0x13 0 (r.beats % 2 ^ 32 * 2 ^ 16) else s
    s.setRegion l { r with phase := .held }

/-! ### The boundary -/

/-- A fabric address generator of the region stands stopped (R211). -/
def State.ageStands (s : State) (r : Region) : Bool :=
  r.tiles.any fun t => (List.range 16).any fun a => ((s.tile t).unitAt (slotA a)).age.stopped.isSome

/-- A sink has counted its EOTs or its first ERR (R173). -/
def Sink.ready (k : Sink) : Bool := k.eots ≤ k.seen || k.err

/-- Every sink of a region is to report, and may: it retires before anything holds or pre-empts it (R178). -/
def State.retires (s : State) (l : Nat) (r : Region) : Bool := r.sinks.all Sink.ready && s.lineMay l r

/-- Every gate that closes before the boundary has closed (R171). -/
def Region.gatesClosed (r : Region) : Bool := r.stations.all fun st => !st.resumable || st.lead = 0 || st.gate

/-- The beat's count has expired (R172), no address generator of the region stands stopped (R211), and the region does not
retire (R178). -/
def State.atBoundary (s : State) (l : Nat) (r : Region) : Bool :=
  r.phase = .running && !r.paused && r.beatStart + r.beat ≤ s.cycleAt l && r.gatesClosed && !s.ageStands r &&
  !r.sinks.all Sink.ready && s.lineMay l r

/-- The governor's boundary steps (R172); where a slot's parity has failed the region is held instead, in its beat (R341)
(DEDUCED, log entry 64). -/
def execBeatBoundary (leader : Nat) (s : State) : Out :=
  match mapGet s.regions leader with
  | none => .next s
  | some r =>
    if !s.atBoundary leader r then .next s
    else if r.parityHold then .next (s.setRegion leader { r with paused := true })
    else
      let all := List.range r.stations.length
      if all.any fun st => !(r.station st).resumable && !r.finished s st then .next (s.stopRegion leader 0x17 0)
      else
        let (s, r) := s.closeWindow leader r
        let (s, r, slips) := State.markGreen all s r []
        if slips = [] then .next (s.finishBoundary leader r none)
        else .next (s.setRegion leader { r with
          phase := .slipping slips (s.cycleAt leader)
          stations := r.stations.mapIdx fun i st => if slips.contains i then { st with gate := false } else st })

/-- Every slipping item has finished: the boundary goes on from step 4 (R175), but where every sink is to report the region retires
instead (R178). -/
def execSlipEnd (leader : Nat) (s : State) : Out :=
  match mapGet s.regions leader with
  | none => .next s
  | some r => match r.phase with
    | .slipping stations since =>
      if (stations.all fun st => r.finished s st) && !s.ageStands r && !r.sinks.all Sink.ready && s.lineMay leader r then
        let (s, r) := s.closeWindow leader r
        .next (s.finishBoundary leader r (some (stations, (r.station (stations.headD 0)).item.getD 0, since)))
      else .next s
    | _ => .next s

/-! ### Sinks and retirement (R173, R177) -/

/-- A sink reports; when every sink has, the region retires. -/
def execSinkReport (leader sink : Nat) (s : State) : Out :=
  match mapGet s.regions leader with
  | none => .next s
  | some r => match r.sinks[sink]? with
    | none => .next s
    | some k =>
      if k.ready && !k.reported && s.lineMay leader r then
        let r := r.setSink sink { k with reported := true }
        let s := s.setRegion leader r
        .next (if r.sinks.all Sink.reported then s.retire leader else s)
      else .next s

/-! ### Holds -/

/-- No step change is on its way on the dies of the tiles, and they stand at one step: a beat runs wholly at one clock (R352,
R404). -/
def State.steady (s : State) (tiles : List Nat) : Bool :=
  tiles.all fun t => (s.die (dieOf t)).stepState = .run && (s.die (dieOf t)).step = (s.die (dieOf (tiles.headD t))).step

/-- A held region whose holds are all released starts a beat. -/
def State.releaseHold (s : State) (l : Nat) : State :=
  match mapGet s.regions l with
  | none => s
  | some r => if r.phase = .held && r.mayStart && s.steady r.tiles then (s.applyArgs r).startBeat l r else s

/-- A slot's parity fails: its unit does not fire, and the controller asks for a hold (R341). -/
def execConfigParityError (t slot : Nat) (s : State) : Out :=
  match s.regionOf t with
  | none => .next s
  | some (l, r) =>
    if r.phase = .waiting || slot > 426 || s.tileStops t then .next s
    else
      let x := s.tile t
      let s := s.setTile t { x with parity := (slot :: x.parity).eraseDups }
      .next (s.setRegion l { r with parityHold := true })

/-- The word that the region's image gives a slot, the reset word where no entry names it (R341), with the k that the slot
has now. -/
def State.repairWord (s : State) (l : Nat) (r : Region) (t slot : Nat) : Slot128 :=
  let w := match s.readImage (fun _ => false) l r.image with
    | .error _ => slotReset slot
    | .ok im => match (im.tiles.find? fun x => x.1 = t).bind fun x => mapGet x.2 slot with
      | some w => w
      | none => slotReset slot
  if slot < 328 then withK w (((s.tile t).slot slot).extractLsb' 48 32) else w

/-- The slots of a region whose parity has failed: (tile, slot). -/
def State.failedSlots (s : State) (r : Region) : List (Nat × Nat) :=
  r.tiles.flatMap fun t => (s.tile t).parity.map fun n => (t, n)

/-- The controller rewrites the failing slots. -/
def State.rewrite (s : State) (fix : List (Nat × Nat × Slot128)) : State :=
  fix.foldl (fun s x => s.setTile x.1 { (s.tile x.1).setSlot x.2.1 x.2.2 with parity := [] }) s

/-- A rewritten slot passes the checks of R42, R46 and R149 (R341). -/
def State.slotSound (s : State) (t slot : Nat) : Bool :=
  let x := s.tile t
  slotOk t slot (x.slot slot) &&
  (match x.el slot, x.router slot with
   | some w, _ => (elSelectors (x.elOp slot) w).all x.selectorOk
   | none, some w => (operatorReads (x.routerOp slot) w).all fun c => x.chanEntry c = 0x3D
   | none, none => true)

/-- A beat that a parity hold has broken off goes on, behind its fc 1 (DEDUCED, log entry 64). -/
def Region.resumeBeat (r : Region) (now : Nat) : Region :=
  { r with parityHold := false, paused := false
           beatStart := if r.paused then now - 2 else r.beatStart
           stations := if r.paused then r.stations.map fun st => { st with gate := false } else r.stations }

/-- At the token round the controller rewrites the failing slots; the region resumes its beat, or stops with 0x1D where a word
fails its parity again or a check (R341). Whether a rewritten word's parity holds is a free choice (DESIGN CHOICE, log entry 2). -/
def execConfigParityRepair (leader : Nat) (s : State) : Out :=
  match mapGet s.regions leader with
  | none => .next s
  | some r =>
    if !r.parityHold || r.phase = .waiting || (r.phase = .running && !r.paused) || !s.lineMay leader r then .next s
    else
      let fix := (s.failedSlots r).map fun x => (x.1, x.2, s.repairWord leader r x.1 x.2)
      let (s, v) := s.free
      let s := s.rewrite fix
      if v.getLsbD 0 || fix.any fun x => !s.slotSound x.1 x.2.1 then .next (s.stopRegion leader 0x1D 0)
      else .next ((s.setRegion leader (r.resumeBeat (s.cycleAt leader))).releaseHold leader)

/-- A load that waited on residency goes on (R324), and a graph's region then starts (R282); for a graph's load the number is 2^32 + the leader tile. -/
def execResidencyWaitEnd (cmd : Nat) (s : State) : Out :=
  let leader := if cmd < 2 ^ 32 then (mapGet s.cmds cmd).map Cmd.tile else some (cmd - 2 ^ 32)
  match leader with
  | none => .next s
  | some l => match mapGet s.regions l with
    | none => .next s
    | some r =>
      let dev := deviceOf l
      let mine := r.graph.isSome || r.cmd = cmd
      if mine && r.phase = .waiting && s.lineMay l r &&
          !s.residencyWaits dev r.fn ((s.tenant dev r.fn).governing l) then .next ((s.configureRegion l).releaseHold l)
      else .next s

/-! ### Beat instructions (R182) -/

/-- A beat instruction acts on the region that its tile leads, once the core's loads are over; with none, 0x1B. -/
def onLine (i : Instr) (s : State) (go : Region → Out) : Out :=
  if s.loadPending s.cur then wait s (.beat i)
  else match mapGet s.regions s.cur with
    | none => raiseOpen s 0x1B
    | some r => go r

/-- Replace the region that the core leads. -/
def State.setLine (s : State) (r : Region) : State := s.setRegion s.cur r

/-- The largest of 4 and the static lengths (R179). -/
def Region.least (r : Region) : Nat := r.stations.foldl (fun n st => max n st.length) 4

/-- The check of R179 on a value, if it fails. -/
def Region.bsetFault (r : Region) (sub : Nat) (v : Int) : Option (BitVec 7) :=
  let range (ok : Bool) : Option (BitVec 7) := if ok then none else some 0x1A
  match sub with
  | 0 => if v < r.least then some 0x16
      else range (v ≤ 4095 && (r.mode = 0 || (decide ((r.floor : Int) ≤ v) && decide (v ≤ r.ceiling))))
  | 1 => if v < r.least then some 0x16 else range (v ≤ r.ceiling)
  | 2 => range (decide ((r.floor : Int) ≤ v) && v ≤ 4095)
  | 3 => range (1 ≤ v && v ≤ 255)
  | 4 => range (0 ≤ v && v ≤ 2)
  | 5 => range (0 ≤ v && v < 2 ^ 32)
  | 6 => range (0 ≤ v && v < 2 ^ 16 && decide (v % 256 < v / 256) && v / 256 ≤ 64)
  | _ => some 0x01

/-- The register of a sub takes a value (R179, R181). -/
def Region.bset (r : Region) (sub v : Nat) : Region :=
  match sub with
  | 0 => (match r.phase with
    | .running => { r with latched := some v }
    | .slipping _ _ => { r with direct := some v }
    | .held => { r with direct := some v }
    | .waiting => { r with direct := some v })
  | 1 => { r with floor := v }
  | 2 => { r with ceiling := v }
  | 3 => { r with step := v }
  | 4 => if v = r.mode then r else { r with mode := v, winBeats := 0, winGreens := 0, winSlips := 0 }
  | 5 => { r with slipceil := v }
  | 6 => { r with hyslo := v % 256, hyshi := v / 256 }
  | _ => r

/-- `bset` of a value, which is compared as a signed number (DESIGN CHOICE, log entry 80); a window that has ended is decided first. -/
def beatSet (i : Instr) (sub : BitVec 3) (v : Dword) (len : Nat) (s : State) : Out :=
  onLine i s fun r => match r.bsetFault sub.toNat v.toInt with
    | some c => raiseOpen s c
    | none =>
      let (s, r) := s.closeWindow s.cur r
      finish (s.setLine (r.bset sub.toNat v.toNat)) len

/-- `bset`, form A (R182). -/
def execBsetA (f : FormA) (s : State) : Out :=
  guarded f.gn f.guard lenA s fun s => beatSet (.bsetA f) f.sub (s.core.reg f.a) lenA s
/-- `bset`, form B. -/
def execBsetB (f : FormB) (s : State) : Out :=
  guarded f.gn f.guard lenB s fun s => beatSet (.bsetB f) f.sub (imm16 false f.imm16) lenB s

/-- The register of a sub (R179). -/
def Region.bget (r : Region) (sub : Nat) : Nat :=
  match sub with
  | 0 => r.beat
  | 1 => r.floor
  | 2 => r.ceiling
  | 3 => r.step
  | 4 => r.mode
  | 5 => r.slipceil
  | 6 => r.hyslo + r.hyshi * 256
  | _ => r.beats

/-- `bget` (R182). -/
def execBget (f : FormA) (s : State) : Out :=
  guarded f.gn f.guard lenA s fun s => onLine (.bget f) s fun r =>
    writeReg s f.d (BitVec.ofNat 64 (r.bget f.sub.toNat)) lenA

/-- `bhold` (R182): no effect on a held region. -/
def execBhold (f : FormA) (s : State) : Out :=
  guarded f.gn f.guard lenA s fun s => onLine (.bhold f) s fun r =>
    finish (if r.phase = .held then s else s.setLine { r with holdAsked := true }) lenA

/-- `bgo` (R182): no effect on a region that is not held. -/
def execBgo (f : FormA) (s : State) : Out :=
  guarded f.gn f.guard lenA s fun s => onLine (.bgo f) s fun r =>
    finish (if r.phase = .held then (s.setLine { r with holdAsked := false }).releaseHold s.cur else s) lenA

/-! ### Counters (R183) -/

/-- The counter of a sub: of a station, or of the region for 5 and 6. -/
def Region.counter (s : State) (r : Region) (sub st : Nat) : Nat :=
  let x := r.station st
  match sub with
  | 0 => x.green.toNat
  | 1 => x.reent.toNat
  | 2 => (match r.phase with
    | .slipping _ _ => r.occupied s st
    | .waiting => 0
    | .held => x.loop.length
    | .running => x.loop.length)
  | 3 => x.peak.toNat
  | 4 => x.slips.toNat
  | 5 => r.rslip.toNat
  | _ => r.yields.toNat

/-- The station field is out of range, where the counter has one. -/
def Region.badStation (r : Region) (sub : Nat) (v : Dword) : Bool := sub < 5 && decide (r.stations.length ≤ v.toNat)

/-- `rfst` of a station. -/
def counterRead (i : Instr) (sub : BitVec 3) (d : BitVec 5) (v : Dword) (len : Nat) (s : State) : Out :=
  onLine i s fun r =>
    if r.badStation sub.toNat v then raiseOpen s 0x1A
    else writeReg s d (BitVec.ofNat 64 (r.counter s sub.toNat v.toNat)) len

/-- `rfst`, form A (R183). -/
def execRfstA (f : FormA) (s : State) : Out :=
  guarded f.gn f.guard lenA s fun s => counterRead (.rfstA f) f.sub f.d (s.core.reg f.a) lenA s
/-- `rfst`, form B. -/
def execRfstB (f : FormB) (s : State) : Out :=
  guarded f.gn f.guard lenB s fun s => counterRead (.rfstB f) f.sub f.d (imm16 false f.imm16) lenB s

/-- The counter of a sub is cleared; the peak becomes the occupancy. -/
def Region.clearCounter (s : State) (r : Region) (sub st : Nat) : Region :=
  let x := r.station st
  match sub with
  | 0 => r.setStation st { x with green := 0 }
  | 1 => r.setStation st { x with reent := 0 }
  | 3 => r.setStation st { x with peak := satWord (r.counter s 2 st) }
  | 4 => r.setStation st { x with slips := 0 }
  | 5 => { r with rslip := 0 }
  | _ => { r with yields := 0 }

/-- `rfcl` of a station. -/
def counterClear (i : Instr) (sub : BitVec 3) (v : Dword) (len : Nat) (s : State) : Out :=
  onLine i s fun r =>
    if r.badStation sub.toNat v then raiseOpen s 0x1A
    else finish (s.setLine (r.clearCounter s sub.toNat v.toNat)) len

/-- `rfcl`, form A (R183). -/
def execRfclA (f : FormA) (s : State) : Out :=
  guarded f.gn f.guard lenA s fun s => counterClear (.rfclA f) f.sub (s.core.reg f.a) lenA s
/-- `rfcl`, form B. -/
def execRfclB (f : FormB) (s : State) : Out :=
  guarded f.gn f.guard lenB s fun s => counterClear (.rfclB f) f.sub (imm16 false f.imm16) lenB s

end Sys2Proof.Machine
end

