-- ==== Sys2Proof/Machine/Graph.lean ====
section
/-! DEFINITION. The graph walker (R280 to R287), the task scheduler (R289 to R291), and the vectors that HOST nodes raise
(R398). -/

namespace Sys2Proof.Machine

/-! ### Contexts -/

/-- A walker context, by die × 64 + number. -/
def State.ctx (s : State) (c : Nat) : GraphCtx := (mapGet s.contexts c).getD default
/-- Replace a context. -/
def State.setCtx (s : State) (c : Nat) (g : GraphCtx) : State := { s with contexts := mapSet s.contexts c g }
/-- A context leaves the machine with what its commands have left. -/
def State.freeCtx (s : State) (c : Nat) : State :=
  { s with contexts := mapErase s.contexts c, cmds := s.cmds.filter fun x => !(match x.2.graph with
      | some (d, _) => decide (d = c)
      | none => false) }

/-- The contexts of a die that are free. -/
def State.freeCtxs (s : State) (gdie : Nat) : List Nat :=
  (List.range 64).filter fun k => (mapGet s.contexts (gdie * 64 + k)).isNone

/-- A new context of a die, if one is free; which one the manual does not say: a free choice (DESIGN CHOICE, log entry 2). -/
def State.takeCtx (s : State) (fn home va n : Nat) (user : Bool) : State × Option Nat :=
  let gdie := dieOf home
  match s.freeCtxs gdie with
  | [] => (s, none)
  | k :: ks =>
    let (s, v) := s.free
    let k := ((k :: ks)[v.toNat % (k :: ks).length]?).getD k
    (s.setCtx (gdie * 64 + k)
      { fn := fn, user := user, home := home, va := va, n := n, started := 0, kinds := [], nodes := [], ready := [], stopped := none
        regions := [], spawns := [], received := [], flags := 0, age := Age.reset, act := 0, trail := [], passed := 0 }, some k)

/-- A graph VA that `gnode` refuses (R280). -/
def graphVaFault (va : Dword) : Option (BitVec 7) :=
  if va.toNat % 64 ≠ 0 then some 0x05 else if va.toNat ≥ 2 ^ 52 then some 0x20 else none

/-- `gnode` of a count (R280). -/
def graphSubmit (d a : BitVec 5) (n : Dword) (len : Nat) (s : State) : Out :=
  let va := s.core.reg a
  match graphVaFault va with
  | some c => raise s c va
  | none =>
    if n.toInt < 1 || n.toInt > 65535 then raise s 0x3A n
    else
      let (s, k) := s.takeCtx (fnOf s.core.fn) s.cur va.toNat n.toNat s.core.user
      writeReg s d (match k with
        | some k => BitVec.ofNat 64 k
        | none => -1) len

/-- `gnode`, form A (R280). -/
def execGnodeA (f : FormA) (s : State) : Out :=
  guarded f.gn f.guard lenA s fun s => graphSubmit f.d f.a (s.core.reg f.b) lenA s
/-- `gnode`, form B. -/
def execGnodeB (f : FormB) (s : State) : Out :=
  guarded f.gn f.guard lenB s fun s => graphSubmit f.d f.a (imm16 false f.imm16) lenB s

/-! ### Accesses through the walker AGE (R280) -/

/-- What keeps an act of a walker from its end, with what it has done so far: a page under move, a failing walk with the node whose
action or record it was for, or a context fault. -/
inductive NodeStop where
  | wait (s : State)
  | walk (s : State) (node access va : Nat) (f : WalkFault)
  | context (s : State) (cause : BitVec 7) (node : Nat)

/-- What an act of a walker comes to. -/
abbrev Walked (α : Type) := Except NodeStop α

/-- An access of an act: done, or passed over where an earlier run of the act has done it (R209, R280). -/
def State.once (s : State) (c : Nat) (go : State → Walked (State × Nat)) : Walked (State × Nat) :=
  let g := s.ctx c
  match g.trail[g.passed]? with
  | some v => .ok (s.setCtx c { g with passed := g.passed + 1 }, v)
  | none => match go s with
    | .error e => .error e
    | .ok (s, v) =>
      let g := s.ctx c
      .ok (s.setCtx c { g with trail := g.trail ++ [v], passed := g.passed + 1 }, v)

/-- Another effect of an act, which no later access of it may repeat. -/
def State.effect (s : State) (c : Nat) (f : State → State) : State :=
  match s.once c fun s => .ok (f s, 0) with
  | .ok (s, _) => s
  | .error _ => s

/-- The node-physical addresses of n bytes of a graph's memory, for node i. -/
def State.walkerReach (s : State) (c i access va n : Nat) : Walked (State × List Nat) :=
  let g := s.ctx c
  match State.reach (walkerAge c) (dieOf g.home) g.fn g.home access n s va with
  | .ok s pas => .ok (s, pas)
  | .wait => .error (.wait s)
  | .fault s v f => .error (.walk s i access v f)

/-- The number of n bytes of a graph's memory, read from M. -/
def State.walkerRead (s : State) (c i va n : Nat) : Walked (State × Nat) :=
  s.once c fun s => match s.walkerReach c i 0 va n with
    | .ok (s, pas) => .ok (s, s.numOf pas)
    | .error e => .error e

/-- n bytes of a graph's memory take, in one access, a number made from what they hold; one that reads them too is an atomic step,
which joins their atomic order (R233). -/
def State.walkerUpdate (s : State) (c i access va n : Nat) (f : Nat → Nat) : Walked State :=
  match (s.once c fun s => match s.walkerReach c i access va n with
    | .ok (s, pas) =>
      let s := s.writeCells (pas.zip (toBytes (f (s.numOf pas)) n))
      .ok (if access = 2 then s.note .machine pas else s, 0)
    | .error e => .error e) with
  | .ok (s, _) => .ok s
  | .error e => .error e

/-- n bytes of a graph's memory are written into M. -/
def State.walkerWrite (s : State) (c i va n v : Nat) : Walked State := s.walkerUpdate c i 1 va n fun _ => v

/-- The walker AGE stops (R209, R280); an access that no path can carry stops the context, with the node that it was for (R287,
R355; DEDUCED, log entry 46). -/
def State.stopWalker (s : State) (c node access va : Nat) (f : WalkFault) : State :=
  if f.cause = 0x50 then s.contextFault c node 0x50 else
  let g := s.ctx c
  let r := ageRecord { (default : FaultFields) with
    cause := f.cause, tile := g.home, unit := c % 16, kind := 5, access := access, level := f.level, ctxhi := c / 16 % 4
    fn := g.fn, va := va, pte := f.pte }
  let s := s.setCtx c { g with age := { g.age with stopped := some r } }
  s.postFault (dieOf g.home) g.fn g.home r

/-- An act that began in a state is broken off: its accesses stand, and the context stands where it began. -/
def State.breakOff (s0 s : State) (c act : Nat) : State :=
  let g := s.ctx c
  { s.setCtx c { s0.ctx c with act := act, trail := g.trail, passed := 0, age := g.age } with cmds := s0.cmds }

/-- The act of a context is over. -/
def State.endAct (s : State) (c : Nat) : State :=
  match mapGet s.contexts c with
  | none => s
  | some g => s.setCtx c { g with act := 0, trail := [], passed := 0 }

/-- The end of an act of a walker that began in a state: on a failing walk it is broken off at the access that failed, where it
goes on after the resume (R209, R280). -/
def walkerEnd (s0 : State) (c act : Nat) (r : Walked State) : State :=
  match r with
  | .ok s => s.endAct c
  | .error (.wait s) => s0.breakOff s c act
  | .error (.walk s node access va f) => (s0.breakOff s c act).stopWalker c node access va f
  | .error (.context s cause node) => (s.endAct c).contextFault c node cause

/-- The acts of a walker: the next of a submission or of the ready list, and those of a node. -/
def actRun : Nat := 0
def actFinish (node : Nat) : Nat := 3 * node + 1
def actSpawn (node : Nat) : Nat := 3 * node + 2
def actEnd : Nat := 3

/-- No other act of the context has been broken off. -/
def GraphCtx.free (g : GraphCtx) (act : Nat) : Bool := g.trail = [] || g.act = act

/-- What a context has started may go on: not when it is stopped, nor while its tenant does not run. -/
def State.ctxLives (s : State) (c : Nat) : Bool :=
  match mapGet s.contexts c with
  | none => false
  | some g => g.stopped.isNone && s.mayRun (deviceOf g.home) g.fn && !(s.die (dieOf g.home)).lost && !(s.die (dieOf g.home)).stopped

/-- May its walker act? Not while its AGE stands stopped (R280). -/
def State.ctxMay (s : State) (c : Nat) : Bool := s.ctxLives c && (s.ctx c).age.stopped.isNone

/-! ### Node records (R281, R282) -/

/-- The address of a node. -/
def GraphCtx.nodeVa (g : GraphCtx) (i : Nat) : Nat := g.va + 64 * i
/-- A node's record. -/
def State.readNode (s : State) (c i : Nat) : Walked (State × Nat) := s.walkerRead c i ((s.ctx c).nodeVa i) 64
/-- Write n bytes of a node's record. -/
def State.putNode (s : State) (c i off n v : Nat) : Walked State := s.walkerWrite c i ((s.ctx c).nodeVa i + off) n v

/-- Kinds of node. -/
def kEnd : Nat := 0
def kCopy : Nat := 1
def kLayout : Nat := 2
def kRegion : Nat := 3
def kSpawn : Nat := 4
def kCond : Nat := 5
def kLoop : Nat := 6
def kSignal : Nat := 7
def kWait : Nat := 8
def kHost : Nat := 9
def kTier : Nat := 10

/-- The kind and the fields common to all nodes. -/
def nodeKind (r : Nat) : Nat := bits r 7 0
def nodeInit (r : Nat) : Nat := bits r 47 32
def nodeSucc (r j : Nat) : Nat := bits r (16 * j + 79) (16 * j + 64)
/-- The successor index that names none. -/
def noNode : Nat := 0xFFFF

/-- The reserved payload bits of a kind: ranges (high, low) (R282, R289). -/
def payloadReserved (k : Nat) : List (Nat × Nat) :=
  if k = kEnd then [(511, 257)]
  else if k = kCopy || k = kLayout then []
  else if k = kRegion then [(511, 158)]
  else if k = kSpawn then [(511, 384), (319, 304)]
  else if k = kCond then [(511, 320)]
  else if k = kLoop then [(511, 417)]
  else if k = kSignal then [(511, 266)]
  else if k = kWait then [(511, 192)]
  else if k = kHost then [(511, 268)]
  else [(511, 258)]

/-- A record that stops its context with 0x36 (R287) (DEDUCED, log entry 36). So do a REGION whose leader field names no tile, and a
TIER whose operation field is 3 (R282; DESIGN CHOICE, log entry 84). -/
def State.nodeBad (s : State) (c r : Nat) : Bool :=
  let g := s.ctx c
  let k := nodeKind r
  k > 10 || bits r 63 48 ≠ 0 || bits r 15 8 ≠ 0 || (payloadReserved k).any (fun p => bits r p.1 p.2 ≠ 0) ||
  (List.range 4).any (fun j => nodeSucc r j ≠ noNode && g.n ≤ nodeSucc r j) ||
  (k = kRegion && bits r 157 150 ≥ 160) ||
  (k = kSpawn && (bits r 207 192 = 0 || bits r 255 240 = 0)) ||
  (k = kLoop && (bits r 335 320 > bits r 351 336 || g.n ≤ bits r 351 336)) ||
  (k = kSignal && bits r 265 265 = 1 && !s.ownsTile (deviceOf g.home) g.fn (bits r 264 257)) ||
  (k = kTier && (bits r 257 256 = 3 || bits r 255 192 = 0 || bits r 191 128 + bits r 255 192 > 2 ^ 52))

/-- The state of a node (R283). -/
def GraphCtx.node (g : GraphCtx) (i : Nat) : NodeState := (mapGet g.nodes i).getD .waiting
/-- A node takes a state. -/
def State.setNode (s : State) (c i : Nat) (x : NodeState) : State :=
  let g := s.ctx c
  s.setCtx c { g with nodes := mapSet g.nodes i x }

/-- Put a number into a rising list. -/
def insertNat (x : Nat) : List Nat → List Nat
  | [] => [x]
  | y :: r => if x ≤ y then x :: y :: r else y :: insertNat x r

/-- Nodes that became READY in one step join the ready list, the lower index first (R283). -/
def State.joinReady (s : State) (c : Nat) (is : List Nat) : State :=
  let g := s.ctx c
  let sorted := is.foldl (fun l i => insertNat i l) []
  s.setCtx c { g with ready := g.ready ++ sorted, nodes := sorted.foldl (fun m i => mapSet m i .ready) g.nodes }

/-! ### Submission (R280) -/

/-- The signals that have come for a node and are not in its record yet. -/
def GraphCtx.pending (g : GraphCtx) (i : Nat) : Nat := (mapGet g.received i).getD 0

/-- One node at submission: pred := init, and WAIT's received or LOOP's iter := 0. Signals that came before it, to a node that is
no WAIT, stop the context (R286; DESIGN CHOICE, log entry 84). -/
def State.setUpNode (s : State) (c i : Nat) : Walked State :=
  match s.readNode c i with
  | .error e => .error e
  | .ok (s, r) => match s.putNode c i 2 2 (nodeInit r) with
    | .error e => .error e
    | .ok s =>
      let g := s.ctx c
      let s := s.setCtx c { g with started := i + 1, kinds := mapSet g.kinds i (nodeKind r) }
      if nodeKind r = kWait then s.putNode c i 20 4 0
      else if g.pending i ≠ 0 then .error (.context s 0x36 i)
      else if nodeKind r = kLoop then s.putNode c i 48 4 0
      else .ok s

/-- The nodes whose pred is 0, in increasing index. -/
def State.launches (c : Nat) : List Nat → State → Walked (State × List Nat)
  | [], s => .ok (s, [])
  | i :: r, s => match s.walkerRead c i ((s.ctx c).nodeVa i + 2) 2 with
    | .error e => .error e
    | .ok (s, p) => match State.launches c r s with
      | .error e => .error e
      | .ok (s, is) => .ok (s, if p = 0 then i :: is else is)

/-- Submission sets the next node; after the last it launches. -/
def State.setUp (s : State) (c : Nat) : Walked State :=
  let g := s.ctx c
  match s.setUpNode c g.started with
  | .error e => .error e
  | .ok s =>
    if (s.ctx c).started < g.n then .ok s
    else match State.launches c (List.range g.n) s with
      | .error e => .error e
      | .ok (s, is) => .ok (s.joinReady c is)

/-! ### Finishing (R283) -/

/-- A successor's pred falls by 1; the node joins `ready` when it reaches 0. Where it is 0 already the record names the successor
(DESIGN CHOICE, log entry 76). -/
def State.decrement (s : State) (c i : Nat) (ready : List Nat) : Walked (State × List Nat) :=
  if i = noNode then .ok (s, ready)
  else match s.walkerRead c i ((s.ctx c).nodeVa i + 2) 2 with
    | .error e => .error e
    | .ok (s, p) =>
      if p = 0 then .error (.context s 0x36 i)
      else match s.putNode c i 2 2 (p - 1) with
        | .error e => .error e
        | .ok s => .ok (s, if p = 1 && (s.ctx c).node i = .waiting then ready ++ [i] else ready)

/-- Several successors in order. -/
def State.decrements (c : Nat) : List Nat → State → List Nat → Walked (State × List Nat)
  | [], s, ready => .ok (s, ready)
  | i :: r, s, ready => match s.decrement c i ready with
    | .error e => .error e
    | .ok (s, ready) => State.decrements c r s ready

/-- A node finishes: DONE, and the successors that it takes. -/
def State.finishNode (s : State) (c i r : Nat) (takes : List Nat) : Walked State :=
  match State.decrements c (takes.map (nodeSucc r)) (s.setNode c i .done) [] with
  | .error e => .error e
  | .ok (s, is) => .ok (s.joinReady c is)

/-! ### LOOP (R284) -/

/-- A node is armed again: pred := init; it joins `ready` when init is 0. -/
def State.rearmNode (s : State) (c i : Nat) (ready : List Nat) : Walked (State × List Nat) :=
  match s.walkerRead c i ((s.ctx c).nodeVa i + 4) 2 with
  | .error e => .error e
  | .ok (s, v) => match s.putNode c i 2 2 v with
    | .error e => .error e
    | .ok s => .ok (s.setNode c i .waiting, if v = 0 then ready ++ [i] else ready)

/-- A node is READY or RUNNING. -/
def State.nodeBusy (s : State) (c i : Nat) : Bool := (s.ctx c).node i = .ready || (s.ctx c).node i = .running

/-- Several nodes are armed again by LOOP i, one after another; one that is busy when it is reached stops the context, whose record
names the LOOP (DESIGN CHOICE, log entry 76). -/
def State.rearmNodes (c i : Nat) : List Nat → State → List Nat → Walked (State × List Nat)
  | [], s, ready => .ok (s, ready)
  | j :: r, s, ready =>
    if j ≠ i && s.nodeBusy c j then .error (.context s 0x36 i)
    else match s.rearmNode c j ready with
      | .error e => .error e
      | .ok (s, ready) => State.rearmNodes c i r s ready

/-- A LOOP goes on: the nodes from first to last are armed again, itself among them, and its body is entered. -/
def State.loopOn (s : State) (c i r : Nat) : Walked State :=
  let first := bits r 335 320
  let last := bits r 351 336
  let body := (List.range (last + 1 - first)).map fun j => first + j
  match State.rearmNodes c i body (s.setNode c i .done) [] with
  | .error e => .error e
  | .ok (s, ready) => match State.decrements c [nodeSucc r 0, nodeSucc r 1] s ready with
    | .error e => .error e
    | .ok (s, ready) => .ok (s.joinReady c ready)

/-- The predicate test of COND and LOOP, node i. -/
def State.predicate (s : State) (c i r : Nat) : Walked (State × Bool) :=
  match s.walkerRead c i (bits r 191 128) 8 with
  | .error e => .error e
  | .ok (s, v) => .ok (s, decide (v &&& bits r 255 192 = bits r 319 256))

/-- A LOOP node runs. -/
def State.runLoop (s : State) (c i r : Nat) : Walked State :=
  let iter := bits r 415 384
  let counted := bits r 416 416 = 0
  let test : Walked (State × Bool) :=
    if counted then .ok (s, decide (iter + 1 < bits r 383 352)) else s.predicate c i r
  match test with
  | .error e => .error e
  | .ok (s, true) => match (if counted then s.putNode c i 48 4 (iter + 1) else .ok s) with
    | .error e => .error e
    | .ok s => s.loopOn c i r
  | .ok (s, false) => match s.putNode c i 48 4 0 with
    | .error e => .error e
    | .ok s => s.finishNode c i r [2, 3]

/-! ### Vectors (R398) -/

/-- A vector of a function is an MSI-X message, or pending where it is masked; without its host port a device raises none (R2,
R399). -/
def State.raiseVector (s : State) (dev fn v : Nat) : State :=
  let d := s.device dev
  let n := fn * 4096 + v
  if !s.hostPort dev then s
  else s.setDevice dev (if d.msixMasked.contains n then { d with msixPending := (d.msixPending ++ [n]).eraseDups }
    else { d with msix := d.msix ++ [n] })

/-- The entries of a function's MSI-X table; at most 2,048 (R395). -/
def State.vectors (s : State) (dev fn : Nat) : Nat := (mapGet (s.device dev).msixSize fn).getD 2048

/-! ### The actions of nodes (R282) -/

/-- The register fields of a graph's command image are 0 to 4. -/
def imageRegsOk (code : Nat) (w : StreamWord) : Bool :=
  (w.w1.extractLsb' 0 5).toNat ≤ 4 && (w.w2.extractLsb' 0 5).toNat ≤ 4 && (w.w3.extractLsb' 0 5).toNat ≤ 4 &&
  ((code ≠ 0x0B && code ≠ 0x0C) || (w.w3.extractLsb' 5 5).toNat ≤ 4) &&
  (code ≠ 0x0A || (w.w3.extractLsb' 6 5).toNat ≤ 4)

/-- A graph as the issuer of a node's command: its home tile, and the node's arguments in g1 to g4. -/
def State.graphIssuer (s : State) (g : GraphCtx) (r : Nat) : Issuer :=
  { tile := g.home, fn := g.fn, user := g.user, pc := 0
    reg := fun n => if n = 0 || n.toNat > 4 then 0 else BitVec.ofNat 64 (bits r (64 * n.toNat + 255) (64 * n.toNat + 192))
    read := fun a => BitVec.ofNat 32 (s.mem.num (spBase g.home + a) 4) }

/-- The command of a COPY or LAYOUT node; none where its image fails (R287). -/
def State.nodeCommand (s : State) (g : GraphCtx) (r : Nat) : Option Cmd :=
  let word (j : Nat) : Word := BitVec.ofNat 32 (bits r (32 * j + 159) (32 * j + 128))
  let w := unpackStream (word 0) (word 1) (word 2) (word 3)
  let code := (word 0).toNat / 4 % 64
  let fits := if nodeKind r = kLayout then code = 0x0D else code = 0x0A || code = 0x0B || code = 0x0C || code = 0x11
  match decodeScalar (word 0) (word 1) (word 2) (word 3) with
  | .error _ => none
  | .ok _ =>
    if (word 0).toNat % 4 ≠ 3 || !fits || !imageRegsOk code w then none
    else match s.buildCmd (s.graphIssuer g r) code w with
      | .error _ => none
      | .ok c => if c.hasFollow then none else some c

/-- A command of a node joins the machine; it stands at its engine's door, or, for the tier engine, with the engine. -/
def State.addNodeCmd (s : State) (c i : Nat) (x : Cmd) (stage : CmdStage) (engine : Nat) : State :=
  { s with cmds := mapSet s.cmds s.nextCmd { x with graph := some (c, i), stage := stage, engine := engine }
           nextCmd := s.nextCmd + 1 }

/-- A REGION node loads its region, which starts once it is loaded. -/
def State.runRegion (s : State) (c i r : Nat) : State :=
  let g := s.ctx c
  let leader := deviceOf g.home * 160 + bits r 157 150
  let s := s.setCtx c { g with regions := mapSet g.regions i .live }
  (s.loadRegion 0 leader (bits r 149 128) g.fn g.user (some (c, i))).releaseHold leader

/-- A TIER node's command for the tier engine of the walker's die. -/
def tierCmd (g : GraphCtx) (r : Nat) : Cmd :=
  { (default : Cmd) with
    kind := .tier (bits r 257 256), tile := g.home, fn := g.fn, user := g.user
    words := [bits r 191 128, bits r 255 192] }

/-- A SIGNAL node: the store or the atomic add, and the post. -/
def State.runSignal (s : State) (c i r : Nat) : Walked State :=
  let v := bits r 255 192
  let add := bits r 256 256 = 1
  match s.walkerUpdate c i (if add then 2 else 1) (bits r 191 128) 8 fun old => if add then old + v else v with
  | .error e => .error e
  | .ok s =>
    let g := s.ctx c
    let s := if bits r 265 265 = 1 then
        s.effect c fun s => s.post (deviceOf g.home * 160 + bits r 264 257) 0x31 (c % 64) i
      else s
    s.finishNode c i r [0, 1, 2, 3]

/-- A HOST node: the store, and the vector; a vector beyond the table stops the context after the store (R398). -/
def State.runHost (s : State) (c i r : Nat) : Walked State :=
  match s.walkerWrite c i (bits r 191 128) 8 (bits r 255 192) with
  | .error e => .error e
  | .ok s =>
    let g := s.ctx c
    let dev := deviceOf g.home
    let v := bits r 266 256
    if bits r 267 267 = 0 then s.finishNode c i r [0, 1, 2, 3]
    else if s.vectors dev g.fn ≤ v then .error (.context s 0x36 i)
    else (s.effect c fun s => s.raiseVector dev g.fn v).finishNode c i r [0, 1, 2, 3]

/-- A node that the walker has taken acts by its kind (R282); END is not among them. -/
def State.runNode (s : State) (c i r : Nat) : Walked State :=
  let g := s.ctx c
  let k := nodeKind r
  if s.nodeBad c r then .error (.context s 0x36 i)
  else
    let s := s.setCtx c { g with ready := g.ready.filter (· ≠ i), nodes := mapSet g.nodes i .running }
    if k = kCopy || k = kLayout then match s.nodeCommand g r with
      | none => .error (.context s 0x36 i)
      | some x => .ok (s.addNodeCmd c i x .queued 0)
    else if k = kRegion then
      if s.loadWaits (deviceOf g.home * 160 + bits r 157 150) (bits r 149 128) g.fn then .error (.wait s) else .ok (s.runRegion c i r)
    else if k = kSpawn then .ok (s.setCtx c { s.ctx c with spawns := mapErase g.spawns i })
    else if k = kCond then match s.predicate c i r with
      | .error e => .error e
      | .ok (s, t) => s.finishNode c i r (if t then [0, 1] else [2, 3])
    else if k = kLoop then s.runLoop c i r
    else if k = kSignal then s.runSignal c i r
    else if k = kWait then .ok s
    else if k = kHost then s.runHost c i r
    else .ok (s.addNodeCmd c i (tierCmd g r) .running (dieOf g.home * 16 + 10))

/-- The earliest READY node that is no END, with its record. -/
def State.pickNode (c : Nat) : List Nat → State → Walked (State × Option (Nat × Nat))
  | [], s => .ok (s, none)
  | i :: rest, s => match s.readNode c i with
    | .error e => .error e
    | .ok (s, r) => if nodeKind r = kEnd then State.pickNode c rest s else .ok (s, some (i, r))

/-- The walker goes on with a submission, or takes the earliest READY node (R280, R283). -/
def execGraphNodeRun (ctx : Nat) (s : State) : Out :=
  if !s.ctxMay ctx || !(s.ctx ctx).free actRun then .next s
  else
    let g := s.ctx ctx
    if g.started < g.n then .next (walkerEnd s ctx actRun (s.setUp ctx))
    else .next (walkerEnd s ctx actRun (match State.pickNode ctx g.ready s with
      | .error e => .error e
      | .ok (_, none) => .ok s
      | .ok (t, some (i, r)) => t.runNode ctx i r))

/-! ### SPAWN (R289 to R291) -/

/-- n words of node i's offset vector from a VA. -/
def State.readOffsets (c i : Nat) : Nat → State → Nat → Walked (State × List Nat)
  | 0, s, _ => .ok (s, [])
  | n + 1, s, va => match s.walkerRead c i va 4 with
    | .error e => .error e
    | .ok (s, v) => match State.readOffsets c i n s (va + 4) with
      | .error e => .error e
      | .ok (s, r) => .ok (s, v :: r)

/-- The offsets fall somewhere. -/
def fallsSomewhere : List Nat → Bool
  | a :: b :: r => b < a || fallsSomewhere (b :: r)
  | _ => false

/-- A task record (R290). -/
def taskRecord (r handle group start count : Nat) : List Byte :=
  toBytes (bits r 303 256) 8 ++ toBytes (bits r 383 320) 8 ++ toBytes start 4 ++ toBytes count 4 ++
  toBytes group 4 ++ toBytes handle 4

/-- The tasks of one group (R289). -/
def groupTasks (r handle group lo hi : Nat) : List (List Byte) :=
  let t := bits r 255 240
  (List.range ((hi - lo + t - 1) / t)).map fun j => taskRecord r handle group (lo + t * j) (min t (hi - lo - t * j))

/-- The tasks of every group, in order. -/
def spawnTasks (r handle : Nat) : Nat → List Nat → List (List Byte)
  | group, a :: b :: rest => groupTasks r handle group a b ++ spawnTasks r handle (group + 1) (b :: rest)
  | _, _ => []

/-- The handle of a node (R286). -/
def nodeHandle (c i : Nat) : Nat := c % 64 + i * 2 ^ 6 + c / 64 % 2 * 2 ^ 22

/-- The position-0 tiles of a die that belong to a function. -/
def State.firstTiles (s : State) (gdie fn : Nat) : List Nat :=
  ((List.range 10).map fun k => gdie * 80 + 8 * k).filter (s.tileOfFn fn)

/-- The tiles whose deques take a graph's tasks (R291). -/
def State.taskTiles (s : State) (g : GraphCtx) : List Nat :=
  let d := dieOf g.home
  let own := s.firstTiles d g.fn
  if own ≠ [] then own else s.firstTiles (if d % 2 = 0 then d + 1 else d - 1) g.fn

/-- A SPAWN's vector is read and checked, and its tasks are made (R289, R291). -/
def State.readSpawn (s : State) (c i r : Nat) : Walked State :=
  match State.readOffsets c i (bits r 207 192 + 1) s (bits r 191 128) with
  | .error e => .error e
  | .ok (s, off) =>
    if fallsSomewhere off then .error (.context s 0x30 i)
    else if bits r 239 208 < off.getLastD 0 then .error (.context s 0x31 i)
    else if s.taskTiles (s.ctx c) = [] then .error (.context s 0x36 i)
    else
      let tasks := spawnTasks r (nodeHandle c i) 0 off
      let g := s.ctx c
      let s := s.setCtx c { g with spawns := mapSet g.spawns i { tasks := tasks, left := tasks.length } }
      if tasks = [] then s.finishNode c i r [0, 1, 2, 3] else .ok s

/-- The task scheduler reads the vector of a SPAWN that runs. -/
def execSpawnRead (ctx node : Nat) (s : State) : Out :=
  if !s.ctxMay ctx || !(s.ctx ctx).free (actSpawn node) || (s.ctx ctx).node node ≠ .running ||
      (mapGet (s.ctx ctx).spawns node).isSome then .next s
  else .next (walkerEnd s ctx (actSpawn node) (match s.readNode ctx node with
    | .error e => .error e
    | .ok (s, r) => if nodeKind r = kSpawn then s.readSpawn ctx node r else .ok s))

/-- The tile, among some, with the fewest records in its deque; the first of those. -/
def State.leastLoaded (s : State) : List Nat → Option Nat
  | [] => none
  | t :: r => match s.leastLoaded r with
    | none => some t
    | some u => if (s.coreOf u).deque.length < (s.coreOf t).deque.length then some u else some t

/-- The scheduler pushes the next task of a SPAWN; it waits while every deque is full (R291). It reads nothing, so it runs on while the
walker AGE stands stopped (R280). -/
def execSpawnTaskPush (ctx node : Nat) (s : State) : Out :=
  if !s.ctxLives ctx then .next s
  else
    let g := s.ctx ctx
    match mapGet g.spawns node with
    | none => .next s
    | some x => match x.tasks, s.leastLoaded (s.taskTiles g) with
      | k :: rest, some t =>
        if (s.coreOf t).deque.length < 256 then
          let s := s.setCore t { s.coreOf t with deque := (s.coreOf t).deque ++ [k] }
          .next (s.setCtx ctx { g with spawns := mapSet g.spawns node { x with tasks := rest } })
        else .next s
      | _, _ => .next s

/-! ### The end of a running node -/

/-- The command that a node issued. -/
def State.nodeCmd (s : State) (c i : Nat) : Option (Nat × Cmd) := s.cmds.find? fun x => x.2.graph = some (c, i)

/-- They are in its record. -/
def State.clearPending (s : State) (c i : Nat) : State :=
  s.setCtx c { s.ctx c with received := mapErase (s.ctx c).received i }

/-- The signals that have come for a WAIT node join the count in its record (R282, R286); beyond the expected number they stop the
context. Where a walk for it fails the walker's AGE stops, and the node's end goes on with it. -/
def State.storeSignals (s : State) (c i : Nat) : State :=
  let g := s.ctx c
  let stand (e : NodeStop) : State := match e with
    | .wait s => s
    | .walk s node access va f => s.stopWalker c node access va f
    | .context s cause node => s.contextFault c node cause
  if g.pending i = 0 || g.age.stopped.isSome then s
  else match s.walkerReach c i 0 (g.nodeVa i) 64 with
    | .error e => stand e
    | .ok (s, pas) =>
      let total := bits (s.numOf pas) 191 160 + g.pending i
      if bits (s.numOf pas) 159 128 < total then s.contextFault c i 0x36
      else match s.walkerReach c i 1 (g.nodeVa i + 20) 4 with
        | .error e => stand e
        | .ok (s, pas) => (s.writeCells (pas.zip (toBytes total 4))).clearPending c i

/-- A running node's work is over (R282); none where it is not. A region that retired with err stops the context (R287). A WAIT
counts what its record holds and the signals that are not in it yet. -/
def State.nodeOver (s : State) (c i r : Nat) : Option (Walked State) :=
  let g := s.ctx c
  let k := nodeKind r
  if k = kCopy || k = kLayout || k = kTier then match s.nodeCmd c i with
    | some (n, x) => if x.stage = .done then some (.ok { s with cmds := mapErase s.cmds n }) else none
    | none => none
  else if k = kRegion then match mapGet g.regions i with
    | some .retired => some (.ok (s.setCtx c { g with regions := mapErase g.regions i }))
    | some .failed => some (.error (.context s 0x36 i))
    | some .live => none
    | none => none
  else if k = kSpawn then match mapGet g.spawns i with
    | some x => if x.left = 0 && x.tasks = [] then some (.ok (s.setCtx c { g with spawns := mapErase g.spawns i })) else none
    | none => none
  else if k = kWait then
    let n := bits r 191 160 + g.pending i
    if bits r 159 128 < n then some (.error (.context s 0x36 i))
    else if bits r 159 128 = n then some (match s.putNode c i 20 4 n with
      | .error e => .error e
      | .ok s => .ok (s.clearPending c i))
    else none
  else none

/-- A running node finishes (R283). -/
def execGraphNodeFinish (ctx node : Nat) (s : State) : Out :=
  if !s.ctxMay ctx || !(s.ctx ctx).free (actFinish node) || (s.ctx ctx).node node ≠ .running then .next s
  else .next (walkerEnd s ctx (actFinish node) (match s.readNode ctx node with
    | .error e => .error e
    | .ok (t, r) => match t.nodeOver ctx node r with
      | none => .ok (s.storeSignals ctx node)
      | some (.error e) => .error e
      | some (.ok t) => t.finishNode ctx node r [0, 1, 2, 3]))

/-- An END node acts when no other node of its context is READY or RUNNING (R283). -/
def execEndNode (ctx : Nat) (s : State) : Out :=
  let g := s.ctx ctx
  match g.ready with
  | [i] =>
    if !s.ctxMay ctx || !g.free actEnd || g.nodes.any (fun x => x.2 = .running) then .next s
    else .next (walkerEnd s ctx actEnd (match s.readNode ctx i with
      | .error e => .error e
      | .ok (t, r) =>
        if nodeKind r ≠ kEnd then .ok s
        else if t.nodeBad ctx r then .error (.context t 0x36 i)
        else match t.walkerWrite ctx i (bits r 191 128) 8 (bits r 255 192) with
          | .error e => .error e
          | .ok t =>
            let t := if bits r 256 256 = 1 then t.post g.home 0x30 (ctx % 64) i else t
            .ok (t.freeCtx ctx)))
  | _ => .next s

/-- A stopped context is freed once its commands have completed and its regions retired (R287). -/
def execContextFree (ctx : Nat) (s : State) : Out :=
  match mapGet s.contexts ctx with
  | none => .next s
  | some g =>
    let idle := s.cmds.all fun x => (match x.2.graph with
      | some (d, _) => decide (d ≠ ctx)
      | none => true) || x.2.stage = .done
    if g.stopped.isSome && idle && s.mayRun (ctx / 128) g.fn && g.regions.all (fun r => r.2 ≠ .live) then .next (s.freeCtx ctx) else .next s

/-! ### gsig (R286) -/

/-- A handle's context, by die × 64 + number, and node. -/
def handleCtx (dev v : Nat) : Nat := (dev * 2 + v / 2 ^ 22 % 2) * 64 + v % 64
def handleNode (v : Nat) : Nat := v / 2 ^ 6 % 2 ^ 16

/-- The kind of a node, as its record in M gives it; where the record's page is absent, as submission read it; none for a node on
such a page that submission has not set yet (DESIGN CHOICE, log entry 84). -/
def State.kindOf (s : State) (g : GraphCtx) (i : Nat) : Option Nat :=
  match s.leafOn (dieOf g.home) g.fn (g.nodeVa i) with
  | some l => some (s.mem.get (l.frame + g.nodeVa i % pageSize l.level)).toNat
  | none => mapGet g.kinds i

/-- The handle names a SPAWN or WAIT node of a live context of the function; a context that is stopped and not yet freed is not live
(DESIGN CHOICE, log entry 84). -/
def State.handleOk (s : State) (dev fn v : Nat) : Bool :=
  v < 2 ^ 23 && match mapGet s.contexts (handleCtx dev v) with
    | none => false
    | some g => g.fn = fn && g.stopped.isNone && handleNode v < g.n &&
        (match s.kindOf g (handleNode v) with
          | some k => k = kSpawn || k = kWait
          | none => true)

/-- Signals reach a SPAWN or WAIT node; beyond the expected number they stop the context (R286). Those of a node that submission
has not set yet stand beside its record, whose count submission clears (R280). -/
def State.signal (s : State) (c i n : Nat) : State :=
  let g := s.ctx c
  match s.kindOf g i with
  | some 4 => match mapGet g.spawns i with
    | some x =>
      if x.left < n || g.node i ≠ .running then s.contextFault c i 0x36
      else s.setCtx c { g with spawns := mapSet g.spawns i { x with left := x.left - n } }
    | none => s.contextFault c i 0x36
  | _ =>
    let s := s.setCtx c { g with received := mapSet g.received i (g.pending i + n) }
    if i < g.started then s.storeSignals c i else s

/-- `gsig` of a count. -/
def graphSignal (a : BitVec 5) (n : Dword) (len : Nat) (s : State) : Out :=
  let h := s.core.reg a
  let dev := deviceOf s.cur
  if n.toInt < 1 || n.toInt > 32767 then raise s 0x3A n
  else if !s.handleOk dev (fnOf s.core.fn) h.toNat then raise s 0x3A h
  else finish (s.signal (handleCtx dev h.toNat) (handleNode h.toNat) n.toNat) len

/-- `gsig`, form A (R286): one signal. -/
def execGsigA (f : FormA) (s : State) : Out := guarded f.gn f.guard lenA s fun s => graphSignal f.a 1 lenA s
/-- `gsig`, form B. -/
def execGsigB (f : FormB) (s : State) : Out :=
  guarded f.gn f.guard lenB s fun s => graphSignal f.a (imm16 false f.imm16) lenB s

end Sys2Proof.Machine
end

