-- ==== Sys2Proof/Machine/Groups.lean ====
section
/-! DEFINITION. Group sends and experts (R370 to R391): groups and their trees, readiness, sends and how they are steered,
receiving and acknowledging, expert selection, the bias unit, and strikes. -/

namespace Sys2Proof.Machine

/-! ### Groups -/

/-- The key of a group of a node tenant. -/
def groupKey (fn g : Nat) : Nat := fn * 256 + g

/-- A group that is installed on a device (R371). -/
def State.groupOn (s : State) (dev fn g : Nat) : Option Group := (mapGet s.groups (groupKey fn g)).filter fun x => x.devs.contains dev

/-- Replace a group. -/
def State.setGroup (s : State) (key : Nat) (g : Group) : State := { s with groups := mapSet s.groups key g }

/-- The tile of the node that a record names. -/
def Group.place (g : Group) (i : Nat) : Nat := (g.dev[i]?.getD 0) * 160 + g.tile[i]?.getD 0

/-- The record is in the tree. -/
def Group.stands (g : Group) (i : Nat) : Bool := i < g.tile.length && !g.struck.contains i

/-- The record is a member not struck. -/
def Group.isMember (g : Group) (i : Nat) : Bool := g.stands i && g.member[i]?.getD false

/-- The parent of a record. -/
def Group.up (g : Group) (i : Nat) : Nat := g.parent[i]?.getD 0

/-- The records in the tree. -/
def Group.records (g : Group) : List Nat := (List.range g.tile.length).filter g.stands

/-- The children of a record (R370). -/
def Group.children (g : Group) (i : Nat) : List Nat := g.records.filter fun c => c ≠ g.root && g.up c = i

/-- The record of a tile, if it is a member. -/
def Group.memberOf (g : Group) (t : Nat) : Option Nat := g.records.find? fun i => g.isMember i && g.place i = t

/-- The count of a record at its parent (R372). -/
def Group.count (g : Group) (i : Nat) : Int := (mapGet g.counts i).getD 0

/-- Add to the count of a record. -/
def Group.addCount (g : Group) (i : Nat) (n : Int) : Group := { g with counts := mapSet g.counts i (g.count i + n) }

/-- R of a core for a group (R372). -/
def Core.readiness (c : Core) (g : Nat) : Nat := (mapGet c.ready g).getD 0

/-- Set R of a core for a group. -/
def Core.setReadiness (c : Core) (g n : Nat) : Core := { c with ready := mapSet c.ready g n }

/-! ### Descriptors -/

/-- Bits [hi:lo] of bytes. -/
def bitsOf (v hi lo : Nat) : Nat := v / 2 ^ lo % 2 ^ (hi + 1 - lo)

/-- A group descriptor of a function, installed from a device; none where it breaks R370. -/
def State.parseGroup (s : State) (fn dev : Nat) (bs : List Byte) : Option Group :=
  let h := numAt bs 0 64
  let n := bitsOf h 7 0
  let recs := (List.range n).map fun i => numAt bs (64 + 8 * i) 8
  let dev' := recs.map fun r => bitsOf r 13 8
  let tile := recs.map fun r => bitsOf r 7 0
  let parent := recs.map fun r => bitsOf r 21 16
  let places := dev'.zip tile
  let bad := h / 2 ^ 32 ≠ 0 || bitsOf h 15 8 ≠ 0 || n = 0 || n > 64 ||
    recs.any (fun r => r / 2 ^ 23 ≠ 0 || bitsOf r 15 14 ≠ 0) ||
    (parent.zipIdx.any fun p => if p.2 = 0 then p.1 ≠ 0 else p.1 ≥ p.2) ||
    places.eraseDups.length ≠ n || places.any fun p => !s.node.contains p.1 || !s.ownsTile p.1 fn p.2
  if bad then none
  else
    let limit := bitsOf h 31 16
    some { plimit := if limit = 0 then 1000 else limit, devs := (dev :: dev').eraseDups, dev := dev', tile := tile
           parent := parent, member := recs.map fun r => r.testBit 22, struck := [], root := 0, counts := [], parked := []
           restarts := [] }

/-- A step u of an expert set is finite and not below 0 (R387). -/
def goodStep (w : Word) : Bool :=
  match decodeVal fFP32 w.toNat with
  | .fin false _ _ => true
  | .zero _ => true
  | _ => false

/-- An expert set descriptor; none where it breaks R387. -/
def parseSet (bs : List Byte) : Option ExpertSet :=
  let h := numAt bs 0 64
  let g := bitsOf h 7 0
  let e := bitsOf h 11 8
  let kg := bitsOf h 15 12
  let ke := bitsOf h 19 16
  let gbase := bitsOf h 27 20
  let masks := (List.range 128).map fun i => BitVec.ofNat 16 (numAt bs (64 + 2 * i) 2)
  let x : ExpertSet :=
    { groups := g, experts := e, kg := kg, ke := ke, gbase := gbase, step := BitVec.ofNat 32 (bitsOf h 63 32)
      bias := bitsOf h 115 64, intake := bitsOf h 179 128, cap := bitsOf h 207 192, masks := masks }
  let bad := h / 2 ^ 208 ≠ 0 || bitsOf h 191 180 ≠ 0 || bitsOf h 127 116 ≠ 0 || bitsOf h 31 28 ≠ 0 ||
    g = 0 || g > 64 || e = 0 || e > 14 || kg = 0 || kg > 8 || ke = 0 || ke > 8 || ke > e || gbase + g > 256 ||
    x.cap = 0 || x.intake % 16 ≠ 0 || x.bias % 4 ≠ 0 || !goodStep x.step ||
    masks.any fun m => m.toNat ≥ 2 ^ e
  if bad then none else some x

/-- mask(g, d) of a set (R387). -/
def ExpertSet.mask (x : ExpertSet) (g d : Nat) : BitVec 16 := x.masks[2 * g + d]?.getD 0

/-! ### Checks (R380 to R383) -/

/-- The checks of R381 on n bytes at ea. -/
def payloadChecks (c : Core) (ea n : Nat) : List (Bool × BitVec 7) :=
  [(decide (ea % 64 ≠ 0), 0x05), (decide (ea + n > spLast + 1), 0x06), (c.user && decide (ea < supervisorArea), 0x03)]

/-! ### Sends -/

/-- The key of a send: its handle, with its function above. -/
def Send.key (x : Send) : Nat := x.handle + 2 ^ 64 * x.fn

/-- A send by its key. -/
def State.send (s : State) (k : Nat) : Option Send := s.sends.find? fun x => x.key = k

/-- Replace a send, keeping its place. -/
def State.setSend (s : State) (x : Send) : State := { s with sends := s.sends.map fun y => if y.key = x.key then x else y }

/-- A send leaves its sender's buffer (R374, R376). -/
def State.dropSend (s : State) (k : Nat) : State := { s with sends := s.sends.filter fun x => x.key ≠ k }

/-- The unacknowledged sends of a tile's core for a function. -/
def State.sendsOf (s : State) (t fn : Nat) : List Send := s.sends.filter fun x => x.sender = t && x.fn = fn

/-- Some send to the group is unacknowledged (R371). -/
def State.groupBusy (s : State) (fn g : Nat) : Bool := s.sends.any fun x => x.fn = fn && x.group = g

/-- A tile's core stands for the function and may act. -/
def State.present (s : State) (t fn : Nat) : Bool :=
  fnOf (s.coreOf t).fn = fn && s.mayRun (deviceOf t) fn && !(s.die (dieOf t)).lost

/-- An event reaches a function's core, wherever its tile is: a core that a save has taken away holds it at its restore
(DEDUCED, log entry 40). -/
def State.postHome (s : State) (fn t kind source data : Nat) : State :=
  if (mapGet s.away (homeKey fn t)).isSome then
    let c := s.homeCore fn t
    s.setHomeCore fn t (if c.events.length < 64 then { c with events := c.events ++ [eventRecord kind source data] }
      else { c with lost := true })
  else if fnOf (s.coreOf t).fn = fn then s.post t kind source data
  else s

/-- The readiness that a function's core on a tile holds for a group, wherever a save has taken the core. -/
def State.readinessOf (s : State) (fn num t : Nat) : Nat :=
  let c := s.homeCore fn t
  if fnOf c.fn = fn then c.readiness num else 0

/-- The group word of a waiting `gstat.load` or `gstat.drop`. -/
def Core.installWord (c : Core) : Option Nat :=
  match c.run with
  | .waiting (.install (.gstatA f)) => some (c.reg f.b).toNat
  | .waiting (.install (.gstatB f)) => some (imm16 false f.imm16).toNat
  | _ => none

/-- A core of the node tenant waits to install or remove the group, so that sends to it wait (R371). -/
def State.installing (s : State) (fn g : Nat) : Bool :=
  s.tiles.any fun t => fnOf t.2.core.fn = fn && t.2.core.installWord = some g

/-- The retransmit buffer's places (R376). -/
def retransmitDepth : Nat := 64

/-- A handle (R375). -/
def handleOf (expert ordered : Bool) (g t : Nat) (seq : BitVec 16) : Nat :=
  seq.toNat + t % 160 * 2 ^ 16 + t / 160 * 2 ^ 24 + g * 2 ^ 32 + (if ordered then 2 ^ 40 else 0) +
  (if expert then 2 ^ 41 else 0)

/-- What a send carries: group, payload. -/
abbrev Outgoing := Nat × List Byte

/-- The k sends leave with the sequences from the core's next (R375, R381). -/
def State.leave (set : Option Nat) (ordered ask : Bool) (batch : Nat) : State → List Outgoing → State
  | s, [] => s
  | s, (g, p) :: r =>
    let c := s.core
    let x : Send :=
      { handle := handleOf set.isSome ordered g s.cur c.sendSeq, sender := s.cur, fn := fnOf c.fn, group := g, set := set
        ordered := ordered, ask := ask, payload := p, state := .issued, tried := [], batch := batch }
    State.leave set ordered ask batch
      ({ s with sends := s.sends ++ [x] }.withCore { c with sendSeq := c.sendSeq + 1 }) r

/-- The end of a `gsend`: the core drains, the sends leave, g[d] takes the first sequence (R378, R381). -/
def sendAll (set : Option Nat) (ordered ask : Bool) (batch : Nat) (d : BitVec 5) (out : List Outgoing) (len : Nat)
    (s : State) : Out :=
  let q := s.core.sendSeq
  let s := State.leave set ordered ask batch (s.drainCore s.cur 4) out
  writeReg s d (q.setWidth 64) len

/-- The send waits: for the groups, or for room for k sends (R371, R381). -/
def sendWaits (s : State) (gs : List Nat) (k : Nat) : Bool :=
  let fn := fnOf s.core.fn
  gs.any (s.installing fn) || decide ((s.sendsOf s.cur fn).length + k > retransmitDepth)

/-- `gsend` and `gsendo` of a payload to the group of word x (R381). -/
def plainSend (i : Instr) (ordered : Bool) (a d : BitVec 5) (x : Nat) (len : Nat) (s : State) : Out :=
  let g := x % 256
  let fn := fnOf s.core.fn
  let ea := (s.core.reg a).toNat
  checksOpen s ([(decide (x / 2 ^ 9 ≠ 0), 0x10), ((s.groupOn (deviceOf s.cur) fn g).isNone, 0x10)] ++
      payloadChecks s.core ea 64) fun s =>
    if sendWaits s [g] 1 then wait s (.gsend i)
    else if s.loadAbsent ea 64 then wait s (.writeOnce i)
    else sendAll none ordered (x.testBit 8) 0 d [(g, s.readLocal ea 64)] len s

/-- `gsend`, form A (R381). -/
def execGsendA (f : FormA) (s : State) : Out :=
  guarded f.gn f.guard lenA s fun s => plainSend (.gsendA f) false f.a f.d (s.core.reg f.b).toNat lenA s
/-- `gsend`, form B. -/
def execGsendB (f : FormB) (s : State) : Out :=
  guarded f.gn f.guard lenB s fun s => plainSend (.gsendB f) false f.a f.d (imm16 false f.imm16).toNat lenB s
/-- `gsendo`, form A (R377, R381). -/
def execGsendoA (f : FormA) (s : State) : Out :=
  guarded f.gn f.guard lenA s fun s => plainSend (.gsendoA f) true f.a f.d (s.core.reg f.b).toNat lenA s
/-- `gsendo`, form B. -/
def execGsendoB (f : FormB) (s : State) : Out :=
  guarded f.gn f.guard lenB s fun s => plainSend (.gsendoB f) true f.a f.d (imm16 false f.imm16).toNat lenB s

/-! ### Expert selection (R388) -/

/-- The order of R388: by value, −0 below +0, a NaN below every number. -/
def scoreLess (a b : Word) : Bool :=
  let x := decodeVal fFP32 a.toNat
  let y := decodeVal fFP32 b.toNat
  if x.isNan then !y.isNan else if y.isNan then false else valLess true x y

/-- The greatest score. -/
def bestScore : List Word → Word
  | [] => 0
  | a :: r => r.foldl (fun m v => if scoreLess m v then v else m) a

/-- The k places of greatest score, the lower place first on a tie, in rank order. -/
def bestPlaces : Nat → List (Nat × Word) → List Nat
  | 0, _ => []
  | k + 1, vs => match vs with
    | [] => []
    | v :: r =>
      let b := r.foldl (fun (m : Nat × Word) x => if scoreLess m.2 x.2 then x else m) v
      b.1 :: bestPlaces k (vs.filter fun x => x.1 ≠ b.1)

/-- The bias copy of a core (R388). -/
def Core.bias (c : Core) (set : Nat) : List Word := (c.expert set).bias

/-- Scores with their biases, and the flags of the additions. -/
def biasedScores (scores bias : List Word) : List Word × BitVec 5 :=
  let rs := scores.zipIdx.map fun v =>
    add32 rmRNE false 1 (decodeVal fFP32 v.1.toNat) (decodeVal fFP32 (bias[v.2]?.getD 0).toNat)
  (rs.map fun r => BitVec.ofNat 32 r.bits, rs.foldl (fun f r => f ||| r.flags) flNone)

/-- Row g of the scores. -/
def scoreRow (x : ExpertSet) (v : List Word) (g : Nat) : List Word := (v.drop (g * x.experts)).take x.experts

/-- The groups chosen, in rank order. -/
def chooseGroups (x : ExpertSet) (v : List Word) : List Nat :=
  bestPlaces (min x.kg x.groups) ((List.range x.groups).map fun g => (g, bestScore (scoreRow x v g)))

/-- Words of bytes. -/
def wordsAt (bs : List Byte) (off n : Nat) : List Word := (List.range n).map fun i => BitVec.ofNat 32 (numAt bs (off + 4 * i) 4)

/-- The payload of an expert send: tag, the group's scores, zeros. -/
def expertPayload (tag : List Byte) (row : List Word) : List Byte := padTo 64 (tag ++ row.flatMap fun w => toBytes w.toNat 4)

/-- The groups of a set. -/
def ExpertSet.sendGroups (x : ExpertSet) : List Nat := (List.range x.groups).map (x.gbase + ·)

/-- A set that is installed on a device. -/
def State.expertSet (s : State) (dev fn set : Nat) : Option ExpertSet := mapGet s.experts (expertKey dev fn set)

/-- `gsend.x` of the scores at g[a] to the set of word x (R381, R388). -/
def expertSend (i : Instr) (a d : BitVec 5) (x : Nat) (len : Nat) (s : State) : Out :=
  let fn := fnOf s.core.fn
  let dev := deviceOf s.cur
  let set := x % 16
  let ea := (s.core.reg a).toNat
  if x / 2 ^ 9 ≠ 0 || x / 2 ^ 4 % 16 ≠ 0 then raiseOpen s 0x10
  else match s.expertSet dev fn set with
    | none => raiseOpen s 0x10
    | some e =>
      let n := 8 + 4 * e.groups * e.experts
      checksOpen s ([(e.sendGroups.any fun g => (s.groupOn dev fn g).isNone, 0x10)] ++ payloadChecks s.core ea n) fun s =>
        if sendWaits s e.sendGroups (min e.kg e.groups) then wait s (.gsend i)
        else if s.loadAbsent ea n then wait s (.writeOnce i)
        else
          let bs := s.readLocal ea n
          let c := s.core
          let (v, flags) := biasedScores (wordsAt bs 8 (e.groups * e.experts)) (c.bias set)
          let out := (chooseGroups e v).map fun g => (e.gbase + g, expertPayload (bs.take 8) (scoreRow e v g))
          sendAll (some set) false (x.testBit 8) (c.expert set).batch d out len (s.withCore { c with flags := c.flags ||| flags })

/-- `gsend.x`, form A (R381). -/
def execGsendXA (f : FormA) (s : State) : Out :=
  guarded f.gn f.guard lenA s fun s => expertSend (.gsendXA f) f.a f.d (s.core.reg f.b).toNat lenA s
/-- `gsend.x`, form B. -/
def execGsendXB (f : FormB) (s : State) : Out :=
  guarded f.gn f.guard lenB s fun s => expertSend (.gsendXB f) f.a f.d (imm16 false f.imm16).toNat lenB s

/-- A send that waited goes on from its checks: nothing changed while it waited (R381). -/
def execGsendResume (t : Nat) (s : State) : Out :=
  match s.waitOf t with
  | some (.gsend i) =>
    let r := s.rerun t
    match i with
    | .gsendA f => execGsendA f r
    | .gsendB f => execGsendB f r
    | .gsendXA f => execGsendXA f r
    | .gsendXB f => execGsendXB f r
    | .gsendoA f => execGsendoA f r
    | .gsendoB f => execGsendoB f r
    | _ => .next s
  | _ => .next s

/-! ### Receiving (R378, R382) -/

/-- `grecv` of word x (R382). -/
def receive (a d : BitVec 5) (x : Nat) (len : Nat) (s : State) : Out :=
  let c := s.core
  let ea := (c.reg a).toNat
  let any := x.testBit 8
  checksOpen s ([(decide (x / 2 ^ 9 ≠ 0), 0x10), (!any && (s.groupOn (deviceOf s.cur) (fnOf c.fn) (x % 256)).isNone, 0x10)] ++
      payloadChecks c ea 64) fun s =>
    match c.received.find? fun m => any || m.group = x % 256 with
    | none => writeReg s d (-1) len
    | some m =>
      let s := s.storeLocal ea m.payload
      let c := s.core
      let s := s.withCore { c with received := c.received.erase m, toAck := m.handle :: c.toAck }
      writeReg (s.refreshCore s.cur 4) d (BitVec.ofNat 64 m.handle) len

/-- `grecv`, form A (R382). -/
def execGrecvA (f : FormA) (s : State) : Out :=
  guarded f.gn f.guard lenA s fun s => receive f.a f.d (s.core.reg f.b).toNat lenA s
/-- `grecv`, form B. -/
def execGrecvB (f : FormB) (s : State) : Out :=
  guarded f.gn f.guard lenB s fun s => receive f.a f.d (imm16 false f.imm16).toNat lenB s

/-! ### Readiness (R372, R383) -/

/-- S of R372: readiness over all groups, and messages in the queue. -/
def Core.committed (c : Core) : Nat := c.ready.foldl (fun n r => n + r.2) c.received.length

/-- A count or the root's own readiness has risen at the root: the sends that stand parked there are to restart, behind those that a
strike has brought there (R373). -/
def Group.rise (g : Group) : Group := { g with restarts := g.restarts ++ g.parked.filter fun k => !g.restarts.contains k }

/-- A change of a member's readiness starts toward the root; at the root itself a rise restarts parked sends (R373). -/
def State.tellReady (s : State) (key m : Nat) (g : Group) (n : Int) : State :=
  if n = 0 then s
  else if m = g.root then (if n > 0 then s.setGroup key g.rise else s)
  else { s with readyMsgs := mapSet s.readyMsgs s.nextMsg { group := key, member := m, node := m, amount := n }
                nextMsg := s.nextMsg + 1 }

/-- `gready` and `gunready` of word x (R383). -/
def changeReady (more : Bool) (a d : BitVec 5) (x : Nat) (len : Nat) (s : State) : Out :=
  let c := s.core
  let fn := fnOf c.fn
  let n := (c.reg a).toNat
  checksOpen s [(decide (x / 2 ^ 8 ≠ 0), 0x10), (decide (n ≥ 2 ^ 32), 0x10)] fun s =>
    match s.groupOn (deviceOf s.cur) fn x with
    | none => raiseOpen s 0x10
    | some g => match g.memberOf s.cur with
      | none => raiseOpen s 0x03
      | some m =>
        let r := c.readiness x
        let k := if more then min n (64 - c.committed) else min n r
        let s := s.withCore (c.setReadiness x (if more then r + k else r - k))
        writeReg (s.tellReady (groupKey fn x) m g (if more then (k : Int) else -(k : Int))) d (BitVec.ofNat 64 k) len

/-- `gready`, form A (R383). -/
def execGreadyA (f : FormA) (s : State) : Out :=
  guarded f.gn f.guard lenA s fun s => changeReady true f.a f.d (s.core.reg f.b).toNat lenA s
/-- `gready`, form B. -/
def execGreadyB (f : FormB) (s : State) : Out :=
  guarded f.gn f.guard lenB s fun s => changeReady true f.a f.d (imm16 false f.imm16).toNat lenB s
/-- `gunready`, form A (R383). -/
def execGunreadyA (f : FormA) (s : State) : Out :=
  guarded f.gn f.guard lenA s fun s => changeReady false f.a f.d (s.core.reg f.b).toNat lenA s
/-- `gunready`, form B. -/
def execGunreadyB (f : FormB) (s : State) : Out :=
  guarded f.gn f.guard lenB s fun s => changeReady false f.a f.d (imm16 false f.imm16).toNat lenB s

/-- An earlier change of the same member still stands where this one does: changes of a member arrive in order (R372). -/
def State.readyBehind (s : State) (n : Nat) (m : ReadyMsg) : Bool :=
  s.readyMsgs.any fun x => x.1 < n && x.2.group = m.group && x.2.member = m.member && x.2.node = m.node

/-- A readiness change arrives at the parent of a record and changes its count (R372); at the root a rise restarts parked
sends (R373). -/
def execReadinessArrive (n : Nat) (s : State) : Out :=
  match mapGet s.readyMsgs n with
  | none => .next s
  | some m => match mapGet s.groups m.group with
    | none => .next { s with readyMsgs := mapErase s.readyMsgs n }
    | some g =>
      if s.readyBehind n m then .next s
      else
        let p := g.up m.node
        let g := g.addCount m.node m.amount
        if p = g.root then
          .next ({ s with readyMsgs := mapErase s.readyMsgs n }.setGroup m.group (if m.amount > 0 then g.rise else g))
        else .next ({ s with readyMsgs := mapSet s.readyMsgs n { m with node := p } }.setGroup m.group g)

/-! ### Acknowledging (R376, R384) -/

/-- A notice to a sender. -/
def State.notify (s : State) (n : Notice) : State :=
  { s with notices := mapSet s.notices s.nextMsg n, nextMsg := s.nextMsg + 1 }

/-- A send stands TAKEN by a member on the device (R376). -/
def State.takenOn (s : State) (x : Send) (dev : Nat) : Bool :=
  match x.state, mapGet s.groups (groupKey x.fn x.group) with
  | .taken m, some g => g.stands m && g.dev[m]? = some dev
  | _, _ => false

/-- `gack` (R384): the core drains before the acknowledgement leaves (R378). -/
def execGack (f : FormA) (s : State) : Out :=
  guarded f.gn f.guard lenA s fun s =>
    let c := s.core
    let h := (c.reg f.a).toNat
    let fn := fnOf c.fn
    match s.sends.find? fun x => x.handle = h && x.fn = fn with
    | none => raiseOpen s 0x10
    | some x =>
      if (if x.set.isSome then s.takenOn x (deviceOf s.cur) else c.toAck.contains h) then
        let s := s.drainCore s.cur 4
        finish (s.notify { send := x.key, ack := true, tile := s.cur, sender := x.sender, set := x.set, batch := x.batch
                           index := 0, chosen := 0 }) lenA
      else raiseOpen s 0x10

/-- An acknowledgement counts when its send is TAKEN at that moment, and it comes from the taker's core or, for an expert
send, from its device (R376). -/
def State.ackCounts (s : State) (x : Send) (t : Nat) : Bool :=
  match x.state, mapGet s.groups (groupKey x.fn x.group) with
  | .taken m, some g => g.stands m && (if x.set.isSome then g.dev[m]? = some (deviceOf t) else g.place m = t)
  | _, _ => false

/-- An acknowledgement arrives at the sender (R376): the send leaves its buffer, and GACKED is posted where it was asked
for (R386); another is discarded. -/
def execAckArrive (n : Nat) (s : State) : Out :=
  match mapGet s.notices n with
  | none => .next s
  | some m =>
    if !m.ack then .next s
    else
      let gone : State := { s with notices := mapErase s.notices n }
      match s.send m.send with
      | none => .next gone
      | some x =>
        if !s.present x.sender x.fn then .next s
        else if !s.ackCounts x m.tile then .next gone
        else
          let c := gone.homeCore x.fn m.tile
          let s := (gone.setHomeCore x.fn m.tile { c with toAck := c.toAck.filter (· ≠ x.handle) }).dropSend x.key
          let taker := match x.state, mapGet s.groups (groupKey x.fn x.group) with
            | .taken k, some g => g.place k
            | _, _ => m.tile
          .next (if x.ask then s.postHome x.fn x.sender 0x51 (taker % 160) (x.handle % 2 ^ 16 + x.group * 2 ^ 16) else s)

/-! ### Steering (R373, R389) -/

/-- T of a send at a record. -/
def Send.triedAt (x : Send) (i : Nat) : List Nat := (mapGet x.tried i).getD []

/-- A send comes down to a record: its T there is empty. -/
def Send.comeTo (x : Send) (i : Nat) : Send := { x with state := .at i, tried := mapSet x.tried i [] }

/-- A send that no path can carry leaves its buffer, and its sender takes 0x50 (R355), wherever a save has taken it. -/
def State.sendLost (s : State) (x : Send) : State := (s.dropSend x.key).impreciseTo x.fn x.sender 0x50 x.handle

/-- A send at the root of its tree (R373): an ordered one waits for those before it. -/
def execSendAtRoot (k : Nat) (s : State) : Out :=
  match s.send k with
  | none => .next s
  | some x => match x.state, mapGet s.groups (groupKey x.fn x.group) with
    | .issued, some g =>
      if s.noPath (deviceOf x.sender) (deviceOf (g.place g.root)) then .next (s.sendLost x)
      else .next (s.setSend (if x.ordered then { x with state := .orderWait } else x.comeTo g.root))
    | _, _ => .next s

/-- An earlier ordered send of its sender to its group is still in the buffer (R377). -/
def State.heldBack (s : State) (x : Send) : Bool :=
  (s.sends.takeWhile fun y => y.key ≠ x.key).any fun y => y.ordered && y.sender = x.sender && y.fn = x.fn && y.group = x.group

/-- An ordered send goes on once every earlier ordered one of its sender to the group has left the buffer (R377). -/
def execOrderwaitRelease (k : Nat) (s : State) : Out :=
  match s.send k with
  | none => .next s
  | some x => match x.state, mapGet s.groups (groupKey x.fn x.group) with
    | .orderWait, some g => .next (if s.heldBack x then s else s.setSend (x.comeTo g.root))
    | _, _ => .next s

/-- The experts chosen from scores under a mask (R389). -/
def chooseExperts (ke : Nat) (mask : BitVec 16) (row : List Word) : List Nat :=
  bestPlaces ke ((row.zipIdx.filter fun v => mask.getLsbD v.2).map fun v => (v.2, v.1))

/-- Walks of the ingress for the areas of the experts chosen: the count's address and, below the cap, the entry's. -/
def State.intakePlaces (t fn : Nat) (x : ExpertSet) (index : Nat) : List Nat → State → List (Nat × Option Nat) →
    VaResult (List (Nat × Option Nat))
  | [], s, acc => .ok s acc.reverse
  | j :: r, s, acc =>
    let age := ingressAgeNo t
    let area := x.intake + 16 * (x.cap + 1) * (index * x.experts + j)
    match s.translate (dieOf t) fn t (s.age age) area 1 with
    | .fault s g f => .fault (s.setAge age g) area f
    | .wait => .wait
    | .ok s g pa _ =>
      let s := s.setAge age g
      let n := s.mem.num pa 4
      if n < x.cap then
        match s.translate (dieOf t) fn t (s.age age) (area + 16 * (n + 1)) 1 with
        | .fault s g f => .fault (s.setAge age g) (area + 16 * (n + 1)) f
        | .wait => .wait
        | .ok s g e _ => State.intakePlaces t fn x index r (s.setAge age g) ((pa, some e) :: acc)
      else State.intakePlaces t fn x index r s ((pa, none) :: acc)

/-- One expert's entry goes into its area, or sets overflow (R389). -/
def State.intakeWrite (s : State) (tag : List Byte) (handle : Nat) (p : Nat × Option Nat) : State :=
  let v := s.mem.num p.1 8
  match p.2 with
  | some e => (s.writeM e (tag ++ toBytes handle 8)).writeM p.1 (toBytes (v + 1) 8)
  | none => s.writeM p.1 (toBytes (v % 2 ^ 63 + 2 ^ 63) 8)

/-- What a member that a send has come to does with it. -/
inductive Take where
  /-- the member takes it -/
  | taken (s : State) (chosen : BitVec 14)
  /-- it does not, as with readiness 0 -/
  | passed (s : State)
  /-- it has readiness, and takes the send once its core runs again -/
  | later

/-- The member of a record with readiness takes a plain send into its queue (R375); an expert send goes into its intake
areas (R389). -/
def State.tryTake (s : State) (g : Group) (i : Nat) (x : Send) : Take :=
  let t := g.place i
  if !g.isMember i || s.readinessOf x.fn x.group t = 0 then .passed s
  else if !s.present t x.fn || (mapGet s.away (homeKey x.fn t)).isSome then .later
  else match x.set with
    | none =>
      let c := s.coreOf t
      .taken (s.setCore t { c with
        received := c.received ++ [{ handle := x.handle, group := x.group, payload := x.payload }] }) 0
    | some set => match s.expertSet (deviceOf t) x.fn set with
      | none => .passed s
      | some e =>
        let index := x.group - e.gbase
        let mask := e.mask index (dieOf t % 2)
        if mask = 0 || (s.age (ingressAgeNo t)).stopped.isSome then .passed s
        else
          let js := chooseExperts e.ke mask (wordsAt x.payload 8 e.experts)
          match State.intakePlaces t x.fn e index js s [] with
          | .wait => .later
          | .fault s va f =>
            let r := ageRecord { (default : FaultFields) with
              cause := f.cause, tile := t, kind := 7, access := 1, level := f.level, fn := x.fn, va := va, pte := f.pte }
            let age := ingressAgeNo t
            .passed ((s.setAge age { s.age age with stopped := some r }).postFault (dieOf t) x.fn t r)
          | .ok s ps =>
            .taken (ps.foldl (fun s p => s.intakeWrite (x.payload.take 8) x.handle p) s)
              (js.foldl (fun (m : BitVec 14) j => m ||| (1#14 <<< j)) 0)

/-- The child that a send goes down to: of largest count above 0, the lower record on a tie, not tried (R373). -/
def Group.choose (g : Group) (i : Nat) (tried : List Nat) : Option Nat :=
  ((g.children i).filter fun c => !tried.contains c && g.count c > 0).foldl (fun (best : Option Nat) c => match best with
    | none => some c
    | some b => if g.count b < g.count c then some c else some b) none

/-- µs of a device. -/
def State.microsOf (s : State) (dev : Nat) : Nat := (s.device dev).micros

/-- One move of a send that stands at a record (R373). -/
def State.steer (s : State) (x : Send) (g : Group) (i : Nat) : State :=
  let key := groupKey x.fn x.group
  match s.tryTake g i x with
  | .later => s
  | .taken s chosen =>
    let t := g.place i
    let c := s.coreOf t
    let s := s.setCore t (c.setReadiness x.group (c.readiness x.group - 1))
    let s := s.setSend { x with state := .taken i }
    let s := s.post t 0x50 (x.sender % 160) (x.handle % 2 ^ 16 + x.group * 2 ^ 16 + chosen.toNat * 2 ^ 24)
    let index := match x.set.bind (s.expertSet (deviceOf t) x.fn) with
      | some e => x.group - e.gbase
      | none => 0
    s.notify { send := x.key, ack := false, tile := t, sender := x.sender, set := x.set, batch := x.batch, index := index
               chosen := chosen }
  | .passed s => match g.choose i (x.triedAt i) with
    | some c =>
      if s.noPath (deviceOf (g.place i)) (deviceOf (g.place c)) then s.sendLost x
      else (s.setGroup key (g.addCount c (-1))).setSend (x.comeTo c)
    | none =>
      if i ≠ g.root then
        let p := g.up i
        if s.noPath (deviceOf (g.place i)) (deviceOf (g.place p)) then s.sendLost x else
        let g := g.addCount i 1
        let g := if p = g.root then g.rise else g
        (s.setGroup key g).setSend { x with state := .at p, tried := mapSet x.tried p (i :: x.triedAt p) }
      else
        (s.setGroup key { g with parked := g.parked ++ [x.key] }).setSend
          { x with state := .parked (s.microsOf (g.dev[g.root]?.getD 0)) }

/-- A send at a record is taken, goes down, bounces or parks (R373). One that a strike has brought to the root restarts in its turn,
by `execParkedRestart`. -/
def execSendSteer (k : Nat) (s : State) : Out :=
  match s.send k with
  | none => .next s
  | some x => match x.state, mapGet s.groups (groupKey x.fn x.group) with
    | .at i, some g => .next (if g.restarts.contains k then s else s.steer x g i)
    | _, _ => .next s

/-- A send restarts at the root and is steered at once; an ordered one that a strike has brought there goes back to ORDERWAIT while
an earlier one of its sender holds it back (R377, R379). -/
def State.restart (s : State) (key k : Nat) : State :=
  match s.send k, mapGet s.groups key with
  | some x, some g =>
    if x.ordered && s.heldBack x then s.setSend { x with state := .orderWait, tried := [] }
    else
      let x := { x with tried := [] }.comeTo g.root
      (s.setSend x).steer x g g.root
  | _, _ => s

/-- Parked sends restart, oldest first, after a rise at the root, and after a strike the sends that it has brought there, in the order
of their issue (R373, R379) (DEDUCED, log entry 40). -/
def execParkedRestart (key : Nat) (s : State) : Out :=
  match mapGet s.groups key with
  | none => .next s
  | some g =>
    let left := g.parked.filter fun k => !g.restarts.contains k
    .next (g.restarts.foldl (fun s k => s.restart key k) (s.setGroup key { g with parked := left, restarts := [] }))

/-- A send parked for plimit is removed, and its sender takes 0x52 (R374). -/
def execGroupParkTimeout (k : Nat) (s : State) : Out :=
  match s.send k with
  | none => .next s
  | some x =>
    let key := groupKey x.fn x.group
    match x.state, mapGet s.groups key with
    | .parked since, some g =>
      if since + g.plimit ≤ s.microsOf (g.dev[g.root]?.getD 0) && s.present x.sender x.fn && !g.restarts.contains k then
        let s := s.setGroup key { g with parked := g.parked.filter (· ≠ k) }
        .next ((s.dropSend k).impreciseTo x.fn x.sender 0x52 x.handle)
      else .next s
    | _, _ => .next s

/-! ### The bias unit (R390) -/

/-- A taken notice arrives at its sender's core, which counts the experts that it names (R390). -/
def execTakenNotice (n : Nat) (s : State) : Out :=
  match mapGet s.notices n with
  | none => .next s
  | some m =>
    let fn := m.send / 2 ^ 64
    if m.ack || !s.present m.sender fn then .next s
    else
      let s : State := { s with notices := mapErase s.notices n }
      let c := s.homeCore fn m.sender
      match m.set with
      | none => .next s
      | some set => match s.expertSet (deviceOf m.sender) fn set with
        | none => .next s
        | some x =>
          let e := c.expert set
          let counts := (List.range 14).foldl (fun k j =>
            if m.chosen.getLsbD j then
              let i := m.index * x.experts + j
              mapSet k i ((mapGet k i).getD 0 + 1)
            else k) e.counts
          .next (s.setHomeCore fn m.sender (c.setExpert set { e with counts := counts }))

/-- Every send of a micro-batch has been taken or removed, and its notices have come (R390). -/
def State.batchOver (s : State) (t fn set batch : Nat) : Bool :=
  (s.sends.all fun x => !(x.sender = t && x.fn = fn && x.set = some set && x.batch = batch) || (match x.state with
    | .taken _ => true
    | _ => false)) &&
  s.notices.all fun n => n.2.ack || !(n.2.sender = t && n.2.send / 2 ^ 64 = fn && n.2.set = some set && n.2.batch = batch)

/-- The new value of a bias (R390). -/
def stepBias (x : ExpertSet) (total count : Nat) (b : Word) : Word :=
  let n := count * x.groups * x.experts
  let v := decodeVal fFP32 b.toNat
  let u := decodeVal fFP32 x.step.toNat
  if n < total then BitVec.ofNat 32 (add32 rmRNE false 1 v u).bits
  else if n > total then BitVec.ofNat 32 (add32 rmRNE false 1 v u.negate).bits
  else b

/-- A free copy engine of a die for the bias unit, or the one that it has stopped. -/
def State.biasEngine (s : State) (gdie : Nat) (e : ExpertCore) : Option Nat :=
  match e.stopped with
  | some n => some n
  | none => (List.range 8).find? fun n =>
    (mapGet (s.die gdie).engines n).isNone && (s.age (copyAge gdie n)).stopped.isNone

/-- The bias unit's step for the oldest closed micro-batch (R390): every bias is written in one step through a copy engine's
address generator, which a failing walk stops (R209). -/
def execBiased (t set : Nat) (s : State) : Out :=
  let c := s.coreOf t
  let fn := fnOf c.fn
  let d := dieOf t
  match mapGet c.experts set, s.expertSet (deviceOf t) fn set with
  | some e, some x => match e.closed, s.biasEngine d e with
    | b :: r, some n =>
      let age := copyAge d n
      if !s.present t fn || !s.batchOver t fn set b || (s.age age).stopped.isSome then .next s
      else
        let put (s : State) (y : ExpertCore) : State := s.setCore t ((s.coreOf t).setExpert set y)
        let k := x.groups * x.experts
        match State.reach age d fn t 1 (4 * k) s (x.bias : Int) with
        | .wait => .next s
        | .fault s va f =>
          let rec' := ageRecord { (default : FaultFields) with
            cause := f.cause, tile := t, unit := n, kind := 3, access := 1, level := f.level, fn := fn, va := va, pte := f.pte }
          .next ((put (s.setAge age { s.age age with stopped := some rec' }) { e with stopped := some n }).postFault d fn t rec')
        | .ok s pas =>
          let old (i : Nat) : Word := BitVec.ofNat 32 (s.numOf ((pas.drop (4 * i)).take 4))
          let count (i : Nat) : Nat := (mapGet e.counts i).getD 0
          let total := (List.range k).foldl (fun n i => n + count i) 0
          let new := (List.range k).flatMap fun i => toBytes (stepBias x total (count i) (old i)).toNat 4
          let s := s.writeCells (pas.zip new)
          let s := put s { e with closed := r, stopped := none, counts := [] }
          .next (s.post t 0x52 set (b % 2 ^ 32))
    | _, _ => .next s
  | _, _ => .next s

/-! ### `gstat` (R371, R385) and `xmask` (R391) -/

/-- Every member's readiness for a group becomes 0, or, where the group goes, leaves its core, wherever a save has taken it
(R371). -/
def State.clearReadiness (s : State) (g : Group) (fn num : Nat) (keep : Bool) : State :=
  (List.range g.tile.length).foldl (fun s i =>
    let t := g.place i
    let c := s.homeCore fn t
    if g.member[i]?.getD false && fnOf c.fn = fn then
      s.setHomeCore fn t (if keep then c.setReadiness num 0 else { c with ready := mapErase c.ready num })
    else s) s

/-- A group is installed or removed, with every count and readiness at 0 (R371). -/
def State.installGroup (s : State) (fn num : Nat) (g : Option Group) : State :=
  let key := groupKey fn num
  let s := match mapGet s.groups key with
    | some old => s.clearReadiness old fn num false
    | none => s
  let s : State := { s with readyMsgs := s.readyMsgs.filter fun m => m.2.group ≠ key }
  match g with
  | some g => (s.clearReadiness g fn num true).setGroup key g
  | none => { s with groups := mapErase s.groups key }

/-- The tiles of a device on which a function's cores stand, or stood when a save took them away. -/
def State.homesOf (s : State) (dev fn : Nat) : List Nat :=
  let away := (s.away.filter fun a => a.1 % 32 = fn && deviceOf (a.1 / 32) = dev).map fun a => a.1 / 32
  (s.tilesOf dev fn ++ away).eraseDups.filter fun t => fnOf (s.homeCore fn t).fn = fn

/-- A function's cores on a device change, wherever a save has taken them. -/
def State.mapHomes (s : State) (dev fn : Nat) (f : Core → Core) : State :=
  (s.homesOf dev fn).foldl (fun s t => s.setHomeCore fn t (f (s.homeCore fn t))) s

/-- An expert set is installed on the issuing device, and its cores' copies are the biases as read (R387, R388) (DEDUCED, log
entry 40). Where a word of the array does not translate the trap takes its VA, and on a page under move the instruction
waits (R323). -/
def installSet (set : Nat) (x : ExpertSet) (len : Nat) (s : State) : Out :=
  let fn := fnOf s.core.fn
  let dev := deviceOf s.cur
  match s.readBias s.cur x with
  | .fault s va f => raise s f.cause (BitVec.ofNat 64 va)
  | .wait => .next s
  | .ok s ws =>
    let e : ExpertCore := { bias := ws, batch := 0, closed := [], counts := [], stopped := none }
    let s := s.mapHomes dev fn fun c => c.setExpert set e
    finish { s with experts := mapSet s.experts (expertKey dev fn set) x } len

/-- `gstat.load` of word x from g[a] (R371, R385). -/
def groupLoad (i : Instr) (a : BitVec 5) (x : Nat) (len : Nat) (s : State) : Out :=
  let c := s.core
  let ea := (c.reg a).toNat
  let fn := fnOf c.fn
  if x.testBit 8 then
    checksOpen s ([(decide (x / 2 ^ 9 ≠ 0 || x / 2 ^ 4 % 16 ≠ 0), 0x10)] ++ payloadChecks c ea 320) fun s =>
      if s.loadAbsent ea 320 then wait s (.writeOnce i)
      else match parseSet (s.readLocal ea 320) with
        | none => raiseOpen s 0x10
        | some e => installSet (x % 16) e len s
  else
    checksOpen s ([(decide (x / 2 ^ 8 ≠ 0), 0x10)] ++ payloadChecks c ea 64) fun s =>
      if s.loadAbsent ea 1 then wait s (.writeOnce i)
      else
        let n := 64 + 8 * s.loadLocal ea 1
        checksOpen s (payloadChecks c ea n) fun s =>
          if s.loadAbsent ea n then wait s (.writeOnce i)
          else match s.parseGroup fn (deviceOf s.cur) (s.readLocal ea n) with
            | none => raiseOpen s 0x10
            | some g => if s.groupBusy fn x then wait s (.install i) else finish (s.installGroup fn x (some g)) len

/-- `gstat.drop` of word x (R371, R385). -/
def groupDrop (i : Instr) (x : Nat) (len : Nat) (s : State) : Out :=
  let fn := fnOf s.core.fn
  let dev := deviceOf s.cur
  if x.testBit 8 then
    if x / 2 ^ 9 ≠ 0 || x / 2 ^ 4 % 16 ≠ 0 || (s.expertSet dev fn (x % 16)).isNone then raiseOpen s 0x10
    else
      let s := s.mapHomes dev fn fun c => { c with experts := mapErase c.experts (x % 16) }
      finish { s with experts := mapErase s.experts (expertKey dev fn (x % 16)) } len
  else if x / 2 ^ 8 ≠ 0 || (s.groupOn dev fn x).isNone then raiseOpen s 0x10
  else if s.groupBusy fn x then wait s (.install i)
  else finish (s.installGroup fn x none) len

/-- `gstat.mb` (R390): the micro-batch closes with the expert sends issued before it. -/
def closeBatch (d : BitVec 5) (x : Nat) (len : Nat) (s : State) : Out :=
  let c := s.core
  if x / 2 ^ 4 ≠ 0 || (s.expertSet (deviceOf s.cur) (fnOf c.fn) x).isNone then raiseOpen s 0x10
  else
    let e := c.expert x
    writeReg (s.withCore (c.setExpert x { e with batch := e.batch + 1, closed := e.closed ++ [e.batch] })) d (BitVec.ofNat 64 e.batch) len

/-- The reads of `gstat` (R385): readiness, messages, sends unacknowledged, sends parked. -/
def State.groupStat (s : State) (op g : Nat) (x : Group) : Nat :=
  let c := s.core
  match op with
  | 0 => if (x.memberOf s.cur).isSome then c.readiness g else 0
  | 1 => (c.received.filter fun m => m.group = g).length
  | 2 => ((s.sendsOf s.cur (fnOf c.fn)).filter fun y => y.group = g).length
  | _ => x.parked.length

/-- `gstat` by its operation (R385). -/
def groupState (i : Instr) (op : Nat) (a d : BitVec 5) (x : Nat) (len : Nat) (s : State) : Out :=
  match op with
  | 4 => groupLoad i a x len s
  | 5 => groupDrop i x len s
  | 6 => closeBatch d x len s
  | _ =>
    if x / 2 ^ 8 ≠ 0 then raiseOpen s 0x10
    else match s.groupOn (deviceOf s.cur) (fnOf s.core.fn) x with
      | none => raiseOpen s 0x10
      | some g =>
        let v := BitVec.ofNat 64 (s.groupStat op x g)
        writeReg (if op = 2 then s.refreshCore s.cur 4 else s) d v len

/-- `.load` and `.drop` are privileged (R385). -/
def statPrivileged (sub : BitVec 3) : Bool := sub = 4 || sub = 5

/-- `gstat`, form A (R385). -/
def execGstatA (f : FormA) (s : State) : Out :=
  let go (s : State) : Out := guarded f.gn f.guard lenA s fun s =>
    groupState (.gstatA f) f.sub.toNat f.a f.d (s.core.reg f.b).toNat lenA s
  if statPrivileged f.sub then privileged (packA 0x96 f) s go else go s
/-- `gstat`, form B. -/
def execGstatB (f : FormB) (s : State) : Out :=
  let go (s : State) : Out := guarded f.gn f.guard lenB s fun s =>
    groupState (.gstatB f) f.sub.toNat f.a f.d (imm16 false f.imm16).toNat lenB s
  if statPrivileged f.sub then privileged ((packB 0x96 f).headD 0) s go else go s

/-- A waiting `gstat.load` or `gstat.drop` goes on from its checks (R371). -/
def execGroupInstall (t : Nat) (s : State) : Out :=
  match s.waitOf t with
  | some (.install i) =>
    let r := s.rerun t
    match i with
    | .gstatA f => execGstatA f r
    | .gstatB f => execGstatB f r
    | _ => .next s
  | _ => .next s

/-- The bits of a list of places. -/
def maskOf (is : List Nat) : Dword := BitVec.ofNat 64 (is.foldl (fun n i => n ||| 2 ^ i) 0)

/-- `xmask` (R391). -/
def execXmask (f : FormA) (s : State) : Out :=
  guarded f.gn f.guard lenA s fun s =>
    let c := s.core
    let x := (c.reg f.a).toNat
    let fn := fnOf c.fn
    let dev := deviceOf s.cur
    if f.sub = 0 then
      if x / 2 ^ 8 ≠ 0 then raiseOpen s 0x10
      else match s.groupOn dev fn x with
        | none => raiseOpen s 0x10
        | some g => writeReg s f.d (maskOf (g.records.filter g.isMember)) lenA
    else
      let set := x % 16
      let index := x / 2 ^ 8 % 64
      if x / 2 ^ 14 ≠ 0 || x / 2 ^ 4 % 16 ≠ 0 then raiseOpen s 0x10
      else match s.expertSet dev fn set with
        | none => raiseOpen s 0x10
        | some e =>
          if index ≥ e.groups then raiseOpen s 0x10
          else match s.groupOn dev fn (e.gbase + index) with
            | none => raiseOpen s 0x10
            | some g =>
              let m := (g.records.filter g.isMember).foldl (fun (m : BitVec 16) i =>
                match s.expertSet (g.dev[i]?.getD 0) fn set with
                | some y => m ||| y.mask index (g.tile[i]?.getD 0 / 80)
                | none => m) 0
              writeReg s f.d (m.setWidth 64) lenA

/-! ### Strikes (R379) -/

/-- The tile of the node is struck: on a lost die (0 or 1), or, for die 2, of the function on the device. -/
def struckTile (dev die fn t f : Nat) : Bool := deviceOf t = dev && (if die < 2 then dieOf t % 2 = die else f = fn)

/-- The nearest remaining ancestor of a record among those that stay. -/
def Group.nearest (g : Group) (out : List Nat) : Nat → Nat → Option Nat
  | 0, _ => none
  | fuel + 1, i =>
    if i = g.root then none
    else
      let p := g.up i
      if out.contains p then g.nearest out fuel p else some p

/-- Readiness of the members at and below a record of a function's group. -/
def State.subtree (s : State) (g : Group) (fn num : Nat) : Nat → Nat → Nat
  | 0, _ => 0
  | fuel + 1, i =>
    (g.children i).foldl (fun n c => n + s.subtree g fn num fuel c)
      (if g.isMember i then s.readinessOf fn num (g.place i) else 0)

/-- The tree without some records (R379). -/
def State.rebuild (s : State) (g : Group) (fn num : Nat) (out : List Nat) : Group :=
  let left := g.records.filter fun i => !out.contains i
  let root := if out.contains g.root then left.headD g.root else g.root
  let parent := (List.range g.parent.length).map fun i => (g.nearest out 65 i).getD root
  let h : Group := { g with struck := g.struck ++ out, root := root, parent := parent, counts := [], parked := [], restarts := [] }
  { h with counts := (left.filter (· ≠ root)).map fun i => (i, (s.subtree h fn num 65 i : Int)) }

/-- The records of a group that a strike takes: struck members, and any record on a lost die. -/
def Group.struckBy (g : Group) (dev die fn f : Nat) : List Nat :=
  g.records.filter fun i => struckTile dev die fn (g.place i) f && (die < 2 || g.isMember i)

/-- A send of an affected group that does not stand TAKEN by a remaining member enters the rebuilt tree: at its root, where it
restarts behind those issued before it. -/
def State.reenterTree (s : State) (x : Send) : State :=
  let key := groupKey x.fn x.group
  match mapGet s.groups key with
  | none => s
  | some g => (s.setGroup key { g with restarts := g.restarts ++ [x.key] }).setSend ({ x with tried := [] }.comeTo g.root)

/-- A strike, in one step (R379). The die that STRUCK names for a tenant's end is not stated (R386): free. -/
def execStruck (dev die fn : Nat) (s : State) : Out :=
  if !s.strikes.contains (dev, die, fn) then .next s
  else
    let s : State := { s with strikes := s.strikes.erase (dev, die, fn) }
    let hit := s.groups.filter fun g => g.2.struckBy dev die fn (g.1 / 256) ≠ []
    let affected (x : Send) : Bool := hit.any fun g => g.1 = groupKey x.fn x.group
    let s := hit.foldl (fun (s : State) g => s.setGroup g.1 (s.rebuild g.2 (g.1 / 256) (g.1 % 256) (g.2.struckBy dev die fn (g.1 / 256)))) s
    let s : State := { s with
      sends := s.sends.filter fun x => !struckTile dev die fn x.sender x.fn
      readyMsgs := s.readyMsgs.filter fun m => !hit.any fun g => g.1 = m.2.group }
    let redo := s.sends.filter fun x => affected x && (match x.state, mapGet s.groups (groupKey x.fn x.group) with
      | .taken m, some g => !g.stands m
      | _, _ => true)
    let s := redo.foldl (fun s x => s.reenterTree x) s
    let s : State := { s with notices := s.notices.filter fun n =>
      !(redo.any fun x => x.key = n.2.send) && !(!n.2.ack && struckTile dev die fn n.2.tile (n.2.send / 2 ^ 64)) }
    let s : State := { s with groups := s.groups.map fun g =>
      (g.1, { g.2 with 
        parked := g.2.parked.filter fun k => s.sends.any fun x => x.key = k
        restarts := g.2.restarts.filter fun k => s.sends.any fun x => x.key = k }) }
    let cores := (hit.flatMap fun g => match mapGet s.groups g.1 with
        | some y => (y.records.filter y.isMember).map fun i => (y.place i, g.1 / 256)
        | none => []) ++ (s.sends.filter affected).map fun x => (x.sender, x.fn)
    let (s, v) := s.free
    let bit := if die < 2 then die else v.toNat % 2
    .next (cores.eraseDups.foldl (fun s c => s.postHome c.2 c.1 0x53 0 (dev % 64 + bit * 64)) s)

end Sys2Proof.Machine
end

