-- ==== Sys2Proof/Machine/Tenants.lean ====
section
/-! DEFINITION. Tenants: descriptors and their checks (R313, R314), region control blocks as a load reads them (R317), saving
and restoring runs of tiles (R326 to R334), the start and stop of a tenant (R316, R330, R333, R339), and the scheduler
(R315, R319, R320, R340). -/

namespace Sys2Proof.Machine

/-! ### Conflicts and what a tenant has to do -/

/-- The tile set of a descriptor as bits. -/
def descTileBits (d : BitVec 2048) : Nat := descField d 159 0
/-- The virtual channels of a descriptor. -/
def descVcmask (d : BitVec 2048) : Nat := descField d 839 832

/-- Two tenants of a device conflict (R315). -/
def State.conflict (s : State) (dev a b : Nat) : Bool :=
  let x := s.desc dev a
  let y := s.desc dev b
  a ≠ b && (descTileBits x &&& descTileBits y ≠ 0 || descVcmask x &&& descVcmask y ≠ 0)

/-- A submission queue of a device by function and number. -/
def subKey (fn q : Nat) : Nat := fn * 8 + q

/-- Entries of a queue's ring (R396). -/
def SubQueue.entries (q : SubQueue) : Nat := 2 ^ q.qsize.toNat

/-- The queue holds work: it is enabled and its head is not its tail (R396). -/
def SubQueue.hasWork (q : SubQueue) : Bool := q.enable && q.head.toNat ≠ q.tail.toNat % q.entries

/-- A tenant has work outside its tiles: a graph or a submission queue (R319). -/
def State.hasWork (s : State) (dev fn : Nat) : Bool :=
  (s.contexts.any fun c => c.1 / 128 = dev && c.2.fn = fn && c.2.ready ≠ []) ||
  (s.device dev).queues.any fun q => q.1 / 8 = fn && q.2.hasWork

/-- A tile gives its tenant work: its core, an actor (R319). -/
def Tile.busy (x : Tile) : Bool := x.core.run ≠ .idle || x.fireables ≠ []

/-- A tenant that runs is runnable (R319). -/
def State.runnable (s : State) (dev fn : Nat) : Bool :=
  ((s.tilesOf dev fn).any fun t => (s.tile t).busy) ||
  (s.regions.any fun r => deviceOf r.1 = dev && r.2.fn = fn && r.2.phase ≠ .held) ||
  (s.cmds.any fun c => deviceOf c.2.tile = dev && c.2.fn = fn) || s.hasWork dev fn

/-- The tiles of a tenant make it runnable (R319), wherever they are: a core, an actor, a region, which counts as held where
software holds it, or a command that a save takes along. -/
def State.tilesWork (s : State) (dev fn : Nat) : Bool :=
  ((s.tilesOf dev fn).any fun t => (s.tile t).busy) ||
  (s.regions.any fun r => deviceOf r.1 = dev && r.2.fn = fn && (r.2.phase ≠ .held || !r.2.holdAsked)) ||
  s.cmds.any fun c => deviceOf c.2.tile = dev && c.2.fn = fn && !c.2.isDraft

/-- A tenant that is READY is runnable (R319): by what its images hold (DEDUCED, log entry 82), by a core or an actor of a saved tile,
whose events have come since, by a command that outlives a save (R307), by a graph or by a queue. -/
def State.readyRunnable (s : State) (dev fn : Nat) : Bool :=
  (s.tenant dev fn).work || s.hasWork dev fn ||
  (s.away.any fun a => a.1 % 32 = fn && deviceOf (a.1 / 32) = dev && (s.homeTile fn (a.1 / 32)).busy) ||
  s.cmds.any fun c => deviceOf c.2.tile = dev && c.2.fn = fn

/-- A tenant, READY or RUNNING, that would run has tiles on a die, or the owner, who has every tile, has queue work (R319,
R406). -/
def State.awaitsDie (s : State) (gdie fn : Nat) : Bool :=
  let dev := gdie / 2
  ((List.range 80).any fun t => s.ownsTile dev fn (gdie % 2 * 80 + t)) &&
  if fn = 16 then s.hasWork dev 16
  else (match (s.tenant dev fn).state with
   | .ready => s.readyRunnable dev fn
   | .running => s.hasWork dev fn
   | .absent => false
   | .stopped => false
   | .fatal => false)

/-- No tenant with tiles on a die is runnable, nor does the owner run there (R319, R406): no core that acts, no region that is
not held, no command, no context, no queue with work, no READY tenant that waits for its quantum. -/
def State.dieQuiet (s : State) (gdie : Nat) : Bool :=
  (s.tiles.all fun t => dieOf t.1 ≠ gdie || !t.2.busy) &&
  (s.regions.all fun r => r.2.tiles.all (fun t => dieOf t ≠ gdie) || r.2.phase = .held) &&
  (s.cmds.all fun c => dieOf c.2.tile ≠ gdie) && (s.contexts.all fun c => c.1 / 64 ≠ gdie) &&
  (List.range 17).all fun fn => !s.awaitsDie gdie fn

/-! ### Descriptors (R313, R314) -/

/-- The reserved bits of a descriptor, as (high, low). -/
def descReserved : List (Nat × Nat) :=
  [(1983, 992), (959, 948), (847, 840), (831, 830), (815, 813), (799, 798), (783, 781), (511, 504), (447, 436), (383, 376),
   (319, 312), (255, 244), (191, 160)] ++ (List.range 4).map fun g => (64 * g + 575, 64 * g + 574)

/-- Draft slots of a die in a descriptor: first and count. -/
def descDraft (d : BitVec 2048) (die : Nat) : Nat × Nat :=
  (descField d (780 + 32 * die) (768 + 32 * die), descField d (797 + 32 * die) (784 + 32 * die))

/-- The draft index areas of a device. -/
def indexAreas (dev : Nat) : Ranges := [0, 1].map fun x => (dev * 2 ^ 50 + draftIndexBase x, 0x100000000)

/-- The tier pool of a descriptor 16 lies in local HBM outside the draft index areas (R314). -/
def poolOk (dev : Nat) (d : BitVec 2048) : Bool :=
  (descGrants d).all fun g => g.2 = 0 || (dev * 2 ^ 50 ≤ g.1 && g.1 + g.2 ≤ dev * 2 ^ 50 + draftIndexBase 0)

/-- Other tenants of a device that are not ABSENT. -/
def State.others (s : State) (dev fn : Nat) : List Nat :=
  ((s.device dev).tenants.filter fun x => x.1 ≠ fn && x.1 ≠ 16 && x.2.state ≠ .absent).map Prod.fst

/-- R314: a descriptor that a start must not take; `pool` is descriptor 16. A grant is judged against the other tenants and the tier
pools of every device of the node (R354; DEDUCED, log entry 30). -/
def State.descBad (s : State) (dev fn : Nat) (d pool : BitVec 2048) : Bool :=
  let grants := (descGrants d).filter fun g => g.2 ≠ 0
  let held := s.node.flatMap fun k => (s.others k fn).flatMap fun o => descGrants (s.desc k o)
  let pools := descGrants pool ++ (s.node.filter (· ≠ dev)).flatMap fun k => descGrants (s.desc k 16)
  let barred := (held ++ pools).filter (fun g => g.2 ≠ 0) ++ s.node.flatMap indexAreas
  (descReserved.any fun r => descField d r.1 r.2 ≠ 0) || descTileBits d = 0 || descVcmask d = 0 ||
  descField d 243 192 % 256 ≠ 0 || descField d 311 256 % 4096 ≠ 0 || descField d 375 320 % 4096 ≠ 0 ||
  descField d 435 384 % 2 ^ 16 ≠ 0 || descField d 503 448 % 4096 ≠ 0 || descField d 947 896 % 2 ^ 16 ≠ 0 ||
  grants.any (fun g => barred.any (clash g)) ||
  ([0, 1].any fun x =>
    let r := descDraft d x
    r.1 + r.2 > draftSlots || (s.others dev fn).any fun o =>
      let q := descDraft (s.desc dev o) x
      r.2 ≠ 0 && q.2 ≠ 0 && clash r q) ||
  !poolOk dev pool

/-- A descriptor as it lies in the owner's VA space. -/
def State.readDesc (s : State) (gdie dev n : Nat) : VaResult (BitVec 2048) :=
  match State.readVa gdie 16 none 2 s ((s.device dev).table + 256 * n) 256 with
  | .ok s bs => .ok s (BitVec.ofNat 2048 (ofBytes bs))
  | .fault s va f => .fault s va f
  | .wait => .wait

/-! ### Region control blocks (R317) -/

/-- A block's fields outside its links are malformed (DEDUCED, log entry 41). -/
def rcbBad (v : Nat) (root : Bool) : Bool :=
  let inherit := bitsOf v 23 16
  let own (b : Nat) : Bool := !inherit.testBit b
  v / 2 ^ 392 ≠ 0 || bitsOf v 383 356 ≠ 0 || bitsOf v 303 296 ≠ 0 || bitsOf v 287 279 ≠ 0 || bitsOf v 255 247 ≠ 0 ||
  bitsOf v 207 200 ≠ 0 || bitsOf v 191 180 ≠ 0 || bitsOf v 127 116 ≠ 0 || bitsOf v 63 24 ≠ 0 || bitsOf v 15 12 ≠ 0 ||
  bitsOf v 7 0 > 1 || inherit ≥ 64 || (root && inherit ≠ 0) || (bitsOf v 7 0 = 0 && bitsOf v 391 384 ≠ 0) ||
  (own 0 && bitsOf v 199 192 > 160) || (own 2 && (bitsOf v 246 240 = 0 || bitsOf v 246 240 > 64)) ||
  (own 4 && bitsOf v 278 272 > 64) || (own 5 && (bitsOf v 355 304 % 4096 ≠ 0 || bitsOf v 295 288 > 159)) ||
  (root && bitsOf v 271 256 ≠ 0 && bitsOf v 271 256 < 100) || (root && bitsOf v 179 128 ≠ 0)

/-- What a tree that breaks R317 comes to. -/
def badTree (s : State) (va : Nat) : VaResult (List Rcb) := .fault s va { cause := 0x47, level := 0, pte := 0 }

/-- The tree below the blocks to read, (VA, parent, depth) each; a fault where it breaks R317. -/
def State.readTree (gdie fn : Nat) : Nat → State → List (Nat × Option Nat × Nat) → List Rcb → VaResult (List Rcb)
  | _, s, [], acc => .ok s acc
  | 0, s, (va, _, _) :: _, _ => badTree s va
  | fuel + 1, s, (va, parent, depth) :: todo, acc =>
    if depth > 8 then badTree s va
    else match State.readVa gdie fn none 2 s va 256 with
      | .fault s va _ => badTree s va
      | .wait => .wait
      | .ok s bs =>
        let v := ofBytes bs
        if rcbBad v parent.isNone then badTree s va
        else
          let n := acc.length
          let child := bitsOf v 115 64
          let sibling := bitsOf v 179 128
          let more := (if child = 0 then [] else [(child, some n, depth + 1)]) ++
            (if sibling = 0 then [] else [(sibling, parent, depth)])
          State.readTree gdie fn fuel s (more ++ todo) (acc ++ [{ parent := parent, bits := BitVec.ofNat 392 v }])

/-- The die through whose root the device reads a tenant's tree: that of its first tile. -/
def State.treeDie (s : State) (dev fn : Nat) : Nat := dieOf ((s.tilesOf dev fn).headD (dev * 160))

/-- The region control blocks of a tenant, read whole (R317). -/
def State.loadTree (s : State) (dev fn : Nat) : VaResult (List Rcb) :=
  State.readTree (s.treeDie dev fn) fn 64 s [(descField (s.desc dev fn) 243 192, none, 1)] []

/-! ### Saving a run of tiles (R326 to R330, R334) -/

/-- The live regions that hold some of the tiles. -/
def State.regionsOn (s : State) (tiles : List Nat) : List (Nat × Region) :=
  s.regions.filter fun r => r.2.tiles.any tiles.contains

/-- A region of the tiles is to retire first (R178). -/
def State.anyRetires (s : State) (tiles : List Nat) : Bool := (s.regionsOn tiles).any fun r => s.retires r.1 r.2

/-- The region stands at a token round, or is to be frozen hard (R326). -/
def State.settled (s : State) (r : Region) : Bool :=
  let freezes := s.ageStands r || r.preempt.any Prod.snd
  match r.phase with
  | .held => true
  | .waiting => true
  | .running => freezes
  | .slipping _ _ => freezes

/-- A soft pre-emption asks the regions on the tiles for a hold (R326) (DEDUCED, log entry 38). -/
def State.askHold (s : State) (tiles : List Nat) : State :=
  (s.regionsOn tiles).foldl (fun (s : State) r =>
    if r.2.preempt.isSome then s
    else { s with regions := mapSet s.regions r.1 { r.2 with preempt := some ((s.die (dieOf r.1)).cycle, false) } }) s

/-- The kind of a tile's image (R326). -/
def State.imageKind (s : State) (hard : Bool) (t : Nat) : Nat :=
  if hard then imageHard
  else match (s.tile t).live.bind (mapGet s.regions) with
    | some r => if s.ageStands r || (r.phase ≠ .held && r.preempt.any Prod.snd) then imageHard else imageSoft
    | none => imageSoft

/-- The writes that layout engines have not finished for commands of the tiles reach M. -/
def State.settleLayouts (s : State) (tiles : List Nat) : State :=
  s.cmds.foldl (fun (s : State) c =>
    if tiles.contains c.2.tile && c.2.code = 0x0D && c.2.stage = .running then
      match mapGet (s.die (c.2.engine / 16)).layouts (c.2.engine % 16) with
      | some l => l.pending.foldl (fun s _ => s.layoutDrain c.2) s
      | none => s
    else s) s

/-- The completion records of commands of the tiles are applied (R326 step 3). -/
def State.settleReports (s : State) (tiles : List Nat) : State :=
  s.dies.foldl (fun (s : State) d =>
    let keep (q : List Completion) : List Completion := q.filter fun r => !tiles.contains r.tile
    let mine := d.2.cq.flatMap fun q => q.2.filter fun r => tiles.contains r.tile
    let cq := (d.2.cq.map fun q => (q.1, keep q.2)).filter fun q => q.2 ≠ []
    let s := s.setDie d.1 { s.die d.1 with cq := cq }
    mine.foldl State.report s) s

/-- Write a run of images at a VA of a function; `gov` is the tile whose node governs the walks (R322, R334). -/
def State.storeRun (gdie space : Nat) (gov : Option Nat) (fn : Nat) (hard : Bool) (run : List Nat) :
    State → Nat → List Nat → VaResult Unit
  | s, _, [] => .ok s ()
  | s, va, t :: r =>
    let (s, bs) := s.takeImage t fn (s.imageKind hard t) run
    match State.writeVa gdie space gov (pagesOf imageSize) s va bs with
    | .fault s va f => .fault s va f
    | .wait => .wait
    | .ok s _ => State.storeRun gdie space gov fn hard run s (va + imageSize) r

/-- The tiles have gone away with the saves numbered from n on, in order. -/
def State.markAway (s : State) (fn n : Nat) (tiles : List Nat) : State :=
  { s with away := tiles.zipIdx.foldl (fun m t => mapSet m (homeKey fn t.1) (n + t.2)) s.away }

/-- A tile after its save (R332): as tile reset leaves it but for its scratchpad, its regions and commands gone. -/
def State.vacate (s : State) (fn : Nat) (tiles : List Nat) : State :=
  let s : State := { s with regions := s.regions.filter fun r => !tiles.contains r.1 }
  let s := s.dropCmds fun _ c => tiles.contains c.tile && !c.isDraft
  let s : State := { s with relatches := s.relatches.map fun q =>
    { q with left := q.left.filter fun a => !tiles.contains (dutyTile a) || ageKind a = 3 || ageKind a = 4 || ageKind a = 5 } }
  tiles.foldl (fun s t => s.resetTile t fn) s

/-- A run of tiles is saved and left vacant; the tier engine has moved its images (R334, R347). -/
def State.saveRun (s : State) (gdie space : Nat) (gov : Option Nat) (fn : Nat) (hard : Bool) (va : Nat) (tiles : List Nat) :
    VaResult Unit :=
  let s := (s.settleLayouts tiles).settleReports tiles
  let n := s.nextSaved
  match State.storeRun gdie space gov fn hard tiles s va tiles with
  | .fault s va f => .fault s va f
  | .wait => .wait
  | .ok s _ => .ok (((s.vacate fn tiles).markAway fn n tiles).addShared gdie 0x304 (tiles.length * imageSize)) ()

/-- The frames that n bytes at a VA lie in, as ranges. -/
def State.vaRanges (s : State) (gdie fn va n : Nat) : Ranges :=
  (List.range (pagesOf n)).filterMap fun i =>
    let a := va + 2 ^ 16 * i
    if 2 ^ 16 * i < n then match s.findLeaf gdie fn a 0 with
      | .ok l => some (pteAddr l.pte + a % pageSize l.level, min (2 ^ 16) (n - 2 ^ 16 * i))
      | .error _ => none
    else none

/-! ### Restoring (R331) -/

/-- Read a run of images at a VA of a function; a fault where a read faults or an image does not fit its tile. -/
def State.readRun (gdie space : Nat) (gov : Option Nat) (fn dev : Nat) :
    State → Nat → List Nat → VaResult (List (Nat × List Byte))
  | s, _, [] => .ok s []
  | s, va, t :: r => match State.readVa gdie space gov (pagesOf imageSize) s va imageSize with
    | .fault s va f => .fault s va f
    | .wait => .wait
    | .ok s bs =>
      if imageOk bs t fn dev then match State.readRun gdie space gov fn dev s (va + imageSize) r with
        | .fault s va f => .fault s va f
        | .wait => .wait
        | .ok s q => .ok s ((t, bs) :: q)
      else .fault s va { cause := 0x23, level := 0, pte := 0 }

/-- The tiles stand as their images give them (R331). -/
def State.placeImages (s : State) (fn : Nat) (images : List (Nat × List Byte)) : State :=
  images.foldl (fun s x => s.restoreTile x.1 fn x.2) s

/-- The tiles take their images, which a die's tier engine has moved (R347), and regions that ran resume their beat (R331). A
hold that the power governor asks for is that of the dies now (R404), whose steps a region on both makes equal (R352). -/
def State.restoreRun (s : State) (gdie fn : Nat) (images : List (Nat × List Byte)) : State :=
  let s := s.addShared gdie 0x304 (images.length * imageSize)
  let s := (s.placeImages fn images).equalise (gdie / 2)
  images.foldl (fun (s : State) x => match mapGet s.regions x.1 with
    | none => s
    | some r => ({ s with regions := mapSet s.regions x.1 { r with govHold := false } } : State).releaseHold x.1) s

/-! ### Pre-emption and grants (R316, R320) -/

/-- First VA of a tenant's tile images. -/
def State.saveBase (s : State) (dev fn : Nat) : Nat := descField (s.desc dev fn) 435 384 + deviceSection

/-- The tenant has become fatal with a cause that no core raised (R336); no rule names its fval. -/
def State.fatal (s : State) (dev fn : Nat) (code : BitVec 7) : State :=
  let (s, v) := s.free
  s.freezeTenant dev fn code [{ word := errWord code 0 0 0 0, fval := v }]

/-- A failing save of a tenant (R334). -/
def State.saveFails (s : State) (dev fn : Nat) : State := s.fatal dev fn 0x23

/-- A pre-emption of the tenant counts as hard where one of its images is to be (R326, R347). -/
def State.countPreemption (s : State) (dev fn : Nat) (hard : Bool) : State :=
  s.count dev fn (if (s.tilesOf dev fn).any fun t => s.imageKind hard t = imageHard then 0x207 else 0x206) 1

/-- Every tile of a tenant that runs is saved to its save area (R316), once its regions stand at a token round; none while the
area is under move (R323). A stop has counted its pre-emption before (R347). -/
def State.leaveTiles (s : State) (gdie dev fn : Nat) (hard : Bool) (st : TenantState) : Option State :=
  let tiles := s.tilesOf dev fn
  let s := if st = .ready then s.countPreemption dev fn hard else s
  let work := s.tilesWork dev fn
  match s.saveRun gdie 16 none fn hard (s.saveBase dev fn) tiles with
  | .fault _ _ _ => some (s.saveFails dev fn)
  | .wait => none
  | .ok s _ =>
    let x := s.tenant dev fn
    let s := s.setTenant dev fn { x with
      leaving := false, work := work, waited := 0, passedOver := 0, away := if st = .ready then some 0 else none }
    some (if st = .ready then s.setTenantState dev fn st else s)

/-- The regions of a tenant's tiles are settled, and none is to retire. -/
def State.allSettled (s : State) (tiles : List Nat) : Bool :=
  !s.anyRetires tiles && (s.regionsOn tiles).all fun r => s.settled r.2

/-- Rank of a READY tenant at an expiry (R320): passed over 15 times first, then priority, then the longest wait. -/
def State.rank (s : State) (dev fn : Nat) : Nat × Nat × Nat :=
  let x := s.tenant dev fn
  (if 15 ≤ x.passedOver then 1 else 0, x.priority, x.waited)

/-- One rank lies above another. -/
def rankAbove (a b : Nat × Nat × Nat) : Bool :=
  b.1 < a.1 || (a.1 = b.1 && (b.2.1 < a.2.1 || (a.2.1 = b.2.1 && b.2.2 < a.2.2)))

/-- The first-ranked of some tenants. -/
def State.firstRanked (s : State) (dev : Nat) : List Nat → Option Nat
  | [] => none
  | f :: r => some (r.foldl (fun b x => if rankAbove (s.rank dev x) (s.rank dev b) then x else b) f)

/-- A new quantum of a tenant (R316, R320). -/
def State.newQuantum (s : State) (dev fn : Nat) : State :=
  let x := s.tenant dev fn
  (s.setTenant dev fn { x with quantumLeft := x.quantum }).count dev fn 0x205 1

/-- Tenants chosen at an expiry (R320). -/
def State.choose (s : State) (dev : Nat) (fns : List Nat) : State :=
  s.setDevice dev { s.device dev with chosen := ((s.device dev).chosen ++ fns).eraseDups }

/-- A tenant of a device that runs conflicts with one (R315). -/
def State.blocked (s : State) (dev fn : Nat) : Bool :=
  (s.others dev fn).any fun o => (s.tenant dev o).state = .running && s.conflict dev fn o

/-- A READY tenant's turn has come (R320): it was chosen at an expiry; or it is runnable, conflicts with none that was chosen, and
no runnable READY tenant that it conflicts with and that could start ranks above it (DEDUCED, log entry 66). -/
def State.mayStart (s : State) (dev fn : Nat) : Bool :=
  let ready (o : Nat) : Bool := (s.tenant dev o).state = .ready
  let chosen := (s.device dev).chosen.filter ready
  !s.blocked dev fn && (chosen.contains fn ||
    (s.readyRunnable dev fn && !(chosen.any fun o => s.conflict dev fn o) &&
      (s.others dev fn).all fun o =>
        !(ready o && s.readyRunnable dev o && s.conflict dev fn o && !s.blocked dev o && rankAbove (s.rank dev o) (s.rank dev fn))))

/-- The owner runs on a tile (R315): its core acts there, or a region of its is live there. -/
def State.ownerOn (s : State) (t : Nat) : Bool :=
  ((s.coreOf t).fn.getLsbD 4 && (s.coreOf t).run.active) || (s.regionOf t).any fun r => r.2.fn = 16

/-- A quantum ends (R320): the tenant gives way to the first-ranked runnable READY tenant that conflicts with it, where that
ranks at or above it, and its tiles are saved once its regions stand at a token round; else it goes on with a new quantum. -/
def execQuantumExpiry (dev fn : Nat) (s : State) : Out :=
  let x := s.tenant dev fn
  if x.state ≠ .running || fn = 16 then .next s
  else if x.leaving then
    let s := s.askHold (s.tilesOf dev fn)
    .next (if s.allSettled (s.tilesOf dev fn) then (s.leaveTiles (2 * dev) dev fn false .ready).getD s else s)
  else if x.quantumLeft ≠ 0 then .next s
  else
    let cand := (s.others dev fn).filter fun o =>
      (s.tenant dev o).state = .ready && s.readyRunnable dev o && s.conflict dev fn o
    let best := s.firstRanked dev cand
    let yields := best.any fun b => 15 ≤ (s.tenant dev b).passedOver || x.priority ≤ (s.tenant dev b).priority
    let s := cand.foldl (fun (s : State) o =>
      if yields && best = some o then s
      else
        let y := s.tenant dev o
        s.setTenant dev o { y with passedOver := y.passedOver + 1 }) s
    if yields then
      let s := (s.setTenant dev fn { s.tenant dev fn with leaving := true }).choose dev best.toList
      .next (s.askHold (s.tilesOf dev fn))
    else .next (s.newQuantum dev fn)

/-- Fc that a region has to reach a token round (R326). -/
def softLimit : Nat := 65536

/-- Regions of a function that have reached no token round in 65,536 fc are to be frozen hard (R326). -/
def execSoftPreemptTimeout (dev fn : Nat) (s : State) : Out :=
  let late (l : Nat) (r : Region) : Bool :=
    deviceOf l = dev && r.fn = fn && r.phase ≠ .held && r.preempt.any fun p => p.1 + softLimit ≤ (s.die (dieOf l)).cycle
  let mark (r : Nat × Region) : Nat × Region :=
    if late r.1 r.2 then (r.1, { r.2 with preempt := r.2.preempt.map fun p => (p.1, true) }) else r
  .next { s with regions := s.regions.map mark }

/-- A READY tenant is granted a quantum (R316, R317, R320): its tree is read, its tiles are restored, and each of its cores
finds QUANTUM where an expiry had sent it away. -/
def execQuantumGrant (dev fn : Nat) (s : State) : Out :=
  let x := s.tenant dev fn
  let tiles := s.tilesOf dev fn
  if x.state ≠ .ready || fn = 16 || !s.mayStart dev fn || tiles.any s.ownerOn || !s.steady tiles || (s.device dev).frozen then
    .next s
  else match s.loadTree dev fn with
    | .fault s _ _ => .next (s.fatal dev fn 0x47)
    | .wait => .next s
    | .ok s rcbs =>
      let s0 := s
      let s := s.setTenant dev fn { s.tenant dev fn with rcbs := rcbs }
      match State.readRun (2 * dev) 16 none fn dev s (s.saveBase dev fn) tiles with
      | .fault s _ _ => .next (s.fatal dev fn 0x23)
      | .wait => .next s0
      | .ok s images =>
        let s := s.setDevice dev { s.device dev with chosen := (s.device dev).chosen.filter (· ≠ fn) }
        let s := s.setTenantState dev fn .running
        let s := (s.restoreRun (2 * dev) fn images).newQuantum dev fn
        let s := match x.away with
          | some us => tiles.foldl (fun (s : State) t => s.post t 0x40 0 (min us (2 ^ 48 - 1))) s
          | none => s
        .next (s.setTenant dev fn { s.tenant dev fn with away := none, waited := 0, passedOver := 0, idleMicros := 0, progress := [] })

/-- The hang limit of a tenant in µs (R313). -/
def State.hangLimit (s : State) (dev fn : Nat) : Nat :=
  let v := descField (s.desc dev fn) 895 864
  if v = 0 then 1000000 else v

/-- A tenant that is RUNNING and runnable and makes no progress for its hang limit is frozen (R340). -/
def execHang (dev fn : Nat) (s : State) : Out :=
  let x := s.tenant dev fn
  if x.state = .running && s.runnable dev fn && s.hangLimit dev fn ≤ x.idleMicros then .next (s.fatal dev fn 0x44)
  else .next s

/-! ### Start, stop and reset (R316, R330, R333, R339) -/

/-- SM3 measurement blocks of a tenant start (R400). -/
def Device.measureStart (d : Device) (desc : List Byte) (rcb : List Byte) : Device :=
  let n := d.measured.foldl (fun k x => max k (x.1 + 1)) 5
  { d with measured := mapSet d.measured n (Config.sm3 (desc ++ rcb)).toNat }

/-- The bytes of a device section (R330): the tensor-ID tables of d0 and d1, then the number under which the machine holds
its contexts, counters and tier records (R346; DESIGN CHOICE, log entry 14). -/
def State.sectionBytes (s : State) (dev fn n : Nat) : List Byte :=
  padTo deviceSection (([2 * dev, 2 * dev + 1].flatMap fun g => (List.range 256).flatMap fun i => toBytes (s.tid g fn i).toNat 64) ++
    toBytes n 8)

/-- The contexts of a function on a device. -/
def State.contextsOf (s : State) (dev fn : Nat) : Map GraphCtx := s.contexts.filter fun c => c.1 / 128 = dev && c.2.fn = fn

/-- A context of a save renumbered: a command or region that names it follows (DEDUCED, log entry 43). -/
def renumber (m : List (Nat × Nat)) (g : Option (Nat × Nat)) : Option (Nat × Nat) :=
  g.map fun p => ((m.find? fun q => q.1 = p.1).map Prod.snd |>.getD p.1, p.2)

/-- Contexts of a device section come back, each under its number where that is free, else under another of its die; none
where a die has no room. The saved commands and regions of the function follow the new numbers. -/
def State.placeContexts (fn dev : Nat) : Map GraphCtx → State → List (Nat × Nat) → Option State
  | [], s, m =>
    let follow (v : Nat × SavedTile) : Nat × SavedTile :=
      if fnOf v.2.tile.core.fn = fn then
        (v.1, { v.2 with cmds := v.2.cmds.map fun c => (c.1, { c.2 with graph := renumber m c.2.graph })
                         region := v.2.region.map fun r => { r with graph := renumber m r.graph } })
      else v
    some { s with saved := s.saved.map follow }
  | (n, g) :: r, s, m =>
    let free := (n :: (List.range 64).map fun i => n / 64 * 64 + i).find? fun k => (mapGet s.contexts k).isNone
    match free with
    | none => none
    | some k => State.placeContexts fn dev r { s with contexts := mapSet s.contexts k g } ((n, k) :: m)

/-- A device section is read back (R316, R330). Of the frames that it lists as lent, those that have returned to the pool since the
stop are the tenant's no more (R322). -/
def State.restoreSection (s : State) (dev fn : Nat) (bs : List Byte) : Option State :=
  let s := [0, 1].foldl (fun (s : State) x => (List.range 256).foldl (fun (s : State) i =>
    s.setTid (2 * dev + x) fn i (BitVec.ofNat 512 (numAt bs (0x4000 * x + 64 * i) 64))) s) s
  match mapGet s.savedDevices (numAt bs 0x8000 8) with
  | none => some s
  | some v =>
    let x := s.tenant dev fn
    let lent := v.lent.filter x.lent.contains ++ x.lent.filter fun f => !v.lent.contains f
    let s := s.setTenant dev fn { x with counters := v.counters, ws := v.ws, pinned := v.pinned, lent := lent }
    State.placeContexts fn dev v.contexts s []

/-- A page that a table maps: its VA, its size, where its leaf lies, and the leaf. -/
structure TablePage where
  va : Nat
  size : Nat
  leaf : Nat
  pte : Nat
  deriving DecidableEq, Repr, Inhabited

/-- The frame of a mapped page. -/
def TablePage.frame (p : TablePage) : Nat := pteAddr p.pte

/-- The pages that a table of a level maps below a VA. -/
def tablePages (m : Memory) : Nat → Nat → Nat → List TablePage
  | 0, _, _ => []
  | l + 1, t, va =>
    (((m.filter fun c => inRange t 4096 c.1).map fun c => (c.1 - t) / 8).eraseDups).flatMap fun i =>
      let pte := m.num (t + 8 * i) 8
      let va := va + i * 2 ^ (16 + 9 * l)
      if !pte.testBit 0 || pteMalformed pte (l + 1) then []
      else if pte.testBit 1 then [{ va := va, size := pageSize (l + 1), leaf := t + 8 * i, pte := pte }]
      else tablePages m l (pteAddr pte) va

/-- Pages of a table whose leaf is dirty. -/
def dirtyPages (m : Memory) (root : Nat) : List TablePage := (tablePages m 4 root 0).filter fun p => p.pte.testBit 6

/-- The dirty-page report of a stop (R339 step 3): the count, then the pages that fit, whose dirty bits are cleared. Where
the report's area does not translate nothing is stored (DEDUCED, log entry 16); none while it is under move (R323). -/
def State.dirtyReport (s : State) (dev fn : Nat) : Option State :=
  let d := s.desc dev fn
  let all := dirtyPages s.mem (s.root (2 * dev) fn) ++ dirtyPages s.mem (s.root (2 * dev + 1) fn)
  let pages := (all.map fun p => (p.va, p.size)).eraseDups
  let cap := descField d 991 960
  let n := pages.length
  let listed := pages.take cap
  let head := n + if n > cap then 2 ^ 63 else 0
  let bs := toBytes head 8 ++ listed.flatMap fun p => toBytes (p.1 + if p.2 = 2 ^ 25 then 1 else 0) 8
  match State.writeVa (2 * dev) 16 none (pagesOf bs.length) s (descField d 947 896) bs with
  | .fault s _ _ => some s
  | .wait => none
  | .ok s _ => some <| (all.filter fun p => listed.contains (p.va, p.size)).foldl (fun (s : State) p =>
      let pte := s.mem.num p.leaf 8
      s.machineWrite p.leaf (toBytes (if pte.testBit 6 then pte - 2 ^ 6 else pte) 8)) s

/-- The device section of a tenant is written (R330, R346); a failing write makes the tenant fatal, its tiles where they stand
(R334); none while the area is under move. -/
def State.writeSection (s : State) (gdie dev fn : Nat) : Option State :=
  let n := s.nextSaved
  let x := s.tenant dev fn
  let v : SavedDevice := { contexts := s.contextsOf dev fn, counters := x.counters, ws := x.ws, pinned := x.pinned, lent := x.lent }
  match State.writeVa gdie 16 none 3 s (descField (s.desc dev fn) 435 384) (s.sectionBytes dev fn n) with
  | .fault s _ _ => some (s.saveFails dev fn)
  | .wait => none
  | .ok s _ => some { s.addShared gdie 0x304 deviceSection with savedDevices := mapSet s.savedDevices n v, nextSaved := n + 1 }

/-- The report is made and the tenant is STOPPED, its contexts in the device section (R316, R339). -/
def State.finishStop (s : State) (dev fn : Nat) : Option State :=
  let s : State := { s with contexts := s.contexts.filter fun c => !(c.1 / 128 = dev && c.2.fn = fn) }
  (s.dirtyReport dev fn).map fun s =>
    let x := s.tenant dev fn
    (s.setTenant dev fn { x with stopSeq := x.stopSeq + 1 }).setTenantState dev fn .stopped

/-- A step of a stop, unless one before it has made the tenant fatal. -/
def State.unlessFatal (s : State) (dev fn : Nat) (go : State → Option State) : Option State :=
  if (s.tenant dev fn).state = .fatal then some s else go s

/-- The images in a tenant's save area hold work (R319; DEDUCED, log entry 82): with them in place its tiles would make it runnable;
or they do not read, which its first quantum finds. -/
def State.imagesWork (s : State) (dev fn : Nat) : Bool :=
  match State.readRun (2 * dev) 16 none fn dev s (s.saveBase dev fn) (s.tilesOf dev fn) with
  | .ok s images => (s.placeImages fn images).tilesWork dev fn
  | .fault _ _ _ => true
  | .wait => true

/-- The stop of a tenant (R316, R339): the pre-emption is counted where it runs (R347), the device section and then its tiles are
saved, the report is made, and the tenant is STOPPED; none while an area that it writes is under move (R323). -/
def State.stopNow (s : State) (gdie dev fn : Nat) (hard running : Bool) : Option State :=
  let s := if running then s.countPreemption dev fn hard else s
  (s.writeSection gdie dev fn).bind fun s => s.unlessFatal dev fn fun s =>
    (if running then s.leaveTiles gdie dev fn hard .stopped else some s).bind fun s =>
      s.unlessFatal dev fn fun s => s.finishStop dev fn

/-- `ctxld` of tenant scope (R314, R316, R317, R334): READY with its descriptor and tree, a cause where they are malformed or the
device section does not read, or no state while no walker context is free for what the section holds, or while a page of
these is under move (R323). -/
def State.startTenant (s : State) (gdie dev fn : Nat) : Except (BitVec 7) (Option State) :=
  match s.readDesc gdie dev fn, s.readDesc gdie dev 16 with
  | .ok _ d, .ok s pool =>
    if s.descBad dev fn d pool then .error 0x41
    else
      let old := s.tenant dev fn
      let stopped := old.state = .stopped
      let s := s.setTenant dev 16 { s.tenant dev 16 with desc := pool }
      let s := s.setTenant dev fn { old with desc := d }
      match s.loadTree dev fn with
      | .fault _ _ _ => .error 0x47
      | .wait => .ok none
      | .ok s rcbs =>
        let (s, key) := s.freshKey
        let x := s.tenant dev fn
        let s := s.setTenant dev fn { x with
          rcbs := rcbs, faults := [], quantumLeft := 0, waited := 0, passedOver := 0, away := none, leaving := false
          idleMicros := 0, progress := [], periodAge := 0, sampleAge := 0, sampled := false
          key := if stopped then x.key else some key }
        let rcb := match State.readVa (s.treeDie dev fn) fn none 2 s (descField d 243 192) 256 with
          | .ok _ bs => bs
          | .fault _ _ _ => []
          | .wait => []
        let s := s.setDevice dev ((s.device dev).measureStart (toBytes d.toNat 256) rcb)
        let ready (s : State) : State :=
          (s.setTenant dev fn { s.tenant dev fn with work := s.imagesWork dev fn }).setTenantState dev fn .ready
        if !stopped then .ok (some (ready s))
        else match State.readVa gdie 16 none 3 s (descField d 435 384) deviceSection with
          | .ok s bs => .ok (((s.addShared gdie 0x304 deviceSection).restoreSection dev fn bs).map ready)
          | .fault _ _ _ => .error 0x23
          | .wait => .ok none
  | .fault _ _ f, _ => .error f.cause
  | _, .fault _ _ f => .error f.cause
  | .wait, _ => .ok none
  | _, .wait => .ok none

/-- `ctxld.reset` (R333): the tenant's work is gone, its tiles and tensor-ID tables are reset, and it is ABSENT. A tile that
a conflicting tenant runs on is left to it. Bytes in M keep their values though its key is erased (DEDUCED, log entry 70). -/
def State.resetTenant (s : State) (dev fn : Nat) : State :=
  let (s, _) := s.nextRelatch dev
  let running := (s.tenant dev fn).state = .running
  let tiles := (s.tilesOf dev fn).filter fun t =>
    running || (s.others dev fn).all fun o => !((s.tenant dev o).state = .running && s.ownsTile dev o (t % 160))
  let s : State := { s with
    regions := s.regions.filter fun r => !(r.2.fn = fn && deviceOf r.1 = dev)
    contexts := s.contexts.filter fun c => !(c.1 / 128 = dev && c.2.fn = fn) }
  let s := s.cancelCmds dev fn
  let s := tiles.foldl (fun s t => s.resetTile t fn) s
  let s := [2 * dev, 2 * dev + 1].foldl (fun (s : State) g =>
    s.setDie g { s.die g with tids := (s.die g).tids.filter fun e => e.1 / 256 ≠ fn }) s
  let x := s.tenant dev fn
  let s := s.setDevice dev { s.device dev with chosen := (s.device dev).chosen.filter (· ≠ fn) }
  let s : State := { s with
    away := s.away.filter fun a => !(a.1 % 32 = fn && deviceOf (a.1 / 32) = dev), strikes := s.strikes ++ [(dev, 2, fn)] }
  (s.setTenant dev fn { Tenant.reset with lastCause := 0x43, stopSeq := x.stopSeq }).setTenantState dev fn .absent

end Sys2Proof.Machine
end

