-- ==== Sys2Proof/Machine/System.lean ====
section
/-! DEFINITION. Row 0xA: system state registers (R79 to R82, R343), re-latching (R327, R344), saving and restoring contexts
(R332 to R334), the tensor-ID tables (R345), power controls (R407) and counters (R347). -/

namespace Sys2Proof.Machine

/-! ### System state registers -/

/-- The first word of an instruction in form B. -/
def firstB (op : Nat) (f : FormB) : Word := (packB op f).headD 0

/-- ss.tile of a tile of the node (R79). -/
def tileRegister (t : Nat) : Dword := BitVec.ofNat 64 (t % 160 + 2 ^ 8 * (t % 160 / 80))

/-- ss.cycle as a core reads it (R79, R343): a tenant sees its value at the last microsecond of the device. -/
def State.cycleRegister (s : State) (t : Nat) : Nat :=
  if fnOf (s.coreOf t).fn = 16 then (s.die (dieOf t)).cycle
  else
    let c := (s.device (deviceOf t)).tickCycle
    if t % 160 < 80 then c.1 else c.2

/-- ss.beat: the beat of the live region that holds the tile, else 0 (R79, R183). -/
def State.beatRegister (s : State) (t : Nat) : Nat := ((s.tile t).live.bind (mapGet s.regions) |>.map Region.beat).getD 0

/-- The register of an index (R79) as the core of a tile reads it. -/
def State.systemRegister (s : State) (t n : Nat) : Dword :=
  let c := s.coreOf t
  match n with
  | 0 => c.cause.setWidth 64
  | 1 => c.fpc
  | 2 => c.fval
  | 3 => c.tenant.setWidth 64
  | 4 => c.mode
  | 5 => c.fpmode
  | 6 => BitVec.ofNat 64 (s.cycleRegister t)
  | 7 => c.vcycle
  | 8 => tileRegister t
  | 9 => c.evmask
  | _ => BitVec.ofNat 64 (s.beatRegister t)

/-- Access "none" from user mode (R79). -/
def systemDenied (c : Core) (n : Nat) : Bool := c.user && n < 3

/-- R343 and R79: access "none" raises 0x03 at decode. -/
def systemAccess (first : Word) (n : Nat) (s : State) (go : State → Out) : Out :=
  if systemDenied s.core n then raise s 0x03 (first.setWidth 64) else go s

/-- `sget` (R343). -/
def execSget (f : FormB) (s : State) : Out :=
  systemAccess (firstB 0xA0 f) f.imm16.toNat s fun s =>
    guarded f.gn f.guard lenB s fun s => writeReg s f.d (s.systemRegister s.cur f.imm16.toNat) lenB

/-- A write of ss.mode (R80): 11 leaves its field unchanged. -/
def Core.writeMode (c : Core) (v : Dword) : Core :=
  { c with
    m := if v.extractLsb' 0 2 = 3 then c.m else v.extractLsb' 0 2
    pm := if v.extractLsb' 2 2 = 3 then c.pm else v.extractLsb' 2 2
    ih := v.getLsbD 4 }

/-- A write of ss.fpmode (R81): rm 110 and 111 leave the field unchanged, and a srgen of zero stores 1. -/
def Core.writeFpmode (c : Core) (v : Dword) : Core :=
  { c with
    rm := if (v.extractLsb' 0 3).toNat < 6 then v.extractLsb' 0 3 else c.rm
    flush := v.getLsbD 3, flags := v.extractLsb' 4 5
    srgen := if v.extractLsb' 32 32 = 0 then 1 else v.extractLsb' 32 32 }

/-- A write of ss.evmask (R82): `lost` is cleared by a 1. -/
def Core.writeEvmask (c : Core) (v : Dword) : Core := { c with wake := v.extractLsb' 0 16, lost := c.lost && !v.getLsbD 63 }

/-- A supervisor's write that places 10 in m or pm (R80). -/
def modeDenied (c : Core) (v : Dword) : Bool := c.m = 1 && (v.extractLsb' 0 2 = 2#2 || v.extractLsb' 2 2 = 2#2)

/-- The core after a write of a register (R79 to R82, R343): one that is read-only keeps its value. -/
def Core.writeSystem (c : Core) (n : Nat) (v : Dword) : Core :=
  match n with
  | 0 => { c with cause := v.extractLsb' 0 7 }
  | 1 => { c with fpc := v }
  | 2 => { c with fval := v }
  | 4 => if c.user then c else c.writeMode v
  | 5 => c.writeFpmode v
  | 9 => c.writeEvmask v
  | _ => c

/-- `sset` (R343). -/
def execSset (f : FormB) (s : State) : Out :=
  systemAccess (firstB 0xA1 f) f.imm16.toNat s fun s =>
    guarded f.gn f.guard lenB s fun s =>
      let v := s.core.reg f.a
      if f.imm16.toNat = 4 && modeDenied s.core v then raiseOpen s 0x03
      else finish (s.withCore (s.core.writeSystem f.imm16.toNat v)) lenB

/-! ### Re-latching (R344) -/

/-- The dies that sub[1:0] names on a device. -/
def namedDies (dev : Nat) (sub : BitVec 3) : List Nat :=
  (if sub.getLsbD 0 then [2 * dev] else []) ++ (if sub.getLsbD 1 then [2 * dev + 1] else [])

/-- `relatch` (R344): the buffer drains and the tokens leave; the wait for them is the core's. -/
def execRelatch (f : FormA) (s : State) : Out :=
  privileged (packA 0xA2 f) s fun s =>
    guarded f.gn f.guard lenA s fun s =>
      let c := s.core
      let owner := c.m = 2
      let sel := c.reg f.d
      let fn := if owner then fnOf (sel.setWidth 5) else fnOf c.fn
      let va := (c.reg f.a).toNat
      let n := (c.reg f.b).toNat
      checksOpen s [(owner && decide (sel.toNat ≥ 32), 0x45),
          (decide (va % 2 ^ 16 ≠ 0 || n % 2 ^ 16 ≠ 0 || va + n > 2 ^ 52), 0x45)] fun s =>
        let s := s.drainCore s.cur 4
        let dev := deviceOf s.cur
        let (s, seq) := s.sendRelatch dev fn (namedDies dev f.sub) va n
        wait s (.relatch seq.toNat f.d fn 0)

/-- Every token of a waiting `relatch` has emerged: it writes the sequence number and is done (R327, R344). -/
def execRelatchDone (t : Nat) (s : State) : Out :=
  match s.waitOf t with
  | some (.relatch seq d _ _) =>
    let dev := deviceOf t
    if s.emerged dev (BitVec.ofNat 32 seq) then
      let s : State := { s.endRelatch dev (BitVec.ofNat 32 seq) with cur := t }
      .next ((s.withCore (s.core.setReg d (BitVec.ofNat 64 seq))).resumed lenA)
    else .next s
  | _ => .next s

/-- Fc that a `relatch` waits (R344). -/
def relatchLimit : Nat := 2 ^ 22

/-- The wait of a `relatch` expires (R344): its issuer enters its handler, and the tenant it named is frozen (DEDUCED, log entry 42). -/
def execRelatchTimeout (t : Nat) (s : State) : Out :=
  match s.waitOf t with
  | some (.relatch seq _ fn waited) =>
    let dev := deviceOf t
    if waited < relatchLimit then .next s
    else
      let c := s.coreOf t
      let v := BitVec.ofNat 64 seq
      let s := s.endRelatch dev (BitVec.ofNat 32 seq)
      let s := if c.ih then s.doubleFault t 0x24 v else s.setCore t (c.enterHandler 0x24 (c.pc64 + 4) v)
      .next (s.freezeTenant dev fn 0x24 [coreCause t 0x24 v])
  | _ => .next s

/-! ### Saving and restoring contexts (R332 to R334) -/

/-- A target word's tile, function and scope. -/
def targetTile (v : Dword) : Nat := v.toNat % 2 ^ 8
def targetFn (v : Dword) : Nat := fnOf (v.extractLsb' 8 5)
def targetScope (v : Dword) : Nat := (v.extractLsb' 13 2).toNat

/-- Does a live region led by the tile hold another tile, or none lead (R332)? -/
def State.leadsNone (s : State) (t issuer : Nat) : Bool :=
  match mapGet s.regions t with
  | none => true
  | some r => r.tiles.contains issuer

/-- The core of a tile is not vacant for a restore (R332). -/
def Tile.occupied (x : Tile) : Bool := x.live.isSome || x.core.run ≠ .idle || x.core.actors ≠ []

/-- The table of R332, in order; `save` tells `ctxsv`, `bit1` is sub[1] and `hard` sub[0] of `ctxsv`. -/
def State.contextChecks (s : State) (save hard bit1 : Bool) (v va : Dword) : List (Bool × BitVec 7) :=
  let c := s.core
  let dev := deviceOf s.cur
  let fn := targetFn v
  let scope := targetScope v
  let t := dev * 160 + targetTile v
  let low := scope < 2
  let st := (s.tenant dev fn).state
  [(decide (scope = 3 || v.toNat ≥ 2 ^ 15), 0x45),
   (c.m = 1 && (fn ≠ fnOf c.fn || decide (scope = 2)), 0x03),
   (fn = 16 && decide (scope = 2), 0x45),
   (if low then !s.ownsTile dev fn (targetTile v) || decide (t = s.cur) || decide (va.toNat % 2 ^ 16 ≠ 0) else decide (va ≠ 0), 0x45),
   (bit1 && (decide low || (save && hard)), 0x45),
   (save && ((decide (scope = 0) && (s.tile t).live.isSome) || (decide (scope = 1) && s.leadsNone t s.cur)), 0x46),
   (!save && decide low && (s.tile t).occupied, 0x46),
   (decide (scope = 2) && (if save then !(st = .ready || st = .running) else !bit1 && !(st = .absent || st = .stopped)), 0x46)]

/-- The checks of R235 on a barrier where one is asked for. -/
def State.contextBarrier (s : State) (asked : Bool) (a : Dword) : List (Bool × BitVec 7 × Dword) :=
  if asked then s.barrierChecks s.core a else []

/-- The command joins the tier engine of the issuing die, the core's buffer drained at node scope (R229, R332). -/
def State.issueContext (s : State) (kind : CmdKind) (va : Dword) (bar : Option Dword) : State :=
  let c := s.core
  let s := s.drainCore s.cur 4
  let cmd : Cmd := { (default : Cmd) with
    kind := kind, w1 := 1, tile := s.cur, fn := fnOf c.fn, user := c.user, pc := c.pc, regs := [(1, va)], bar := bar
    stage := .running, engine := dieOf s.cur * 16 + 10 }
  { s with cmds := mapSet s.cmds s.nextCmd cmd, nextCmd := s.nextCmd + 1 }

/-- `ctxsv` (R332). -/
def execCtxsv (f : FormA) (s : State) : Out :=
  privileged (packA 0xA3 f) s fun s =>
    guarded f.gn f.guard lenA s fun s =>
      let c := s.core
      let v := c.reg f.a
      let va := c.reg f.b
      let bar := f.sub.getLsbD 2
      checksOpen s (s.contextChecks true (f.sub.getLsbD 0) (f.sub.getLsbD 1) v va) fun s =>
        checks s (s.contextBarrier bar (c.reg f.d)) fun s =>
          finish (s.issueContext (.ctxsv v (f.sub.getLsbD 0) (f.sub.getLsbD 1)) va
            (if bar then some (c.reg f.d) else none)) lenA

/-- A tenant start that its descriptor or its tree fails is found at issue (R314, R317). -/
def State.startCause (s : State) (v : Dword) (reset : Bool) : Option (BitVec 7) :=
  if targetScope v = 2 && !reset then
    match s.startTenant (dieOf s.cur) (deviceOf s.cur) (targetFn v) with
    | .error e => some e
    | .ok _ => none
  else none

/-- `ctxld` (R332). -/
def execCtxld (f : FormA) (s : State) : Out :=
  privileged (packA 0xA4 f) s fun s =>
    guarded f.gn f.guard lenA s fun s =>
      let c := s.core
      let v := c.reg f.a
      let va := c.reg f.b
      let reset := f.sub.getLsbD 1
      let bar := f.sub.getLsbD 2
      checksOpen s (s.contextChecks false false reset v va) fun s =>
        checks s (s.contextBarrier bar (c.reg f.d)) fun s =>
          match (s.drainCore s.cur 4).startCause v reset with
          | some e => raiseOpen s e
          | none => finish (s.issueContext (.ctxld v reset) va (if bar then some (c.reg f.d) else none)) lenA

/-- The command has done its whole action on n images at a VA of its space. -/
def State.contextDone (s : State) (n : Nat) (c : Cmd) (space va images : Nat) : State :=
  if (mapGet s.cmds n).isNone then s
  else s.setCmd n { c with
    stage := .complete, bytes := images * imageSize
    ranges := if images = 0 then [] else s.vaRanges (dieOf c.tile) space va (images * imageSize) }

/-- A soft save asks for holds and goes on once the regions stand; a hard one goes on at once, but behind a region that retires
(R178, R326, R328). -/
def State.whenSettled (s : State) (hard : Bool) (tiles : List Nat) (go : State → State) : State :=
  if hard then (if s.anyRetires tiles then s else go s)
  else
    let s := s.askHold tiles
    if s.allSettled tiles then go s else s

/-- `ctxsv` of tile or region scope (R326, R328, R332, R334). -/
def State.saveTiles (s : State) (n : Nat) (c : Cmd) (target : Dword) (hard : Bool) : State :=
  let dev := deviceOf c.tile
  let fn := targetFn target
  let t := dev * 160 + targetTile target
  let scope := targetScope target
  let tiles := if scope = 0 then [t] else ((mapGet s.regions t).map Region.tiles).getD []
  let tiles := (List.range 160).map (dev * 160 + ·) |>.filter tiles.contains
  if (scope = 0 && (s.tile t).live.isSome) || (scope ≠ 0 && s.leadsNone t c.tile) then s.cmdFault n 0x46
  else s.whenSettled hard tiles fun s =>
    match s.saveRun (dieOf c.tile) c.fn (some c.tile) fn hard c.r1.toNat tiles with
    | .fault _ _ _ => (s.removeCmd n).saveFails dev fn
    | .wait => s
    | .ok s _ => s.contextDone n c c.fn c.r1.toNat tiles.length

/-- Draft commands of a function on a device are in progress: they write on (R307). -/
def State.draftBusy (s : State) (dev fn : Nat) : Bool := s.cmds.any fun c => c.2.isDraft && c.2.fn = fn && deviceOf c.2.tile = dev

/-- The stop is over: the command completes, unless a failing save has made the tenant fatal (R334). -/
def State.stopDone (s : State) (n : Nat) (c : Cmd) (dev fn images : Nat) : State :=
  if (s.tenant dev fn).state = .fatal then s.removeCmd n
  else s.contextDone n c 16 (s.saveBase dev fn) images

/-- `ctxsv` of tenant scope (R316, R332, R339). -/
def State.stopTenant (s : State) (n : Nat) (c : Cmd) (fn : Nat) (hard rep : Bool) : State :=
  let dev := deviceOf c.tile
  let gdie := dieOf c.tile
  if rep then ((s.dirtyReport dev fn).map fun s => s.contextDone n c 16 0 0).getD s
  else match (s.tenant dev fn).state with
    | .ready =>
      if s.draftBusy dev fn then s else ((s.stopNow gdie dev fn hard false).map fun s => s.stopDone n c dev fn 0).getD s
    | .running =>
      let tiles := s.tilesOf dev fn
      let s := s.setTenant dev fn { s.tenant dev fn with leaving := true }
      s.whenSettled hard tiles fun s =>
        if s.draftBusy dev fn then s
        else ((s.stopNow gdie dev fn hard true).map fun s => s.stopDone n c dev fn tiles.length).getD s
    | .absent => s.cmdFault n 0x46
    | .stopped => s.cmdFault n 0x46
    | .fatal => s.cmdFault n 0x46

/-- The action of a `ctxsv` command (R332). -/
def State.ctxsvTurn (s : State) (n : Nat) (c : Cmd) (target : Dword) (hard rep : Bool) : State :=
  if targetScope target = 2 then s.stopTenant n c (targetFn target) hard rep else s.saveTiles n c target hard

/-- The run of tiles that a restore writes (R331): at region scope those saved with the first image, else the tile. -/
def State.restoreTiles (s : State) (scope t : Nat) (first : List Byte) : List Nat :=
  if scope = 0 || numAt first 0x314002 1 % 4 = imageFresh then [t]
  else match mapGet s.saved (numAt first 0x314040 8) with
    | some v => if v.run.contains t then v.run else [t]
    | none => [t]

/-- `ctxld` of tile or region scope (R331, R332, R334). The owner's waits for tiles that no RUNNING tenant holds (R315). -/
def State.loadTiles (s : State) (n : Nat) (c : Cmd) (target : Dword) : State :=
  let dev := deviceOf c.tile
  let gdie := dieOf c.tile
  let fn := targetFn target
  let t := dev * 160 + targetTile target
  match State.readVa gdie c.fn (some c.tile) (pagesOf imageSize) s c.r1.toNat imageSize with
  | .fault s _ _ => s.cmdFault n 0x23
  | .wait => s
  | .ok s first =>
    let tiles := s.restoreTiles (targetScope target) t first
    if tiles.any fun u => u = c.tile || !s.ownsTile dev fn (u % 160) || (s.tile u).occupied then s.cmdFault n 0x46
    else if fn = 16 && tiles.any s.tenantOn then s
    else match State.readRun gdie c.fn (some c.tile) fn dev s c.r1.toNat tiles with
      | .fault s _ _ => s.cmdFault n 0x23
      | .wait => s
      | .ok s images =>
        if s.steady tiles then (s.restoreRun gdie fn images).contextDone n c c.fn c.r1.toNat tiles.length else s

/-- The action of a `ctxld` command (R332, R333). -/
def State.ctxldTurn (s : State) (n : Nat) (c : Cmd) (target : Dword) (reset : Bool) : State :=
  let dev := deviceOf c.tile
  let fn := targetFn target
  if targetScope target ≠ 2 then s.loadTiles n c target
  else if reset then (s.resetTenant dev fn).contextDone n c 16 0 0
  else
    let st := (s.tenant dev fn).state
    if !(st = .absent || st = .stopped) then s.cmdFault n 0x46
    else match s.startTenant (dieOf c.tile) dev fn with
      | .error e => s.cmdFault n e
      | .ok none => s
      | .ok (some s) => s.contextDone n c 16 0 0

/-! ### Tensor-ID tables (R345) -/

/-- The checks that `tidw` and `tidr` make on their address, then on the ID. -/
def tidChecks (c : Core) (ea : Dword) (id : Dword) (s : State) (go : State → Out) : Out :=
  checks s (localChecks c ea.toNat 64) fun s => checksOpen s [(decide (id.toNat ≥ 2 ^ 9), 0x45)] go

/-- The dies whose table an ID names: both, or the issuer's. -/
def tidDies (t : Nat) (id : Dword) : List Nat :=
  if id.getLsbD 8 then [2 * deviceOf t, 2 * deviceOf t + 1] else [dieOf t]

/-- `tidw` (R345). -/
def execTidw (f : FormA) (s : State) : Out :=
  guarded f.gn f.guard lenA s fun s =>
    let c := s.core
    let ea := c.reg f.a
    let id := c.reg f.b
    tidChecks c ea id s fun s =>
      if s.loadAbsent ea.toNat 64 then wait s (.writeOnce (.tidw f))
      else
        let e := BitVec.ofNat 512 (s.loadLocal ea.toNat 64)
        if entBad e then raiseOpen s 0x32
        else finish ((tidDies s.cur id).foldl (fun (s : State) g => s.setTid g (fnOf c.fn) (id.toNat % 256) e) s) lenA

/-- `tidr` (R345). The entry is stored with the bits that it holds: that a dimension at or above the rank reads as 1 (R73) is
taken as what the units read (DEDUCED, log entry 68). -/
def execTidr (f : FormA) (s : State) : Out :=
  guarded f.gn f.guard lenA s fun s =>
    let c := s.core
    let ea := c.reg f.a
    let id := c.reg f.b
    tidChecks c ea id s fun s =>
      finish (s.storeLocal ea.toNat (toBytes (s.tid (dieOf s.cur) (fnOf c.fn) (id.toNat % 256)).toNat 64)) lenA

/-! ### Power controls (R407) -/

/-- The status word of a die. -/
def Die.powerStatus (d : Die) : Dword :=
  BitVec.ofNat 64 (d.step % 16 + d.vnow % 256 * 2 ^ 8 + d.vfloor % 256 * 2 ^ 16 + d.ceiling % 16 * 2 ^ 24 +
    (if d.denied then 2 ^ 32 else 0) + (if d.throttled then 2 ^ 33 else 0))

/-- `.cap` and `.lat` require mode 10 at decode. -/
def ownerOnly (sub : BitVec 3) (first : Word) (s : State) (go : State → Out) : Out :=
  if sub ≠ 0 && s.core.m ≠ 2 then raise s 0x03 (first.setWidth 64) else go s

/-- `.cap` sets the ceiling and `.lat` the tolerance. -/
def setPower (sub : BitVec 3) (v : Dword) (len : Nat) (s : State) : Out :=
  let g := dieOf s.cur
  let d := s.die g
  if sub = 1 then
    checksOpen s [(decide (v.toInt < 0 || v.toInt > 10), 0x45)] fun s => finish (s.setDie g { d with ceiling := v.toNat }) len
  else
    checksOpen s [(decide (v.toInt < 0 || v.toInt ≥ 2 ^ 32), 0x45)] fun s => finish (s.setDie g { d with tolerance := v.toNat }) len

/-- `pwr`, form A (R407). -/
def execPwrA (f : FormA) (s : State) : Out :=
  ownerOnly f.sub (packA 0xA7 f) s fun s =>
    guarded f.gn f.guard lenA s fun s =>
      if f.sub = 0 then writeReg s f.d (s.die (dieOf s.cur)).powerStatus lenA else setPower f.sub (s.core.reg f.b) lenA s
/-- `pwr`, form B. -/
def execPwrB (f : FormB) (s : State) : Out :=
  ownerOnly f.sub (firstB 0xA7 f) s fun s =>
    guarded f.gn f.guard lenB s fun s => setPower f.sub (imm16 false f.imm16) lenB s

/-! ### Counters (R347) -/

/-- Kinds of counter by number. -/
def coreCounter (n : Nat) : Bool := 0x100 ≤ n && n ≤ 0x103
def tenantCounter (n : Nat) : Bool := 0x200 ≤ n && n ≤ 0x207
def sharedCounter (n : Nat) : Bool := 0x300 ≤ n && n ≤ 0x304

/-- Where a tenant's view of a shared counter of a die stands. -/
def periodKey (gdie n : Nat) : Nat := gdie % 2 * 0x1000 + n

/-- A counter as the core of a tile reads it. -/
def State.counter (s : State) (t n : Nat) : Dword :=
  let c := s.coreOf t
  let dev := deviceOf t
  let x := s.tenant dev (fnOf c.fn)
  match n with
  | 0x000 => BitVec.ofNat 64 (s.device dev).micros
  | 0x100 => c.retired - c.retiredBase
  | 0x101 => c.waitFc
  | 0x102 => (s.tile t).unitFirings
  | 0x103 => c.firings
  | _ =>
    if tenantCounter n then (mapGet x.counters n).getD 0
    else if fnOf c.fn = 16 then (mapGet (s.die (dieOf t)).counters n).getD 0
    else (mapGet x.period (periodKey (dieOf t) n)).getD 0

/-- `cntr` (R347). -/
def execCntr (f : FormB) (s : State) : Out :=
  guarded f.gn f.guard lenB s fun s =>
    let n := f.imm16.toNat
    checksOpen s [(!(n = 0 || coreCounter n || tenantCounter n || sharedCounter n), 0x48)] fun s =>
      writeReg s f.d (s.counter s.cur n) lenB

/-- A counter of the core or of its tile is cleared. -/
def State.clearCore (s : State) (t n : Nat) : State :=
  let c := s.coreOf t
  match n with
  | 0x100 => s.setCore t { c with retiredBase := c.retired }
  | 0x101 => s.setCore t { c with waitFc := 0 }
  | 0x102 => s.setTile t { s.tile t with unitFirings := 0 }
  | _ => s.setCore t { c with firings := 0 }

/-- Counters of the core's function are cleared. -/
def State.clearTenant (s : State) (t : Nat) (p : Nat → Bool) : State :=
  let fn := fnOf (s.coreOf t).fn
  let x := s.tenant (deviceOf t) fn
  s.setTenant (deviceOf t) fn { x with counters := x.counters.filter fun c => !p c.1 }

/-- `cntc` (R347). -/
def execCntc (f : FormB) (s : State) : Out :=
  guarded f.gn f.guard lenB s fun s =>
    let n := f.imm16.toNat
    let t := s.cur
    checksOpen s [(!(n = 0x7FFF || coreCounter n || tenantCounter n || sharedCounter n), 0x48),
        (sharedCounter n && fnOf s.core.fn ≠ 16, 0x03)] fun s =>
      if n = 0x7FFF then
        finish (([0x100, 0x101, 0x102, 0x103].foldl (fun (s : State) n => s.clearCore t n) s).clearTenant t fun _ => true) lenB
      else if coreCounter n then finish (s.clearCore t n) lenB
      else if tenantCounter n then finish (s.clearTenant t (· = n)) lenB
      else
        let d := s.die (dieOf t)
        finish (s.setDie (dieOf t) { d with counters := mapErase d.counters n }) lenB

end Sys2Proof.Machine
end

