-- ==== Sys2Proof/Machine/Acts.lean ====
section
/-! DEFINITION. Acts that reach every family: seeps (R230), page walks (R194), the reads and writes of engines (R227), and the
ends of waits at which an instruction runs again (R182, R362). -/

namespace Sys2Proof.Machine

/-! ### Seeps -/

/-- The first agent number of memory nodes: below it stand the cores, by tile. -/
def nodeAgents : Nat := 2 ^ 20

/-- A byte of a snapshot takes the value in M. -/
def View.seep (v : View) (m : Memory) (a : Nat) : View := { v with sv := v.sv.set a (m.get a) }

/-- A byte seeps into an agent's snapshot (R230): core t is agent t, memory node m of tile t agent 2^20 + 16t + m. -/
def execSeep (agent addr : Nat) (s : State) : Out :=
  if agent < nodeAgents then
    let c := s.coreOf agent
    .next (s.setCore agent { c with view := c.view.seep s.mem addr })
  else
    let t := (agent - nodeAgents) / 16
    let slot := slotM ((agent - nodeAgents) % 16)
    match mapGet (s.tile t).units slot with
    | none => .next s
    | some u => .next (s.setUnit t slot { u with view := u.view.seep s.mem addr })

/-! ### Page walks -/

/-- Whom an address generator works for: function and governing tile. -/
def State.ageUser (s : State) (n : Nat) : Option (Nat × Nat) :=
  let u := ageUnit n
  let ofCmd (k : Nat) : Option (Nat × Nat) := (mapGet s.cmds k).map fun c => (c.fn, c.tile)
  match ageKind n with
  | 0 => (s.regionOf (u / 16)).map fun r => (r.2.fn, r.1)
  | 3 => (mapGet (s.die (u / 8)).engines (u % 8)).bind ofCmd
  | 4 => (mapGet (s.die (u / 2)).layouts (8 + u % 2)).bind fun l => ofCmd l.cmd
  | 5 => (mapGet s.contexts u).map fun g => (g.fn, g.home)
  | _ => some (fnOf (s.coreOf u).fn, u)

/-- An address generator walks for a page that no latch holds and fills a latch, but none that an access in flight names (R194,
R200). A walk that fails is found by the
access that needs it, but keeps the bits that it set (DESIGN CHOICE, log entry 45). -/
def execPageWalk (age va access : Nat) (s : State) : Out :=
  let g := s.namedAge age
  match s.ageUser age with
  | none => .next s
  | some (fn, tile) =>
    if g.stopped.isSome || g.latches.any (fun l => l.serves va access) then .next s
    else match s.translate (dieOf tile) fn tile g va access with
      | .ok s g _ _ => .next (s.setAge age g)
      | .fault s g _ => .next (s.setAge age g)
      | .wait => .next s

/-! ### Engines -/

/-- The command and its engine's address generator may act. -/
def State.engineMay (s : State) (c : Cmd) : Bool :=
  s.cmdMay c && c.stage = .running &&
  (if c.onCopy || c.isDraft then (s.age c.copyAgeNo).stopped.isNone else true)

/-- An engine reads for its command (R227): element, index, line or row k, or the next token of a port command. -/
def execEngineRead (cmd k : Nat) (s : State) : Out :=
  match mapGet s.cmds cmd with
  | none => .next s
  | some c =>
    if !s.engineMay c then .next s
    else match c.kind with
      | .sdload _ _ => .next (s.draftRead cmd k c)
      | .sdsave _ _ => .next s
      | .ctxld target reset => .next (s.ctxldTurn cmd c target reset)
      | .ctxsv _ _ _ => .next s
      | .tier op => .next (s.tierTurn cmd c op)
      | .stream _ =>
        if c.onCopy then .next (s.copyRead cmd k c)
        else if c.code = 0x07 then .next (s.weightRead cmd k c)
        else if c.code = 0x09 then .next (s.activationRead cmd k c)
        else match c.tierOp with
          | some op => .next (s.tierTurn cmd c op)
          | none => .next (s.localPortTurn cmd c)

/-- An engine writes for its command (R227): element, block or line k, the oldest write of a layout program, or the next token of
a port command. -/
def execEngineWrite (cmd k : Nat) (s : State) : Out :=
  match mapGet s.cmds cmd with
  | none => .next s
  | some c =>
    if !s.engineMay c then .next s
    else match c.kind with
      | .sdsave _ _ => .next (s.draftWrite cmd k c)
      | .sdload _ _ => .next s
      | .ctxsv target hard rep => .next (s.ctxsvTurn cmd c target hard rep)
      | .ctxld _ _ => .next s
      | .tier op => .next (s.tierTurn cmd c op)
      | .stream _ =>
        if c.code = 0x11 then .next (s.quantWrite cmd k c)
        else if c.onCopy then .next (s.copyWrite cmd k c)
        else if c.code = 0x0D then .next (s.layoutDrain c)
        else match c.tierOp with
          | some op => .next (s.tierTurn cmd c op)
          | none => .next (s.localPortTurn cmd c)

/-! ### Ends of waits -/

/-- An instruction that waited for its core's stream commands acts (R152, R182): it runs from its start, for nothing has changed
while it waited. -/
def execBeatInsnResume (t : Nat) (s : State) : Out :=
  match s.waitOf t with
  | some (.beat i) =>
    let r := s.rerun t
    match i with
    | .cfglA f => execCfglA f r
    | .cfglB f => execCfglB f r
    | .argwA f => execArgwA f r
    | .argwB f => execArgwB f r
    | .argwC f => execArgwC f r
    | .acrd f => execAcrd f r
    | .acclr f => execAcclr f r
    | .bsetA f => execBsetA f r
    | .bsetB f => execBsetB f r
    | .bget f => execBget f r
    | .bhold f => execBhold f r
    | .bgo f => execBgo f r
    | .rfstA f => execRfstA f r
    | .rfstB f => execRfstB f r
    | .rfclA f => execRfclA f r
    | .rfclB f => execRfclB f r
    | _ => .next s
  | _ => .next s

/-- The fields of the words at a core's pc. -/
def State.wordsAtPc (s : State) (t : Nat) : StreamWord :=
  match s.fetch t with
  | .words w x y z => unpackStream w x y z
  | .fails _ _ => s.ir

/-- A load that waited on an absent write-once word completes once the word is present (R362): its instruction runs from its
start, and waits again on a word that is still absent. -/
def execWriteOnceReadResume (t : Nat) (s : State) : Out :=
  match s.waitOf t with
  | some (.writeOnce i) =>
    let r := { s.rerun t with ir := s.wordsAtPc t }
    match i with
    | .ldA f => execLdA f r
    | .ldB f => execLdB f r
    | .ldC f => execLdC f r
    | .ldpA f => execLdpA f r
    | .ldpB f => execLdpB f r
    | .gldA f => execGldA f r
    | .gldB f => execGldB f r
    | .cfglA f => execCfglA f r
    | .cfglB f => execCfglB f r
    | .tidw f => execTidw f r
    | .dqpush f => execDqpush f r
    | .armA f => execArmA f r
    | .armB f => execArmB f r
    | .gsendA f => execGsendA f r
    | .gsendB f => execGsendB f r
    | .gsendoA f => execGsendoA f r
    | .gsendoB f => execGsendoB f r
    | .gsendXA f => execGsendXA f r
    | .gsendXB f => execGsendXB f r
    | .gstatA f => execGstatA f r
    | .gstatB f => execGstatB f r
    | .sdacc f => execSdacc f r
    | .scopy => execScopy r
    | .slay => execSlay r
    | _ => .next s
  | _ => .next s

end Sys2Proof.Machine
end

