-- ==== Sys2Proof/Machine/Control.lean ====
section
/-! DEFINITION. Row 0x0: control transfer and traps (R90 to R98). -/

namespace Sys2Proof.Machine

/-- The core whose turn it is jumps. -/
def jumpTo (s : State) (target : BitVec 48) : Out := .next (s.withCore (s.core.jump target))

/-- `nop` (R92). -/
def execNop (s : State) : Out := finish s lenA

/-- `br`, form B (R90). -/
def execBrB (f : FormB) (s : State) : Out :=
  guarded f.gn f.guard lenB s fun s => jumpTo s (branchTarget s.core (imm16 false f.imm16))
/-- `br`, form C. -/
def execBrC (f : FormC) (s : State) : Out :=
  guarded f.gn f.guard lenC s fun s => jumpTo s (branchTarget s.core (lit32 false f.lit32))

/-- R90: branch when the predicate that a names holds. -/
def branchPred (a : BitVec 5) (v : Dword) (len : Nat) (s : State) : Out :=
  if s.core.pred (a.setWidth 3) then jumpTo s (branchTarget s.core v) else finish s len

/-- `bp`, form B (R90). -/
def execBpB (f : FormB) (s : State) : Out :=
  guarded f.gn f.guard lenB s (branchPred f.a (imm16 false f.imm16) lenB)
/-- `bp`, form C. -/
def execBpC (f : FormC) (s : State) : Out :=
  guarded f.gn f.guard lenC s (branchPred f.a (lit32 false f.lit32) lenC)

/-- R90: the link register takes pc + length, and the pc the target. -/
def call (d : BitVec 5) (v : Dword) (len : Nat) (s : State) : Out :=
  let c := s.core
  .next (s.withCore ((c.setReg d (c.pc + BitVec.ofNat 48 len).toNat).jump (branchTarget c v)))

/-- `call`, form B (R90). -/
def execCallB (f : FormB) (s : State) : Out := guarded f.gn f.guard lenB s (call f.d (imm16 false f.imm16) lenB)
/-- `call`, form C. -/
def execCallC (f : FormC) (s : State) : Out := guarded f.gn f.guard lenC s (call f.d (lit32 false f.lit32) lenC)

/-- `ret` (R91). -/
def execRet (f : FormA) (s : State) : Out :=
  guarded f.gn f.guard lenA s fun s => jumpTo s ((s.core.reg f.a).setWidth 48)

/-- `jr` (R91): g[a] is read before g[d] is written. -/
def execJr (f : FormA) (s : State) : Out :=
  guarded f.gn f.guard lenA s fun s =>
    let c := s.core
    .next (s.withCore ((c.setReg f.d (c.pc + 4).toNat).jump ((c.reg f.a).setWidth 48)))

/-- `done` (R93): a node-scope boundary, then the firing ends. -/
def execDone (f : FormA) (s : State) : Out :=
  guarded f.gn f.guard lenA s fun s =>
    if s.biasWaits s.cur then .next s
    else
      let s := s.boundary s.cur 4
      .next (s.withCore s.core.done)

/-- R90: the counter falls by 1, and the branch is taken while it is not zero. -/
def loop (d : BitVec 5) (v : Dword) (len : Nat) (s : State) : Out :=
  let c := s.core
  let n := c.reg d - 1
  let s' := s.withCore (c.setReg d n)
  if n ≠ 0 then jumpTo s' (branchTarget c v) else finish s' len

/-- `loop`, form B (R90). -/
def execLoopB (f : FormB) (s : State) : Out := guarded f.gn f.guard lenB s (loop f.d (imm16 false f.imm16) lenB)
/-- `loop`, form C. -/
def execLoopC (f : FormC) (s : State) : Out := guarded f.gn f.guard lenC s (loop f.d (lit32 false f.lit32) lenC)

/-- The FIFO holds a record of a class that ss.evmask.wake wakes (R94, R95). -/
def Core.woken (c : Core) : Bool := c.events.any fun e => c.wake.getLsbD (e.toNat / 16 % 16)

/-- `wfe` (R95): it only advances when a woken record stands in the FIFO, and otherwise waits. -/
def execWfe (f : FormA) (s : State) : Out :=
  guarded f.gn f.guard lenA s fun s => if s.core.woken then finish s lenA else wait s .wfe

/-- An arrival of a woken class ends the wait of a `wfe` (R95). -/
def execWfeWake (t : Nat) (s : State) : Out :=
  let c := s.coreOf t
  match s.waitOf t with
  | some .wfe => if c.woken then .next (s.setCore t { (c.advance lenA) with run := .running }) else .next s
  | _ => .next s

/-- `trap` (R96): ss.fpc names the next instruction. -/
def execTrapB (f : FormB) (s : State) : Out :=
  guarded f.gn f.guard lenB s fun s => .next (s.takeTrap s.cur 0x07 (s.core.pc64 + 8) (f.imm16.setWidth 64))

/-- `eret` (R98), in modes 01 and 10. -/
def execEret (f : FormA) (s : State) : Out :=
  privileged (packA 0x0A f) s fun s =>
    guarded f.gn f.guard lenA s fun s => .next (s.withCore s.core.returnFromTrap)

/-- `brk` (R97): a core that a debugger has halts at it, the pc at the `brk` (R409; DEDUCED, log entry 71). -/
def execBrk (f : FormA) (s : State) : Out :=
  guarded f.gn f.guard lenA s fun s =>
    if s.core.attached then .next (s.withCore { s.core with held := true }) else .next (s.takeTrap s.cur 0x08 (s.core.pc64 + 4) 0)

/-- An idle core fires its next fireable actor (R274), unless it stands. -/
def execActorFiring (t : Nat) (s : State) : Out :=
  let x := s.tile t
  if x.core.run = .idle && !s.coreStands t then
    match x.fireables with
    | [] => .next s
    | n :: _ => match mapGet x.core.actors n with
      | some a => .next (s.setCore t (x.core.fire n a))
      | none => .next s
  else .next s

end Sys2Proof.Machine
end

