-- ==== Sys2Proof/Machine/ElArith.lean ====
section
/-! DEFINITION. Element operations 0x00 to 0x1D: integer (R132), FP32 (R133) and the transcendental ones (R134). -/

namespace Sys2Proof.Machine

/-- A 32-bit reading: unsigned under `.u` (sub[1]), else signed (R132). -/
def readEl (c : Ctx) (v : Word) : Int := if c.sub.testBit 1 then (v.toNat : Int) else v.toInt

/-- The result of an integer operation: clamped under `.sat` (sub[0]), else wrapped (R132). -/
def wrapEl (c : Ctx) (g : Word) (x : Int) : Rounded :=
  let x := if c.sub.testBit 0 then clampInt (rangeLo (!c.sub.testBit 1) 32) (rangeHi (!c.sub.testBit 1) 32) x else x
  plainResult g (x % 2 ^ 32).toNat

/-- `iadd` (R132). -/
def execElIadd (s : State) : Out := unitTurn (simple [0, 1] fun c g a b _ => wrapEl c g (readEl c a + readEl c b)) s
/-- `isub` (R132). -/
def execElIsub (s : State) : Out := unitTurn (simple [0, 1] fun c g a b _ => wrapEl c g (readEl c a - readEl c b)) s
/-- `imul` (R132). -/
def execElImul (s : State) : Out := unitTurn (simple [0, 1] fun c g a b _ => wrapEl c g (readEl c a * readEl c b)) s
/-- `imac` (R132): exact before the clamp or wrap. -/
def execElImac (s : State) : Out :=
  unitTurn (simple [0, 1, 2] fun c g a b d => wrapEl c g (readEl c a * readEl c b + readEl c d)) s
/-- `iand` (R132). -/
def execElIand (s : State) : Out := unitTurn (simple [0, 1] fun _ g a b _ => plainResult g (a &&& b).toNat) s
/-- `ior` (R132). -/
def execElIor (s : State) : Out := unitTurn (simple [0, 1] fun _ g a b _ => plainResult g (a ||| b).toNat) s
/-- `ixor` (R132). -/
def execElIxor (s : State) : Out := unitTurn (simple [0, 1] fun _ g a b _ => plainResult g (a ^^^ b).toNat) s
/-- `ishl` (R132): n = in1[4:0]. -/
def execElIshl (s : State) : Out :=
  unitTurn (simple [0, 1] fun c g a b _ => wrapEl c g (readEl c a * 2 ^ (b.toNat % 32))) s
/-- `ishr` (R132). -/
def execElIshr (s : State) : Out := unitTurn (simple [0, 1] fun _ g a b _ => plainResult g (a.toNat / 2 ^ (b.toNat % 32))) s
/-- `isar` (R132). -/
def execElIsar (s : State) : Out :=
  unitTurn (simple [0, 1] fun _ g a b _ => plainResult g (a.toInt / 2 ^ (b.toNat % 32) % 2 ^ 32).toNat) s
/-- `imin` (R132). -/
def execElImin (s : State) : Out :=
  unitTurn (simple [0, 1] fun c g a b _ => plainResult g (if readEl c a ≤ readEl c b then a else b).toNat) s
/-- `imax` (R132). -/
def execElImax (s : State) : Out :=
  unitTurn (simple [0, 1] fun c g a b _ => plainResult g (if readEl c a ≤ readEl c b then b else a).toNat) s
/-- `icmp` (R132): a condition of R105 over 32 bits. -/
def execElIcmp (s : State) : Out :=
  unitTurn (simple [0, 1] fun c g a b _ =>
    plainResult g (if condition (c.sub % 8) 32 a.toNat b.toNat then 1 else 0)) s
/-- `isel` (R132). -/
def execElIsel (s : State) : Out :=
  unitTurn (simple [0, 1, 2] fun _ g a b d => plainResult g (if a ≠ 0 then b else d).toNat) s

/-- A source under the unit's flush field (R133, R61). -/
def srcEl (c : Ctx) (v : Word) : Val := src32 c.w.flush v

/-- `fadd` (R133). -/
def execElFadd (s : State) : Out :=
  unitTurn (simple [0, 1] fun c g a b _ => add32 c.rm c.w.flush g (srcEl c a) (srcEl c b)) s
/-- `fsub` (R133). -/
def execElFsub (s : State) : Out :=
  unitTurn (simple [0, 1] fun c g a b _ => add32 c.rm c.w.flush g (srcEl c a) (srcEl c b).negate) s
/-- `fmul` (R133). -/
def execElFmul (s : State) : Out :=
  unitTurn (simple [0, 1] fun c g a b _ => mul32 c.rm c.w.flush g (srcEl c a) (srcEl c b)) s
/-- `fma` (R133): one rounding. -/
def execElFma (s : State) : Out :=
  unitTurn (simple [0, 1, 2] fun c g a b d => fma32 c.rm c.w.flush g false false (srcEl c a) (srcEl c b) (srcEl c d)) s
/-- `fmin` (R133, R115). -/
def execElFmin (s : State) : Out :=
  unitTurn (simple [0, 1] fun c g a b _ => minmax32 false g (srcEl c a) (srcEl c b)) s
/-- `fmax` (R133, R115). -/
def execElFmax (s : State) : Out :=
  unitTurn (simple [0, 1] fun c g a b _ => minmax32 true g (srcEl c a) (srcEl c b)) s
/-- `fcmp` (R133, R116). -/
def execElFcmp (s : State) : Out :=
  unitTurn (simple [0, 1] fun c g a b _ =>
    let r := compare32 (c.sub % 4) (srcEl c a) (srcEl c b)
    { bits := if r.1 then 1 else 0, flags := r.2, gen := g }) s
/-- `fabs` (R133): bit 31 cleared, no flag. -/
def execElFabs (s : State) : Out := unitTurn (simple [0] fun _ g a _ _ => plainResult g (a.toNat % 2 ^ 31)) s
/-- `fdiv` (R133). -/
def execElFdiv (s : State) : Out :=
  unitTurn (simple [0, 1] fun c g a b _ => div32 c.rm c.w.flush g (srcEl c a) (srcEl c b)) s
/-- `fsqrt` (R133). -/
def execElFsqrt (s : State) : Out := unitTurn (simple [0] fun c g a _ _ => sqrt32 c.rm c.w.flush g (srcEl c a)) s
/-- `frsq` (R134). -/
def execElFrsq (s : State) : Out := unitTurn (simple [0] fun c g a _ _ => frsq32 c.w.flush g a) s
/-- `fexp2` (R134). -/
def execElFexp2 (s : State) : Out := unitTurn (simple [0] fun c g a _ _ => fexp232 c.w.flush g a) s
/-- `flog2` (R134). -/
def execElFlog2 (s : State) : Out := unitTurn (simple [0] fun c g a _ _ => flog232 c.w.flush g a) s
/-- `ftanh` (R134). -/
def execElFtanh (s : State) : Out := unitTurn (simple [0] fun c g a _ _ => ftanh32 c.w.flush g a) s

end Sys2Proof.Machine
end

