-- ==== Sys2Proof/Machine/Flags.lean ====
section
/-! DEFINITION. How an FP32 op of the core takes its rounding mode and flush control, and what it leaves in ss.fpmode:
the sticky flags and the generator (R64, R81, R113). -/

namespace Sys2Proof.Machine

/-- The rounding mode that sub names: 0 is ss.fpmode.rm (R30, R113). -/
def Core.rounding (c : Core) (sub : BitVec 3) : BitVec 3 := if sub = 0 then c.rm else sub - 1

/-- The flush control of a form C op: ext32[1:0] 0 is ss.fpmode.flush, 1 flush, 2 keep (R30). -/
def Core.flushOf (c : Core) (ext : Word) : Bool :=
  match ext.toNat % 4 with
  | 0 => c.flush
  | 1 => true
  | _ => false

/-- Every flag an op raises is ORed into ss.fpmode.flags, and the generator moves on (R60, R113). -/
def Core.raiseFlags (c : Core) (r : Rounded) : Core := { c with flags := c.flags ||| r.flags, srgen := r.gen }

/-- Write an FP32 result, zero-extended, and its flags (R113). -/
def writeFp (s : State) (d : BitVec 5) (r : Rounded) (len : Nat) : Out :=
  finish (s.withCore ((s.core.raiseFlags r).setReg d (BitVec.ofNat 64 r.bits))) len

/-- An FP32 source: the low half of a register (R113). -/
def low32 (v : Dword) : Word := v.setWidth 32

end Sys2Proof.Machine
end

