-- ==== Sys2Proof/Machine/Fp.lean ====
section
/-! DEFINITION. Row 0x6: FP32 operations (R113 to R120). -/

namespace Sys2Proof.Machine

/-- What an FP32 op computes: mode, flush, generator, a, b and the old g[d]. -/
abbrev FpRule := BitVec 3 → Bool → Word → Word → Word → Word → Rounded

/-- An FP32 op in form A: the flush is ss.fpmode's (R113). -/
def fpA (r : FpRule) (f : FormA) (s : State) : Out :=
  guarded f.gn f.guard lenA s fun s =>
    let c := s.core
    writeFp s f.d (r (c.rounding f.sub) c.flush c.srgen (low32 (c.reg f.a)) (low32 (c.reg f.b)) (low32 (c.reg f.d))) lenA

/-- An FP32 op in form C: lit32 is the second source's pattern (R113). -/
def fpC (r : FpRule) (f : FormC) (s : State) : Out :=
  guarded f.gn f.guard lenC s fun s =>
    let c := s.core
    writeFp s f.d (r (c.rounding f.sub) (c.flushOf f.ext32) c.srgen (low32 (c.reg f.a)) f.lit32 (low32 (c.reg f.d))) lenC

/-- The bits of a with the sign of b (R119). -/
def fixedSign (g a b : Word) : Rounded := { bits := ((b &&& 0x80000000#32) ||| (a &&& 0x7FFFFFFF#32)).toNat, flags := flNone, gen := g }

/-- fadd: a + b -/
def rFadd : FpRule := fun rm fl g a b _ => add32 rm fl g (src32 fl a) (src32 fl b)
/-- fsub: a − b; a NaN keeps its sign -/
def rFsub : FpRule := fun rm fl g a b _ => add32 rm fl g (src32 fl a) (src32 fl b).negate
/-- fmul: a × b -/
def rFmul : FpRule := fun rm fl g a b _ => mul32 rm fl g (src32 fl a) (src32 fl b)
/-- fma: a × b + c -/
def rFma : FpRule := fun rm fl g a b c => fma32 rm fl g false false (src32 fl a) (src32 fl b) (src32 fl c)
/-- fms: a × b − c -/
def rFms : FpRule := fun rm fl g a b c => fma32 rm fl g false true (src32 fl a) (src32 fl b) (src32 fl c)
/-- fnma: −(a × b) + c -/
def rFnma : FpRule := fun rm fl g a b c => fma32 rm fl g true false (src32 fl a) (src32 fl b) (src32 fl c)
/-- fdiv: a / b -/
def rFdiv : FpRule := fun rm fl g a b _ => div32 rm fl g (src32 fl a) (src32 fl b)
/-- fsqrt: √a -/
def rFsqrt : FpRule := fun rm fl g a _ _ => sqrt32 rm fl g (src32 fl a)
/-- fmin (R115) -/
def rFmin : FpRule := fun _ fl g a b _ => minmax32 false g (src32 fl a) (src32 fl b)
/-- fmax (R115) -/
def rFmax : FpRule := fun _ fl g a b _ => minmax32 true g (src32 fl a) (src32 fl b)
/-- frnd (R120) -/
def rFrnd : FpRule := fun rm fl g a _ _ => integral32 rm g (src32 fl a)
/-- fsgn (R119): the sign of b on a; no flag -/
def rFsgn : FpRule := fun _ _ g a b _ => fixedSign g a b

/-- `fadd`, form A. -/
def execFaddA (f : FormA) (s : State) : Out := fpA rFadd f s
/-- `fadd`, form C. -/
def execFaddC (f : FormC) (s : State) : Out := fpC rFadd f s

/-- `fsub`, form A. -/
def execFsubA (f : FormA) (s : State) : Out := fpA rFsub f s
/-- `fsub`, form C. -/
def execFsubC (f : FormC) (s : State) : Out := fpC rFsub f s

/-- `fmul`, form A. -/
def execFmulA (f : FormA) (s : State) : Out := fpA rFmul f s
/-- `fmul`, form C. -/
def execFmulC (f : FormC) (s : State) : Out := fpC rFmul f s

/-- `fma`, form A. -/
def execFmaA (f : FormA) (s : State) : Out := fpA rFma f s
/-- `fma`, form C. -/
def execFmaC (f : FormC) (s : State) : Out := fpC rFma f s

/-- `fms`, form A. -/
def execFmsA (f : FormA) (s : State) : Out := fpA rFms f s
/-- `fms`, form C. -/
def execFmsC (f : FormC) (s : State) : Out := fpC rFms f s

/-- `fnma`, form A. -/
def execFnmaA (f : FormA) (s : State) : Out := fpA rFnma f s
/-- `fnma`, form C. -/
def execFnmaC (f : FormC) (s : State) : Out := fpC rFnma f s

/-- `fdiv`, form A. -/
def execFdivA (f : FormA) (s : State) : Out := fpA rFdiv f s
/-- `fdiv`, form C. -/
def execFdivC (f : FormC) (s : State) : Out := fpC rFdiv f s

/-- `fmin`, form A. -/
def execFminA (f : FormA) (s : State) : Out := fpA rFmin f s
/-- `fmin`, form C. -/
def execFminC (f : FormC) (s : State) : Out := fpC rFmin f s

/-- `fmax`, form A. -/
def execFmaxA (f : FormA) (s : State) : Out := fpA rFmax f s
/-- `fmax`, form C. -/
def execFmaxC (f : FormC) (s : State) : Out := fpC rFmax f s

/-- `fsgn`, form A. -/
def execFsgnA (f : FormA) (s : State) : Out := fpA rFsgn f s
/-- `fsgn`, form C. -/
def execFsgnC (f : FormC) (s : State) : Out := fpC rFsgn f s

/-- `fsqrt` (R114). -/
def execFsqrt (f : FormA) (s : State) : Out := fpA rFsqrt f s
/-- `frnd` (R120). -/
def execFrnd (f : FormA) (s : State) : Out := fpA rFrnd f s

/-- R116: the condition in d[4:3] to the predicate in d[2:0]. -/
def fcmp (d : BitVec 5) (flush : Bool) (a b : Word) (len : Nat) (s : State) : Out :=
  let (p, fl) := compare32 (d.toNat / 8) (src32 flush a) (src32 flush b)
  finish (s.withCore ({ s.core with flags := s.core.flags ||| fl }.setPred (d.setWidth 3) p)) len

/-- `fcmp`, form A (R116). -/
def execFcmpA (f : FormA) (s : State) : Out :=
  guarded f.gn f.guard lenA s fun s =>
    fcmp f.d s.core.flush (low32 (s.core.reg f.a)) (low32 (s.core.reg f.b)) lenA s
/-- `fcmp`, form C. -/
def execFcmpC (f : FormC) (s : State) : Out :=
  guarded f.gn f.guard lenC s fun s =>
    fcmp f.d (s.core.flushOf f.ext32) (low32 (s.core.reg f.a)) f.lit32 lenC s

/-- An integer destination of `fcvt`: width and range (R117). -/
def toInteger (w : Nat) (lo hi : Int) (rm : BitVec 3) (gen : Word) (v : Val) : Rounded :=
  match v with
  | .fin n m e => roundInt w lo hi rm gen n (magOf m e)
  | .zero _ => { bits := 0, flags := flNone, gen := drawIf rm gen }
  | .inf n => { bits := ((if n then lo else hi) % (2 : Int) ^ w).toNat, flags := flInvalid, gen := gen }
  | _ => { bits := 0, flags := flInvalid, gen := gen }

/-- A signed range of w bits. -/
def toSigned (w : Nat) (rm : BitVec 3) (gen : Word) (v : Val) : Rounded :=
  toInteger w (-(2 : Int) ^ (w - 1)) (2 ^ (w - 1) - 1) rm gen v
/-- An unsigned range of w bits. -/
def toUnsigned (w : Nat) (rm : BitVec 3) (gen : Word) (v : Val) : Rounded := toInteger w 0 (2 ^ w - 1) rm gen v

/-- An integer to FP32 by the mode. -/
def fromInteger (rm : BitVec 3) (flush : Bool) (gen : Word) (x : Int) : Rounded :=
  convert fFP32 rm flush gen (Val.ofInt x)

/-- A widening to FP32 (R117): exact, so it rounds nothing and takes no draw (DEDUCED, log entry 20); a signalling NaN is quieted and
raises invalid. -/
def widen (f : Nat) (flush : Bool) (gen : Word) (bits : Nat) : Rounded :=
  convert fFP32 rmRNE flush gen (decodeFlush f flush bits)

/-- The conversion that b names (R117). -/
def fcvtRule (code : Nat) (rm : BitVec 3) (flush : Bool) (gen : Word) (a : Dword) : Rounded :=
  let v := src32 flush (low32 a)
  match code with
  | 0 => toSigned 64 rm gen v
  | 1 => toUnsigned 64 rm gen v
  | 2 => let r := toSigned 32 rm gen v
         { r with bits := (toDword (signExt r.bits 32)).toNat }
  | 3 => toUnsigned 32 rm gen v
  | 4 => fromInteger rm flush gen (signExt a.toNat 64)
  | 5 => fromInteger rm flush gen a.toNat
  | 6 => fromInteger rm flush gen (signExt a.toNat 32)
  | 7 => fromInteger rm flush gen (a.toNat % 2 ^ 32 : Nat)
  | 8 => convert fFP16 rm flush gen v
  | 9 => widen fFP16 flush gen (a.toNat % 2 ^ 16)
  | 10 => convert fBF16 rm flush gen v
  | _ => widen fBF16 flush gen (a.toNat % 2 ^ 16)

/-- `fcvt` (R117). -/
def execFcvt (f : FormA) (s : State) : Out :=
  guarded f.gn f.guard lenA s fun s =>
    let c := s.core
    writeFp s f.d (fcvtRule f.b.toNat (c.rounding f.sub) c.flush c.srgen (c.reg f.a)) lenA

/-- `fclass` (R118). -/
def execFclass (f : FormA) (s : State) : Out :=
  guarded f.gn f.guard lenA s fun s => writeReg s f.d (BitVec.ofNat 64 (2 ^ class32 (low32 (s.core.reg f.a)))) lenA

end Sys2Proof.Machine
end

