-- ==== Sys2Proof/Machine/ElConv.lean ====
section
/-! DEFINITION. Element operations 0x20 to 0x27: conversions, packing and block quantization (R135, R136). -/

namespace Sys2Proof.Machine

/-- Format and width of the unit's entry. -/
def Ctx.fmt (c : Ctx) : Nat := entFormat c.ent
def Ctx.width (c : Ctx) : Nat := fmtWidth c.fmt

/-- What `cvtin` makes of a pattern (R135): exact for every matrix format, so that no flush applies (DEDUCED, log entry 23);
an E4M3 NaN gives the canonical NaN and no flag, NaR the canonical NaN and invalid. -/
def cvtinRule (f : Nat) (gen : Word) (bits : Nat) : Rounded :=
  if f = fE4M3 && (decodeVal f bits).isNan then { bits := canonicalNan fp32, flags := 0, gen := gen }
  else convert fFP32 rmRNE false gen (decodeVal f bits)

/-- `cvtin`. -/
def execElCvtin (s : State) : Out :=
  unitTurn (simple [0] fun c g a _ _ => cvtinRule c.fmt g (a.toNat % 2 ^ c.width)) s
/-- `cvtout` (R135). -/
def execElCvtout (s : State) : Out :=
  unitTurn (simple [0] fun c g a _ _ => convert c.fmt c.rm c.w.flush g (src32 c.w.flush a)) s
/-- `itof` (R135): UINT32 when sub[0] = 1. -/
def execElItof (s : State) : Out :=
  unitTurn (simple [0] fun c g a _ _ =>
    fromInteger c.rm c.w.flush g (if c.sub.testBit 0 then (a.toNat : Int) else a.toInt)) s
/-- `ftoi` (R135). -/
def execElFtoi (s : State) : Out :=
  unitTurn (simple [0] fun c g a _ _ =>
    if c.sub.testBit 0 then toUnsigned 32 c.rm g (src32 c.w.flush a) else toSigned 32 c.rm g (src32 c.w.flush a)) s

/-! ### Packing (R57, R135) -/

/-- Elements that a group of whole words holds: 16 in 3 words when w = 6, else one word's. -/
def groupLen (w : Nat) : Nat := if w = 6 then 16 else 32 / w

/-- The elements collected, as one number, the first lowest. -/
def packed (w : Nat) (ks : List Token) : Nat := ks.foldr (fun k n => k.data.toNat % 2 ^ w + n * 2 ^ w) 0

/-- Word j of a packed number. -/
def wordAt (v j : Nat) : Word := BitVec.ofNat 32 (v / 2 ^ (32 * j))

/-- `pack` (R135): each word leaves when it is complete. At a marker the words begun are filled with zero bits; those
are the words that hold a bit of an element collected (DEDUCED, log entry 23). -/
def packEl1 (c : Ctx) (s : State) : Option State :=
  match s.peekIn c 0 with
  | none => none
  | some k =>
    let s := s.takeIn c 0
    let u := s.unitOf c
    let w := c.width
    if k.isData then
      let n := u.buf.length + 1
      let buf := u.buf ++ [k]
      let word := if n * w / 32 = u.buf.length * w / 32 then [] else [dataTok (wordAt (packed w buf) (n * w / 32 - 1))]
      some ((s.setUnitOf c { u with buf := if n = groupLen w then [] else buf }).put c word)
    else if k.isErr then some (s.put c [k])
    else
      let n := u.buf.length * w
      let rest := if n % 32 = 0 then [] else [dataTok (wordAt (packed w u.buf) (n / 32))]
      some ((s.setUnitOf c { u with buf := [] }).put c (rest ++ [k]))

/-- `pack`. -/
def execElPack (s : State) : Out := unitTurn packEl1 s

/-- `unpack` (R135): the elements that an arriving word completes, low first; k caps what a row emits. `w` holds the
count emitted since the last marker. -/
def unpackEl1 (c : Ctx) (s : State) : Option State :=
  match s.peekIn c 0 with
  | none => none
  | some k =>
    let s := s.takeIn c 0
    let u := s.unitOf c
    let w := c.width
    if k.isData then
      let buf := u.buf ++ [k]
      let v := packed 32 buf
      let from' := u.buf.length * 32 / w
      let upto := buf.length * 32 / w
      let count := (u.w.headD 0).toNat
      let room := if c.w.k = 0 then upto - from' else min (upto - from') (c.w.k.toNat - count)
      let out := (List.range room).map fun i => dataTok (BitVec.ofNat 32 (v / 2 ^ (w * (from' + i)) % 2 ^ w))
      let buf := if w = 6 && buf.length < 3 then buf else []
      some ((s.setUnitOf c { u with buf := buf, w := [BitVec.ofNat 32 (count + room)] }).put c out)
    else if k.isErr then some (s.put c [k])
    else some ((s.setUnitOf c { u with buf := [], w := [] }).put c [k])

/-- `unpack`. -/
def execElUnpack (s : State) : Out := unitTurn unpackEl1 s

/-! ### Holding a block's value (R136) -/

/-- How `quant` and `scale` go on: `w` holds the DATA tokens of the block, then 1 when the held token has been consumed
and the marker of in1 is awaited; `held` is in1's token while a block is open. Where both inputs name one source, the held token
left it with the first firing (R126). -/
def heldTurn (first : Ctx → Token → List Token) (convert1 : Ctx → Word → Word → Token → Rounded) (c : Ctx) (s : State) :
    Option State :=
  let k1 := elInput c.w 1 = selK
  let h0 := s.peekIn c 0
  let h1 := s.peekIn c 1
  let u := s.unitOf c
  let count := (u.w.headD 0).toNat
  let awaiting := u.w.length = 2
  let reset (s : State) : State := s.setUnitOf c { s.unitOf c with held := none, w := [] }
  match h0, h1, u.held with
  | some a, h1, held =>
    if a.isErr then some ((s.takeIn c 0).put c [a])
    else if (match h1 with
      | some b => b.isErr
      | none => false) then some ((s.takeIn c 1).put c (h1.toList))
    else if a.isData then
      if awaiting then none
      else match held with
        | some b =>
          if count < blockLen (entScale c.ent) then
            let r := convert1 c u.gen a.data b
            let s := (s.takeIn c 0).setUnitOf c { u with gen := r.gen, w := [BitVec.ofNat 32 (count + 1)] }
            some ((s.raiseRegion c.l r.flags).put c [dataTok (BitVec.ofNat 32 r.bits)])
          else some ((s.takeIn c 0).put c [s.errOf c 0x14])
        | none => match h1 with
          | none => none
          | some b =>
            if b.isData then
              let r := convert1 c u.gen a.data b
              let s := (s.takeIn c 0).setUnitOf c { u with gen := r.gen, held := some b, w := [1] }
              some ((s.raiseRegion c.l r.flags).put c (first c b ++ [dataTok (BitVec.ofNat 32 r.bits)]))
            else some ((s.takeAll c [0, 1] []).put c [s.errOf c 0x14])
    else if k1 then some ((reset (s.takeIn c 0)).put c [a])
    else if held.isSome && elInput c.w 0 ≠ elInput c.w 1 then
      let s := s.takeIn c 1
      some (s.setUnitOf c { s.unitOf c with held := none, w := [BitVec.ofNat 32 count, 1] })
    else match h1 with
      | none => none
      | some b =>
        let s := reset (s.takeAll c [0, 1] [])
        some (s.put c [if b.kind = a.kind then a else s.errOf c 0x14])
  | none, some b, none => if b.isErr then some ((s.takeIn c 1).put c [b]) else none
  | none, _, _ => none

/-- `quant` (R136, R72): with sub[0] = 0 the scale's pattern leaves first. The element's rm field rounds, and with rm = 110 the
entry's mode (DEDUCED, log entry 77). -/
def execElQuant (s : State) : Out :=
  unitTurn (heldTurn
    (fun c b => if c.sub.testBit 0 then []
      else [dataTok (BitVec.ofNat 32 (chooseScale (entScale c.ent) c.fmt (src32 c.w.flush b.data)))])
    (fun c g a b =>
      let m := entScale c.ent
      divideRound c.fmt c.rm c.w.flush g (src32 c.w.flush a)
        (decodeVal (scaleFmt m) (chooseScale m c.fmt (src32 c.w.flush b.data))))) s

/-- `scale` (R135, R136): FP32 in0 times the decoded scale, rounded once. -/
def execElScale (s : State) : Out :=
  unitTurn (heldTurn (fun _ _ => [])
    (fun c g a b => mul32 c.rm c.w.flush g (src32 c.w.flush a) (decodeVal (scaleFmt (entScale c.ent)) (b.data.toNat % 256)))) s

end Sys2Proof.Machine
end

