-- ==== Sys2Proof/Machine/ElStream.lean ====
section
/-! DEFINITION. Element operations 0x28 to 0x33: marker reductions and streams (R137 to R140). -/

namespace Sys2Proof.Machine

/-! ### Reductions (R137): `w` holds the value gathered -/

/-- The value of an empty row, by sub[0]: FP32 or INT32 (R137). -/
def emptyRow (op : Nat) (int : Bool) : Word :=
  match op with
  | 0x29 => if int then 0x80000000 else 0xFF800000
  | 0x2B => if int then 0x7FFFFFFF else 0x7F800000
  | _ => 0

/-- The value gathered so far. -/
def gathered (c : Ctx) (u : UnitState) : Word := u.w.headD (emptyRow c.op (c.sub.testBit 0))

/-- rmaxabs: the greatest magnitude; any NaN gives 0x7FC0_0000, and a signalling one raises invalid (R62, R137;
DEDUCED, log entry 23). -/
def maxAbs (c : Ctx) (g : Word) (v x : Word) : Rounded :=
  let a := src32 c.w.flush x
  let fl := if a.signalling then flInvalid else flNone
  if a.isNan || v = 0x7FC00000 then { bits := 0x7FC00000, flags := fl, gen := g }
  else { bits := max v.toNat (exactBits a % 2 ^ 31), flags := fl, gen := g }

/-- The value gathered after a DATA token (R137). -/
def foldRow (c : Ctx) (g : Word) (v x : Word) : Rounded :=
  let int := c.sub.testBit 0
  if c.op = 0x2C then plainResult g (v + 1).toNat
  else if c.op = 0x2A then maxAbs c g v x
  else if c.op = 0x29 then
    (if int then plainResult g (if x.toInt ≤ v.toInt then v else x).toNat
     else minmax32 true g (src32 c.w.flush v) (src32 c.w.flush x))
  else if c.op = 0x2B then
    (if int then plainResult g (if v.toInt ≤ x.toInt then v else x).toNat
     else minmax32 false g (src32 c.w.flush v) (src32 c.w.flush x))
  else if int then plainResult g (v + x).toNat
  else add32 c.rm c.w.flush g (src32 c.w.flush v) (src32 c.w.flush x)

/-- The firing of a reduction (R137). -/
def reduction (c : Ctx) (s : State) : Option State :=
  match s.peekIn c 0 with
  | none => none
  | some k =>
    let s := s.takeIn c 0
    let u := s.unitOf c
    if k.isData then
      let r := foldRow c u.gen (gathered c u) k.data
      some ((s.setUnitOf c { u with w := [BitVec.ofNat 32 r.bits], gen := r.gen }).raiseRegion c.l r.flags)
    else if k.ends then some ((s.setUnitOf c { u with w := [] }).put c [dataTok (gathered c u), k])
    else if k.isErr then some ((s.setUnitOf c { u with w := [] }).put c [k])
    else some (s.put c [k])

/-- `rsum` (R137). -/
def execElRsum (s : State) : Out := unitTurn reduction s
/-- `rmax` (R137). -/
def execElRmax (s : State) : Out := unitTurn reduction s
/-- `rmaxabs` (R137). -/
def execElRmaxabs (s : State) : Out := unitTurn reduction s
/-- `rmin` (R137). -/
def execElRmin (s : State) : Out := unitTurn reduction s
/-- `rcnt` (R137). -/
def execElRcnt (s : State) : Out := unitTurn reduction s

/-- `scan` (R138): the running sum after each DATA token; a marker passes and resets the sum. -/
def execElScan (s : State) : Out :=
  unitTurn (fun c s => match s.peekIn c 0 with
    | none => none
    | some k =>
      let s := s.takeIn c 0
      let u := s.unitOf c
      if k.isData then
        let r := foldRow c u.gen (gathered c u) k.data
        let v := BitVec.ofNat 32 r.bits
        some (((s.setUnitOf c { u with w := [v], gen := r.gen }).raiseRegion c.l r.flags).put c [dataTok v])
      else if k.isErr then some (s.put c [k])
      else some ((s.setUnitOf c { u with w := [] }).put c [k])) s

/-! ### Streams (R138) -/

/-- `mstrip` (R138). -/
def execElMstrip (s : State) : Out :=
  unitTurn (fun c s => match s.peekIn c 0 with
    | none => none
    | some k =>
      let s := s.takeIn c 0
      let drop := (k.kind = kEor && c.sub.testBit 0) || (k.kind = kEot && c.sub.testBit 1) ||
        (k.kind = kBound && c.sub.testBit 2)
      some (if drop then s else s.put c [k])) s

/-- `mins` (R138): `w` holds the DATA tokens since the last EOR, or 1 once the prefix has been emitted. -/
def execElMins (s : State) : Out :=
  unitTurn (fun c s =>
    let u := s.unitOf c
    if c.sub = 1 && u.w = [] then some ((s.setUnitOf c { u with w := [1] }).put c [dataTok c.w.k])
    else match s.peekIn c 0 with
      | none => none
      | some k =>
        let s := s.takeIn c 0
        if c.sub = 1 then some (s.put c [k])
        else if k.isData then
          let n := u.w.headD 0 + 1
          if c.w.k.toNat ≤ n.toNat then some ((s.setUnitOf c { s.unitOf c with w := [] }).put c [k, eorTok])
          else some ((s.setUnitOf c { s.unitOf c with w := [n] }).put c [k])
        else if k.ends then some ((s.setUnitOf c { s.unitOf c with w := [] }).put c [k])
        else some (s.put c [k])) s

/-- `const` (R138). -/
def execElConst (s : State) : Out :=
  unitTurn (fun c s => match s.peekIn c 0 with
    | none => none
    | some k => some ((s.takeIn c 0).put c [if k.isData then dataTok c.w.k else k])) s

/-- `iota` (R138): `w` holds the counter, which starts at k. -/
def execElIota (s : State) : Out :=
  unitTurn (fun c s => match s.peekIn c 0 with
    | none => none
    | some k =>
      let s := s.takeIn c 0
      let u := s.unitOf c
      let n := u.w.headD c.w.k
      if k.isData then some ((s.setUnitOf c { u with w := [n + 1] }).put c [dataTok n])
      else if k.isErr then some (s.put c [k])
      else some ((s.setUnitOf c { u with w := [] }).put c [k])) s

/-- Intake of a `delay` (R140): it takes a token while it holds fewer than k, the one in its output slot included. -/
def execElDelayIntake (s : State) : Out :=
  let t := s.cur
  let slot := s.slot
  match s.regionOf t, (s.tile t).el slot with
  | some (l, _), some w =>
    let c : Ctx := { l := l, t := t, slot := slot, w := w, op := 0x30, ent := 0 }
    let u := s.unitOf c
    if u.buf.length + u.out.length < w.k.toNat then
      match s.peekIn c 0 with
      | none => .next s
      | some k =>
        let s := s.takeIn c 0
        .next (s.setUnitOf c { s.unitOf c with buf := (s.unitOf c).buf ++ [k] })
    else .next s
  | _, _ => .next s

/-- Output of a `delay` (R140): its oldest token moves into its output slot when that is empty, while its region acts. -/
def execElDelayOutput (t slot : Nat) (s : State) : Out :=
  match s.regionOf t, (s.tile t).el slot with
  | some (l, r), some _ =>
    if (s.tile t).elOp slot ≠ 0x30 || !r.acts || !s.mayRun (deviceOf t) r.fn || s.tileStops t then .next s
    else
      let s := State.deliver l t slot ((s.tile t).unitAt slot).out.length s
      let u := (s.tile t).unitAt slot
      match u.out, u.buf with
      | [], k :: r =>
        let s := (s.setUnit t slot { u with buf := r }).emit t slot [k]
        .next (State.deliver l t slot 1 s)
      | _, _ => .next s
  | _, _ => .next s

end Sys2Proof.Machine
end

