-- ==== Sys2Proof/Machine/ElSwitch.lean ====
section
/-! DEFINITION. Element operations 0x34 to 0x38, switching (R141), and 0x50 to 0x52, the LUT islands (R142 to R144). -/

namespace Sys2Proof.Machine

/-- `sel` (R141). An ERR on in1 or in2 passes only once the index selects it. -/
def execElSel (s : State) : Out :=
  unitTurn (fun c s => match s.peekIn c 0 with
    | none => none
    | some k =>
      if k.isErr then some ((s.takeIn c 0).put c [k])
      else if k.isData then
        if k.data.toNat ≥ 2 then some ((s.takeIn c 0).put c [s.errOf c 0x15])
        else match s.peekIn c (1 + k.data.toNat) with
          | none => none
          | some v => some ((s.takeAll c [0, 1 + k.data.toNat] []).put c [v])
      else match s.peekIn c 1, s.peekIn c 2 with
        | some a, some b =>
          some ((s.takeAll c [0, 1, 2] []).put c
            [if a.kind = k.kind && b.kind = k.kind then k else s.errOf c 0x14])
        | _, _ => none) s

/-- `dsel` (R141). An ERR on either input passes as in R128; the exception of R141 is for `sel` alone (DEDUCED, log entry 23).
A marker against the constant k is not the same marker and gives the ERR 0x14. -/
def execElDsel (s : State) : Out :=
  unitTurn (fun c s =>
    let h := s.peekIn c 1
    let k0 := s.peekIn c 0
    match s.gather c [0, 1] with
    | (_, .wait) => none
    | (s, .err k) => some (s.put c [k])
    | (s, _) => match k0, h with
      | some k, some v =>
        if !k.isData then some (s.put c [if v.kind = k.kind then k else s.errOf c 0x14])
        else if k.data.toNat > c.sub then some (s.put c [s.errOf c 0x15])
        else some (if k.data.toNat = c.w.k.toNat % 256 then s.put c [v] else s)
      | _, _ => none) s

/-- `join` (R141): every used input holds a token of any kind; in0's leaves. -/
def execElJoin (s : State) : Out :=
  unitTurn (fun c s =>
    let h := s.peekIn c 0
    match s.gather c [0, 1, 2] with
    | (_, .wait) => none
    | (s, .err k) => some (s.put c [k])
    | (s, _) => some (s.put c (h.toList))) s

/-- `gate` (R141). -/
def execElGate (s : State) : Out :=
  unitTurn (fun c s => match s.gather c [0, 1] with
    | (_, .wait) => none
    | (s, .err k) => some (s.put c [k])
    | (s, .marker k) => some (s.put c [k])
    | (s, .mixed) => some (s.put c [s.errOf c 0x14])
    | (s, .data vs) => some (if vs[1]?.getD 0 ≠ 0 then s.put c [dataTok (vs[0]?.getD 0)] else s)) s

/-- `err` (R141). -/
def execElErr (s : State) : Out :=
  unitTurn (fun c s => match s.peekIn c 0 with
    | none => none
    | some k =>
      some ((s.takeIn c 0).put c [if k.isData && k.data ≠ 0 then s.errOf c (c.w.k.setWidth 7) else k])) s

/-! ### LUT islands -/

/-- Table j of island i (R142). -/
def Tile.lutTable (x : Tile) (i j : Nat) : BitVec 16 := (x.slot (slotLt (8 * i + j / 8))).extractLsb' (16 * (j % 8)) 16

/-- R143 for bits i upward, with the chain's input. -/
def lutBits (x : Tile) (isl : Nat) (a b d : Word) : Nat → Nat → Bool → Nat
  | 0, _, _ => 0
  | n + 1, i, y =>
    let v := (a.getLsbD i).toNat + 2 * (b.getLsbD i).toNat + 4 * (d.getLsbD i).toNat + 8 * y.toNat
    (if (x.lutTable isl i).getLsbD v then 2 ^ i else 0) +
      lutBits x isl a b d n (i + 1) ((x.lutTable isl (32 + i)).getLsbD v)

/-- `lut` (R143): the chain's first input is k[0]. -/
def execElLut (s : State) : Out :=
  unitTurn (fun c s' =>
    simple [0, 1, 2] (fun c g a b d =>
      plainResult g (lutBits (s'.tile c.t) (c.slot - 256) a b d 32 0 (c.w.k.getLsbD 0))) c s') s

/-- Field width of `bsplit` and `bjoin` (R144). -/
def Ctx.field (c : Ctx) : Nat := 2 ^ (c.sub % 8)

/-- `bsplit` (R144). -/
def execElBsplit (s : State) : Out :=
  unitTurn (fun c s => match s.peekIn c 0 with
    | none => none
    | some k =>
      let f := c.field
      let out := if k.isData then
          (List.range (32 / f)).map fun j => dataTok (BitVec.ofNat 32 (k.data.toNat / 2 ^ (f * j) % 2 ^ f))
        else [k]
      some ((s.takeIn c 0).put c out)) s

/-- The fields collected as one word, the first lowest. -/
def joined (f : Nat) (ks : List Token) : Word :=
  BitVec.ofNat 32 (ks.foldr (fun k n => k.data.toNat % 2 ^ f + n * 2 ^ f) 0)

/-- `bjoin` (R144). -/
def execElBjoin (s : State) : Out :=
  unitTurn (fun c s => match s.peekIn c 0 with
    | none => none
    | some k =>
      let s := s.takeIn c 0
      let u := s.unitOf c
      let f := c.field
      if k.isData then
        let buf := u.buf ++ [k]
        if buf.length = 32 / f then some ((s.setUnitOf c { u with buf := [] }).put c [dataTok (joined f buf)])
        else some (s.setUnitOf c { u with buf := buf })
      else if k.isErr then some (s.put c [k])
      else
        let part := if u.buf = [] then [] else [dataTok (joined f u.buf)]
        some ((s.setUnitOf c { u with buf := [] }).put c (part ++ [k]))) s

end Sys2Proof.Machine
end

