-- ==== Sys2Proof/Machine/Int.lean ====
section
/-! DEFINITION. Rows 0x1 and 0x2: the integer ops (R99 to R104). -/

namespace Sys2Proof.Machine

/-! ### Exact results (R99): width W, A, B and the count n -/

/-- The W-bit pattern of an integer. -/
def pattern (w : Nat) (x : Int) : Nat := (x % (2 : Int) ^ w).toNat

/-- add -/
def exAdd : Exact := fun _ a b _ => a + b
/-- sub -/
def exSub : Exact := fun _ a b _ => a - b
/-- and -/
def exAnd : Exact := fun w a b _ => (pattern w a &&& pattern w b : Nat)
/-- or -/
def exOr : Exact := fun w a b _ => (pattern w a ||| pattern w b : Nat)
/-- xor -/
def exXor : Exact := fun w a b _ => (pattern w a ^^^ pattern w b : Nat)
/-- andn: A and not B -/
def exAndn : Exact := fun w a b _ => (pattern w a &&& (2 ^ w - 1 - pattern w b) : Nat)
/-- shl: A × 2^n -/
def exShl : Exact := fun _ a _ n => a * 2 ^ n
/-- shr and sar: floor(A / 2^n) -/
def exShr : Exact := fun _ a _ n => a / 2 ^ n
/-- rotl: A[W−1−n:0] × 2^n + A[W−1:W−n] -/
def exRotl : Exact := fun w a _ n => (pattern w a % 2 ^ (w - n) * 2 ^ n + pattern w a / 2 ^ (w - n) : Nat)
/-- min and minu -/
def exMin : Exact := fun _ a b _ => min a b
/-- max and maxu -/
def exMax : Exact := fun _ a b _ => max a b
/-- mov -/
def exMov : Exact := fun _ _ b _ => b
/-- mul -/
def exMul : Exact := fun _ a b _ => a * b
/-- mulh and mulhu: floor(A × B / 2^W) -/
def exMulh : Exact := fun w a b _ => a * b / 2 ^ w
/-- div (R100) -/
def exDiv : Exact := fun w a b _ =>
  if b = 0 then (if 0 ≤ a then -1 else -(2 : Int) ^ (w - 1))
  else if a = -(2 : Int) ^ (w - 1) ∧ b = -1 then -(2 : Int) ^ (w - 1)
  else a.tdiv b
/-- divu (R100) -/
def exDivu : Exact := fun w a b _ => if b = 0 then (2 : Int) ^ w - 1 else a / b
/-- rem and remu: B = 0 gives A; −2^(W−1) rem −1 is 0; the sign is A's (R100) -/
def exRem : Exact := fun _ a b _ => if b = 0 then a else a.tmod b
/-- clz -/
def exClz : Exact := fun w a _ _ => ((List.range w).find? fun i => (pattern w a).testBit (w - 1 - i)).getD w
/-- ctz -/
def exCtz : Exact := fun w a _ _ => ((List.range w).find? fun i => (pattern w a).testBit i).getD w
/-- popc -/
def exPopc : Exact := fun w a _ _ => ((List.range w).filter fun i => (pattern w a).testBit i).length
/-- brev -/
def exBrev : Exact := fun w a _ _ =>
  ((List.range w).foldl (fun n i => if (pattern w a).testBit i then n + 2 ^ (w - 1 - i) else n) 0 : Nat)
/-- bswap -/
def exBswap : Exact := fun w a _ _ => ofBytes (toBytes (pattern w a) (w / 8)).reverse

/-! ### The ops of a size -/

/-- `add`, form A (R99). -/
def execAddA (f : FormA) (s : State) : Out := intA none exAdd f s
/-- `add`, form B. -/
def execAddB (f : FormB) (s : State) : Out := intB none exAdd false f s
/-- `add`, form C. -/
def execAddC (f : FormC) (s : State) : Out := intC none exAdd false f s

/-- `sub`, form A (R99). -/
def execSubA (f : FormA) (s : State) : Out := intA none exSub f s
/-- `sub`, form B. -/
def execSubB (f : FormB) (s : State) : Out := intB none exSub false f s
/-- `sub`, form C. -/
def execSubC (f : FormC) (s : State) : Out := intC none exSub false f s

/-- `and`, form A (R99). -/
def execAndA (f : FormA) (s : State) : Out := intA none exAnd f s
/-- `and`, form B. -/
def execAndB (f : FormB) (s : State) : Out := intB none exAnd true f s
/-- `and`, form C. -/
def execAndC (f : FormC) (s : State) : Out := intC none exAnd true f s

/-- `or`, form A (R99). -/
def execOrA (f : FormA) (s : State) : Out := intA none exOr f s
/-- `or`, form B. -/
def execOrB (f : FormB) (s : State) : Out := intB none exOr true f s
/-- `or`, form C. -/
def execOrC (f : FormC) (s : State) : Out := intC none exOr true f s

/-- `xor`, form A (R99). -/
def execXorA (f : FormA) (s : State) : Out := intA none exXor f s
/-- `xor`, form B. -/
def execXorB (f : FormB) (s : State) : Out := intB none exXor true f s
/-- `xor`, form C. -/
def execXorC (f : FormC) (s : State) : Out := intC none exXor true f s

/-- `andn`, form A (R99). -/
def execAndnA (f : FormA) (s : State) : Out := intA none exAndn f s
/-- `andn`, form B. -/
def execAndnB (f : FormB) (s : State) : Out := intB none exAndn true f s
/-- `andn`, form C. -/
def execAndnC (f : FormC) (s : State) : Out := intC none exAndn true f s

/-- `shl`, form A (R99). -/
def execShlA (f : FormA) (s : State) : Out := intA none exShl f s
/-- `shl`, form B. -/
def execShlB (f : FormB) (s : State) : Out := intB none exShl true f s
/-- `shl`, form C. -/
def execShlC (f : FormC) (s : State) : Out := intC none exShl true f s

/-- `shr`, form A (R99). -/
def execShrA (f : FormA) (s : State) : Out := intA (some false) exShr f s
/-- `shr`, form B. -/
def execShrB (f : FormB) (s : State) : Out := intB (some false) exShr true f s
/-- `shr`, form C. -/
def execShrC (f : FormC) (s : State) : Out := intC (some false) exShr true f s

/-- `sar`, form A (R99). -/
def execSarA (f : FormA) (s : State) : Out := intA (some true) exShr f s
/-- `sar`, form B. -/
def execSarB (f : FormB) (s : State) : Out := intB (some true) exShr true f s
/-- `sar`, form C. -/
def execSarC (f : FormC) (s : State) : Out := intC (some true) exShr true f s

/-- `rotl`, form A (R99). -/
def execRotlA (f : FormA) (s : State) : Out := intA (some false) exRotl f s
/-- `rotl`, form B. -/
def execRotlB (f : FormB) (s : State) : Out := intB (some false) exRotl true f s
/-- `rotl`, form C. -/
def execRotlC (f : FormC) (s : State) : Out := intC (some false) exRotl true f s

/-- `min`, form A (R99). -/
def execMinA (f : FormA) (s : State) : Out := intA (some true) exMin f s
/-- `min`, form B. -/
def execMinB (f : FormB) (s : State) : Out := intB (some true) exMin false f s
/-- `min`, form C. -/
def execMinC (f : FormC) (s : State) : Out := intC (some true) exMin false f s

/-- `max`, form A (R99). -/
def execMaxA (f : FormA) (s : State) : Out := intA (some true) exMax f s
/-- `max`, form B. -/
def execMaxB (f : FormB) (s : State) : Out := intB (some true) exMax false f s
/-- `max`, form C. -/
def execMaxC (f : FormC) (s : State) : Out := intC (some true) exMax false f s

/-- `minu`, form A (R99). -/
def execMinuA (f : FormA) (s : State) : Out := intA (some false) exMin f s
/-- `minu`, form B. -/
def execMinuB (f : FormB) (s : State) : Out := intB (some false) exMin true f s
/-- `minu`, form C. -/
def execMinuC (f : FormC) (s : State) : Out := intC (some false) exMin true f s

/-- `maxu`, form A (R99). -/
def execMaxuA (f : FormA) (s : State) : Out := intA (some false) exMax f s
/-- `maxu`, form B. -/
def execMaxuB (f : FormB) (s : State) : Out := intB (some false) exMax true f s
/-- `maxu`, form C. -/
def execMaxuC (f : FormC) (s : State) : Out := intC (some false) exMax true f s

/-- `mov`, form A (R99). -/
def execMovA (f : FormA) (s : State) : Out := intA none exMov f s
/-- `mov`, form B. -/
def execMovB (f : FormB) (s : State) : Out := intB none exMov false f s
/-- `mov`, form C. -/
def execMovC (f : FormC) (s : State) : Out := intC none exMov false f s

/-- `mul`, form A (R99). -/
def execMulA (f : FormA) (s : State) : Out := intA none exMul f s
/-- `mul`, form B. -/
def execMulB (f : FormB) (s : State) : Out := intB none exMul false f s
/-- `mul`, form C. -/
def execMulC (f : FormC) (s : State) : Out := intC none exMul false f s

/-- `mulh`, form A (R99). -/
def execMulhA (f : FormA) (s : State) : Out := intA (some true) exMulh f s
/-- `mulh`, form B. -/
def execMulhB (f : FormB) (s : State) : Out := intB (some true) exMulh false f s
/-- `mulh`, form C. -/
def execMulhC (f : FormC) (s : State) : Out := intC (some true) exMulh false f s

/-- `mulhu`, form A (R99). -/
def execMulhuA (f : FormA) (s : State) : Out := intA (some false) exMulh f s
/-- `mulhu`, form B. -/
def execMulhuB (f : FormB) (s : State) : Out := intB (some false) exMulh true f s
/-- `mulhu`, form C. -/
def execMulhuC (f : FormC) (s : State) : Out := intC (some false) exMulh true f s

/-- `div`, form A (R100). -/
def execDivA (f : FormA) (s : State) : Out := intA (some true) exDiv f s
/-- `div`, form B. -/
def execDivB (f : FormB) (s : State) : Out := intB (some true) exDiv false f s
/-- `div`, form C. -/
def execDivC (f : FormC) (s : State) : Out := intC (some true) exDiv false f s

/-- `divu`, form A (R100). -/
def execDivuA (f : FormA) (s : State) : Out := intA (some false) exDivu f s
/-- `divu`, form B. -/
def execDivuB (f : FormB) (s : State) : Out := intB (some false) exDivu true f s
/-- `divu`, form C. -/
def execDivuC (f : FormC) (s : State) : Out := intC (some false) exDivu true f s

/-- `rem`, form A (R100). -/
def execRemA (f : FormA) (s : State) : Out := intA (some true) exRem f s
/-- `rem`, form B. -/
def execRemB (f : FormB) (s : State) : Out := intB (some true) exRem false f s
/-- `rem`, form C. -/
def execRemC (f : FormC) (s : State) : Out := intC (some true) exRem false f s

/-- `remu`, form A (R100). -/
def execRemuA (f : FormA) (s : State) : Out := intA (some false) exRem f s
/-- `remu`, form B. -/
def execRemuB (f : FormB) (s : State) : Out := intB (some false) exRem true f s
/-- `remu`, form C. -/
def execRemuC (f : FormC) (s : State) : Out := intC (some false) exRem true f s

/-- `clz` (R99). -/
def execClz (f : FormA) (s : State) : Out := intA (some false) exClz f s

/-- `ctz` (R99). -/
def execCtz (f : FormA) (s : State) : Out := intA (some false) exCtz f s

/-- `popc` (R99). -/
def execPopc (f : FormA) (s : State) : Out := intA (some false) exPopc f s

/-- `brev` (R99). -/
def execBrev (f : FormA) (s : State) : Out := intA (some false) exBrev f s

/-- `bswap` (R99). -/
def execBswap (f : FormA) (s : State) : Out := intA (some false) exBswap f s

/-! ### sel, ext, bit fields and the carry add -/

/-- R101: one of two values by the predicate that sub names. -/
def selValue (c : Core) (sub : BitVec 3) (a : BitVec 5) (bv : Dword) : Dword := if c.pred sub then c.reg a else bv

/-- `sel`, form A (R101). -/
def execSelA (f : FormA) (s : State) : Out :=
  guarded f.gn f.guard lenA s fun s => writeReg s f.d (selValue s.core f.sub f.a (s.core.reg f.b)) lenA
/-- `sel`, form B. -/
def execSelB (f : FormB) (s : State) : Out :=
  guarded f.gn f.guard lenB s fun s => writeReg s f.d (selValue s.core f.sub f.a (imm16 false f.imm16)) lenB
/-- `sel`, form C. -/
def execSelC (f : FormC) (s : State) : Out :=
  guarded f.gn f.guard lenC s fun s => writeReg s f.d (selValue s.core f.sub f.a (lit32 false f.lit32)) lenC

/-- R102: the low field of g[a] whose width is Bv[5:0], 0 meaning 64. -/
def extValue (sub : BitVec 3) (a bv : Dword) : Dword :=
  let n := if bv.toNat % 64 = 0 then 64 else bv.toNat % 64
  toDword (if sizeSigned sub then signExt a.toNat n else (zeroExt a.toNat n : Nat))

/-- `ext`, form A (R102). -/
def execExtA (f : FormA) (s : State) : Out :=
  guarded f.gn f.guard lenA s fun s => writeReg s f.d (extValue f.sub (s.core.reg f.a) (s.core.reg f.b)) lenA
/-- `ext`, form B. -/
def execExtB (f : FormB) (s : State) : Out :=
  guarded f.gn f.guard lenB s fun s => writeReg s f.d (extValue f.sub (s.core.reg f.a) (imm16 false f.imm16)) lenB

/-- The low bit of a bit field (R103). -/
def fieldLow (v : BitVec 16) : Nat := v.toNat % 64
/-- The length of a bit field (R103); 0 stands for 64. -/
def fieldLen (v : BitVec 16) : Nat := if v.toNat / 256 % 64 = 0 then 64 else v.toNat / 256 % 64

/-- The field that `bfx` takes (R103); positions above 63 read as zero. -/
def bfxValue (sub : BitVec 3) (a : Dword) (v : BitVec 16) : Dword :=
  let x := a.toNat / 2 ^ fieldLow v % 2 ^ fieldLen v
  toDword (if sizeSigned sub then signExt x (fieldLen v) else (x : Nat))

/-- `bfx` (R103). -/
def execBfx (f : FormB) (s : State) : Out :=
  guarded f.gn f.guard lenB s fun s => writeReg s f.d (bfxValue f.sub (s.core.reg f.a) f.imm16) lenB

/-- The bits of g[d] that `bfi` writes (R103); positions above 63 are not written. -/
def bfiMask (v : BitVec 16) : Dword := BitVec.ofNat 64 ((2 ^ fieldLen v - 1) * 2 ^ fieldLow v)

/-- `bfi` (R103). -/
def execBfi (f : FormB) (s : State) : Out :=
  guarded f.gn f.guard lenB s fun s =>
    let m := bfiMask f.imm16
    writeReg s f.d ((s.core.reg f.d &&& ~~~m) ||| ((s.core.reg f.a <<< fieldLow f.imm16) &&& m)) lenB

/-- The exact sum of `addcp` (R104). -/
def addcpSum (c : Core) (sub : BitVec 3) (a : BitVec 5) (bv : Dword) : Nat :=
  (c.reg a).toNat + bv.toNat + (if c.pred sub then 1 else 0)

/-- R104: the sum to g[d], the carry to the predicate that sub names. -/
def addcp (d : BitVec 5) (sub : BitVec 3) (x : Nat) (len : Nat) (s : State) : Out :=
  finish (s.withCore ((s.core.setReg d (BitVec.ofNat 64 x)).setPred sub (x ≥ 2 ^ 64))) len

/-- `addcp`, form A (R104). -/
def execAddcpA (f : FormA) (s : State) : Out :=
  guarded f.gn f.guard lenA s fun s => addcp f.d f.sub (addcpSum s.core f.sub f.a (s.core.reg f.b)) lenA s
/-- `addcp`, form B. -/
def execAddcpB (f : FormB) (s : State) : Out :=
  guarded f.gn f.guard lenB s fun s => addcp f.d f.sub (addcpSum s.core f.sub f.a (imm16 false f.imm16)) lenB s
/-- `addcp`, form C. -/
def execAddcpC (f : FormC) (s : State) : Out :=
  guarded f.gn f.guard lenC s fun s => addcp f.d f.sub (addcpSum s.core f.sub f.a (lit32 false f.lit32)) lenC s

end Sys2Proof.Machine
end

