-- ==== Sys2Proof/Machine/Links.lean ====
section
/-! DEFINITION. Belgal links (R363 to R369), links that go down (R355) and cross-chip streams (R356 to R360). -/

namespace Sys2Proof.Machine

/-! ### Coding of blocks (R366, R367) -/

/-- One step of CRC-32. -/
def crcBit (c : Word) : Word := if c.getLsbD 0 then (c >>> 1) ^^^ 0xEDB88320 else c >>> 1

/-- CRC-32 of IEEE 802.3 (R364) (PRESUMED, log entry 10). -/
def crc32 (bs : List Byte) : Word :=
  ~~~(bs.foldl (fun (c : Word) b => crcBit (crcBit (crcBit (crcBit (crcBit (crcBit (crcBit (crcBit (c ^^^ b.setWidth 32)))))))))
    0xFFFFFFFF)

/-- Words of a block, and its bytes. -/
def blockWords : Nat := 32
def wordBytes (ws : List Word) : List Byte := ws.flatMap fun w => toBytes w.toNat 4

/-- The differences to the first word, as signed 32-bit numbers. -/
def blockDeltas (ws : List Word) : List Int := ws.map fun w => (w - ws.headD 0).toInt

/-- The smallest k that the differences fit, if one does. -/
def deltaWidth (ws : List Word) : Option Nat :=
  ((List.range 31).map (· + 1)).find? fun k => (blockDeltas ws).all fun d => -(2 : Int) ^ (k - 1) ≤ d && d < 2 ^ (k - 1)

/-- The numbers of k bits each, packed from the low end (R57). -/
def packBits (k : Nat) (ds : List Int) : List Byte :=
  toBytes ((ds.zipIdx).foldl (fun n d => n + (d.1 % (2 : Int) ^ k).toNat * 2 ^ (k * d.2)) 0) (4 * k)

/-- The modes that apply to a block, in the order of their numbers. -/
def blockModes (ws : List Word) : List (List Byte) :=
  [0x00 :: wordBytes ws] ++
  (if ws.all (· = 0) then [[0x01]] else []) ++
  (match deltaWidth ws with
   | some k => [BitVec.ofNat 8 (2 + 4 * k) :: toBytes (ws.headD 0).toNat 4 ++ packBits k (blockDeltas ws)]
   | none => []) ++
  (if ws.all fun w => w.extractLsb' 24 8 = (ws.headD 0).extractLsb' 24 8 then
    [0x03 :: (ws.headD 0).extractLsb' 24 8 :: (ws.map (·.extractLsb' 0 8) ++ ws.map (·.extractLsb' 8 8) ++ ws.map (·.extractLsb' 16 8))]
   else [])

/-- The coded block: the smallest, the lowest mode on a tie (R367). -/
def encodeBlock (ws : List Word) : List Byte :=
  (blockModes ws).foldl (fun b m => if m.length < b.length then m else b) (0x00 :: wordBytes ws)

/-- Words of little-endian bytes. -/
def wordsOf (bs : List Byte) : List Word := (List.range (bs.length / 4)).map fun i => BitVec.ofNat 32 (numAt bs (4 * i) 4)

/-- A coded block and what follows it; none where the decoder fails (R367). -/
def decodeBlock : List Byte → Option (List Word × List Byte)
  | [] => none
  | h :: r =>
    let mode := h.toNat % 4
    let k := h.toNat / 4 % 32
    let need (n : Nat) (ws : List Word) : Option (List Word × List Byte) := if n ≤ r.length then some (ws, r.drop n) else none
    if mode = 2 then
      if h.toNat ≥ 128 || k = 0 then none
      else
        let w := BitVec.ofNat 32 (numAt r 0 4)
        let v := numAt r 4 (4 * k)
        need (4 + 4 * k) ((List.range blockWords).map fun i => w + BitVec.ofInt 32 (signExt (v / 2 ^ (k * i)) k))
    else if k ≠ 0 || h.toNat ≥ 128 then none
    else if mode = 0 then need 128 (wordsOf (r.take 128))
    else if mode = 1 then need 0 (List.replicate blockWords 0)
    else need 97 ((List.range blockWords).map fun i =>
      BitVec.ofNat 32 (numAt r (1 + i) 1 + numAt r (33 + i) 1 * 2 ^ 8 + numAt r (65 + i) 1 * 2 ^ 16 + numAt r 0 1 * 2 ^ 24))

/-- n coded blocks that end where the bytes end. -/
def decodeBlocks : Nat → List Byte → Option (List (List Word))
  | 0, bs => if bs = [] then some [] else none
  | n + 1, bs => match decodeBlock bs with
    | none => none
    | some (ws, r) => (decodeBlocks n r).map fun x => ws :: x

/-! ### Frames (R364, R365) -/

/-- The direction numbers of a port: it sends on the first and receives on the second. -/
def linkOut (port : Nat) : Nat := 2 * port
def linkIn (port : Nat) : Nat := 2 * port + 1

/-- A direction of a port. -/
def State.link (s : State) (n : Nat) : Link := (mapGet s.links n).getD Link.reset
/-- The port at the other end of a port's link; none where no port is joined to it (R353; DEDUCED, log entry 12). -/
def partnerPort (port : Nat) : Option Nat :=
  let q := Config.linkPeer (linkIn port) / 2
  if q ≠ port && Config.linkPeer (linkIn q) / 2 = port then some q else none

/-- Replace a direction. -/
def State.setLink (s : State) (n : Nat) (l : Link) : State := { s with links := mapSet s.links n l }

/-- The counter block of keystream block i of frame F of a sending direction, its first byte in the low bits (R365). -/
def counterBlock (n f i : Nat) : BitVec 128 :=
  BitVec.ofNat 128 (i % 2 ^ 16 + f % 2 ^ 52 * 2 ^ 16 + n / 32 % 64 * 2 ^ 68 + n / 2 % 8 * 2 ^ 74 + n / 16 % 2 * 2 ^ 77)

/-- Bytes under the keystream of a key, which is its own inverse. -/
def cipher (key : BitVec 128) (n f : Nat) (bs : List Byte) : List Byte :=
  bs.mapIdx fun j b => b ^^^ byteOf (Config.sm4 key (counterBlock n f (j / 16))).toNat (j % 16)

/-- A frame's words: header, bytes, zeros to a multiple of 64 bytes. -/
def frameWords (kind blocks seq ack : Nat) (kep : Bool) (bs : List Byte) : List Word :=
  let h := kind + blocks % 64 * 2 ^ 8 + seq % 2 ^ 12 * 2 ^ 16 + ack % 2 ^ 12 * 2 ^ 28 + bs.length % 2 ^ 16 * 2 ^ 48 +
    (if kep then 2 ^ 64 else 0)
  let h := toBytes h 12
  let n := 16 + bs.length
  wordsOf (padTo ((n + 63) / 64 * 64) (h ++ toBytes (crc32 (h ++ bs)).toNat 4 ++ bs))

/-- The sequence number of the last frame that a port has accepted. -/
def State.lastAccepted (s : State) (port : Nat) : Nat := ((s.link (linkIn port)).accepted + 2 ^ 12 - 1) % 2 ^ 12

/-- Frames go on the wire of a port, whose bytes its die counts (R347). -/
def State.wire (s : State) (port : Nat) (frames : List (List Word)) : State :=
  let l := s.link (linkOut port)
  (s.setLink (linkOut port) { l with outbox := l.outbox ++ frames }).addShared (port / 8) 0x302 (4 * (frames.map List.length).sum)

/-- A port puts a frame without coded bytes on the wire: 1 ack, 2 nak, 3 idle. -/
def State.reply (s : State) (port kind : Nat) : State :=
  s.wire port [frameWords kind 0 0 (s.lastAccepted port) (s.link (linkOut port)).kep []]

/-- The words of data frame F of a sending direction, under the key of its epoch (R365, R367); none without that key. -/
def State.dataFrame (s : State) (port f : Nat) (kep : Bool) (blocks : List (List Word)) : Option (List Word) :=
  let n := linkOut port
  (mapGet (s.link n).keys kep.toNat).map fun key =>
    frameWords 0 (blocks.length - 1) f (s.lastAccepted port) kep (cipher key n f (blocks.flatMap encodeBlock))

/-- Unacknowledged frames that a sender holds (R369). -/
def unackedMax : Nat := 2048

/-- Frames that pass under one key at most (R365). -/
def keyFrames : Nat := 2 ^ 40

/-- Has a port room for a data frame, and a key for it that is not worn out? A late renewal stalls the port (R365). -/
def State.canSend (s : State) (port : Nat) : Bool :=
  let l := s.link (linkOut port)
  !l.down && l.unacked.length < unackedMax && (mapGet l.keys l.kep.toNat).isSome && l.used < keyFrames

/-- A port sends a data frame of blocks and keeps it until it is acknowledged (R369). -/
def State.sendFrame (s : State) (port : Nat) (blocks : List (List Word)) : State :=
  let l := s.link (linkOut port)
  match s.dataFrame port (l.sentBase + l.unacked.length) l.kep blocks with
  | none => s
  | some w =>
    ((s.setLink (linkOut port) { l with unacked := l.unacked ++ [(l.kep, blocks)], used := l.used + 1 }).addShared
      (port / 8) 0x301 (128 * blocks.length)).wire port [w]

/-- A key that no unacknowledged frame stands under is erased, but the one for new frames (R365). -/
def Link.eraseKeys (l : Link) : Link :=
  { l with keys := l.keys.filter fun k => k.1 = l.kep.toNat || l.unacked.any fun u => u.1.toNat = k.1 }

/-- Frames up to a sequence number are acknowledged, in order (R369). -/
def State.acknowledge (s : State) (port ack : Nat) : State :=
  let l := s.link (linkOut port)
  match (List.range l.unacked.length).find? fun k => (l.sentBase + k) % 2 ^ 12 = ack % 2 ^ 12 with
  | none => s
  | some k => s.setLink (linkOut port)
      { l with unacked := l.unacked.drop (k + 1), sentBase := l.sentBase + k + 1 }.eraseKeys

/-- Every unacknowledged frame goes out again, in order, with its own number (R369). -/
def State.replay (s : State) (port : Nat) : State :=
  let l := s.link (linkOut port)
  let ws := (l.unacked.zipIdx).filterMap fun u => s.dataFrame port (l.sentBase + u.2) u.1.1 u.1.2
  s.wire port ws

/-! ### Arrivals -/

/-- A frame's header is sound and its crc holds (R364, R367). -/
def frameOk (bs : List Byte) : Bool :=
  let h := numAt bs 0 16
  let n := h / 2 ^ 48 % 2 ^ 16
  16 + n ≤ bs.length && crc32 (bs.take 12 ++ (bs.drop 16).take n) = BitVec.ofNat 32 (h / 2 ^ 96) && h / 2 ^ 65 % 2 ^ 31 = 0 &&
  h / 2 ^ 14 % 4 = 0 && h % 256 ≤ 3 && (h % 256 = 0 || n = 0)

/-- The blocks of a data frame that is next in sequence; none where it fails. -/
def State.frameBlocks (s : State) (port : Nat) (bs : List Byte) : Option (List (List Word)) :=
  let h := numAt bs 0 16
  let l := s.link (linkIn port)
  if h / 2 ^ 8 % 64 > 31 then none
  else match mapGet l.keys (h / 2 ^ 64 % 2) with
    | none => none
    | some key =>
      decodeBlocks (h / 2 ^ 8 % 64 + 1)
        (cipher key (Config.linkPeer (linkIn port)) l.accepted ((bs.drop 16).take (h / 2 ^ 48 % 2 ^ 16)))

/-- A data frame is accepted: its payload and its count. The first one under the next key ends the key before it, for every
frame under that has come (R365, R369). -/
def Link.accept (l : Link) (kep : Bool) (blocks : List (List Word)) : Link :=
  { l with
    accepted := l.accepted + 1, payload := l.payload ++ blocks, kep := kep
    keys := if kep = l.kep then l.keys else l.keys.filter fun k => k.1 = kep.toNat }

/-- Is a port at work? -/
def State.portUp (s : State) (port : Nat) : Bool :=
  !(s.link (linkIn port)).down && !(s.link (linkOut port)).down && !(s.die (port / 8)).lost && !(s.die (port / 8)).stopped

/-- A frame arrives at a port (R369) and wakes its die (R406): a data frame next in sequence is accepted, any other data frame and
a frame that fails is discarded with a nak; the ack field of a frame that does not fail counts in every kind (R367). -/
def execFrameReceive (port : Nat) (frame : List Word) (s : State) : Out :=
  let bs := wordBytes frame
  let h := numAt bs 0 16
  let s := if s.portUp port then s.wakeDie (port / 8) else s
  if !s.portUp port then .next s
  else if !frameOk bs then .next (s.reply port 2)
  else
    let acked := s.acknowledge port (h / 2 ^ 28 % 2 ^ 12)
    match h % 256 with
    | 0 =>
      let l := s.link (linkIn port)
      if h / 2 ^ 16 % 2 ^ 12 ≠ l.accepted % 2 ^ 12 then .next (acked.reply port 2)
      else match s.frameBlocks port bs with
        | none => .next (s.reply port 2)
        | some blocks =>
          .next ((acked.setLink (linkIn port) (l.accept (decide (h / 2 ^ 64 % 2 = 1)) blocks)).reply port 1)
    | 2 => .next (acked.replay port)
    | _ => .next acked

/-- A nak arrives at a port (R369). -/
def execNakReceive (port ack : Nat) (s : State) : Out :=
  if s.portUp port then .next (((s.wakeDie (port / 8)).acknowledge port ack).replay port) else .next s

/-- An ack frame arrives at a port (R369). -/
def execAckReceive (port ack : Nat) (s : State) : Out :=
  if s.portUp port then .next ((s.wakeDie (port / 8)).acknowledge port ack) else .next s

/-- The device of a port, or of the port that it is joined to, has erased its keys and waits for reset: Isatar gives the link none
(R402). -/
def State.keyless (s : State) (port : Nat) : Bool :=
  (s.device (port / 16)).frozen || (partnerPort port).any fun q => (s.device (q / 16)).frozen

/-- The sending direction of a link that a direction belongs to; none for the incoming one of a port that no port is joined to. -/
def senderOf (n : Nat) : Option Nat := if n % 2 = 0 then some n else (partnerPort (n / 2)).map linkOut

/-- The next key of a link's direction comes into force (R365): the receiver installs it beside the one in force, and the sender's
next new frame goes under it with the parity flipped. It waits while frames of an older epoch are not acknowledged. -/
def execKeyRenewal (n : Nat) (s : State) : Out :=
  match senderOf n with
  | none => .next s
  | some o =>
    let l := s.link o
    let next := (!l.kep).toNat
    if l.down || (s.die (o / 16)).lost || s.keyless (o / 2) || l.unacked.any (fun u => u.1.toNat = next) then .next s
    else
      let (s, key) := s.freshKey
      let s := match partnerPort (o / 2) with
        | none => s
        | some q =>
          let r := s.link (linkIn q)
          s.setLink (linkIn q) { r with kep := l.kep, keys := mapSet (r.keys.filter fun k => k.1 = l.kep.toNat) next key }
      .next (s.setLink o ({ l with keys := mapSet l.keys next key, kep := !l.kep, used := 0 } : Link).eraseKeys)

/-- A direction of a link after a training (R365): counts from 0 and one fresh key at both ends. Frames that the receiver had not
accepted are to go again, as the first ones (R369; DEDUCED, log entry 47). -/
def State.trainDirection (s : State) (o i : Nat) : State :=
  let (s, key) := s.freshKey
  let a := s.link o
  let b := s.link i
  let left := a.unacked.drop (b.accepted - a.sentBase)
  (s.setLink o { a with
    down := false, sentBase := 0, outbox := [], kep := false, keys := [(0, key)], used := left.length
    unacked := left.map fun u => (false, u.2) }).setLink i { b with down := false, accepted := 0, kep := false, keys := [(0, key)] }

/-- A port that no port is joined to trains alone. -/
def State.trainAlone (s : State) (port : Nat) : State :=
  let (s, key) := s.freshKey
  let (s, key') := s.freshKey
  let a := s.link (linkOut port)
  (s.setLink (linkOut port) { a with
    down := false, sentBase := 0, outbox := [], kep := false, keys := [(0, key)], used := a.unacked.length
    unacked := a.unacked.map fun u => (false, u.2) }).setLink (linkIn port)
      { s.link (linkIn port) with down := false, accepted := 0, kep := false, keys := [(0, key')] }

/-- A port trains in both directions with the port at the other end; frames that had not been accepted go out first. -/
def State.trainPort (s : State) (port : Nat) : State :=
  if s.keyless port then s
  else match partnerPort port with
  | none => (s.trainAlone port).replay port
  | some q =>
    (((s.trainDirection (linkOut port) (linkIn q)).trainDirection (linkOut q) (linkIn port)).replay port).replay q

/-! ### Streams (R356 to R360) -/

/-- The far tile and port of an end. -/
def StreamEnd.farTile (e : StreamEnd) : Nat := (e.far.extractLsb' 8 6).toNat * 160 + (e.far.extractLsb' 0 8).toNat
def StreamEnd.farPort (e : StreamEnd) : Nat := (e.far.extractLsb' 14 6).toNat

/-- The end at a place of a tile: fo p at p, fi p at 64 + p. -/
def State.streamEnd (s : State) (t k : Nat) : Option StreamEnd := mapGet (s.tile t).streams k

/-- The end names a tile and port. -/
def StreamEnd.names (e : StreamEnd) (t p : Nat) : Bool := e.farTile = t && e.farPort = p

/-- Replace an end. -/
def State.setEnd (s : State) (t k : Nat) (e : StreamEnd) : State :=
  let x := s.tile t
  s.setTile t { x with streams := mapSet x.streams k e }

/-- An end is gone from its port, with the tokens that were on their way to it. -/
def State.dropEnd (s : State) (t k : Nat) (e : StreamEnd) : State :=
  let x := s.tile t
  { s.setTile t { x with streams := mapErase x.streams k } with transit := mapErase s.transit e.cmd }

/-- An end leaves its port, with its command. -/
def State.unbind (s : State) (t k : Nat) (e : StreamEnd) : State := (s.dropEnd t k e).removeCmd e.cmd

/-- An end takes a cause imprecisely and is gone (R251, R357). -/
def State.endFault (s : State) (t k : Nat) (code : BitVec 7) : State :=
  match s.streamEnd t k with
  | none => s
  | some e => (s.dropEnd t k e).cmdFault e.cmd code

/-- A stream that no path can carry (R355): the region on the tile of an end stops, or else its core takes the cause. -/
def State.streamLost (s : State) (t k : Nat) : State :=
  match s.streamEnd t k, (s.tile t).live with
  | some e, some l =>
    let (s, v) := s.free
    (s.unbind t k e).stopRegion l 0x50 v
  | _, _ => s.endFault t k 0x50

/-- The command of an end runs, and its port has come to it (R131). -/
def State.endMay (s : State) (t k : Nat) (e : StreamEnd) : Bool :=
  match mapGet s.cmds e.cmd with
  | none => false
  | some c =>
    let owners := if k < 64 then ((s.tile t).foPort k).owners else ((s.tile t).fiPort (k - 64)).owners
    c.stage = .running && s.cmdMay c && owners.head? = some e.cmd

/-- The `sclose` that stands next at the port of an end (R131, R359). -/
def State.closer (s : State) (t k : Nat) : Option (Nat × Cmd) :=
  let owners := if k < 64 then ((s.tile t).foPort k).owners else ((s.tile t).fiPort (k - 64)).owners
  match owners[1]? with
  | none => none
  | some n => match mapGet s.cmds n with
    | none => none
    | some c => if c.code = 0x14 && c.stage = .running then some (n, c) else none

/-- An end reports that the pair has formed (R357). -/
def State.pairReport (s : State) (n : Nat) : State :=
  match mapGet s.cmds n with
  | none => s
  | some c => (s.pushReport n c 0 []).setCmd n { c with bar := none }

/-- Two ends that name each other pair (R357), or both take 0x10: their depths differ, or they are not of one node tenant that holds
both tiles. -/
def execStreamPair (txPort rxPort : Nat) (s : State) : Out :=
  let t := txPort / 64
  let p := txPort % 64
  let u := rxPort / 64
  let q := rxPort % 64
  match s.streamEnd t p, s.streamEnd u (64 + q) with
  | some a, some b =>
    if a.paired || b.paired || !a.names u q || !b.names t p || a.name ≠ b.name ||
        !s.endMay t p a || !s.endMay u (64 + q) b then .next s
    else if s.noPath (deviceOf t) (deviceOf u) then .next ((s.streamLost t p).streamLost u (64 + q))
    else if a.depth ≠ b.depth || a.fn ≠ b.fn || !s.tileOfFn a.fn u || !s.tileOfFn a.fn t then
      .next ((s.endFault t p 0x10).endFault u (64 + q) 0x10)
    else
      let s := (s.setEnd t p { a with paired := true, peer := b.cmd }).setEnd u (64 + q) { b with paired := true, peer := a.cmd }
      .next ((s.pairReport a.cmd).pairReport b.cmd)
  | _, _ => .next s

/-- Tokens on their way to the receive end that a command bound; they wait for it while its tile is away (R360). -/
def State.inTransit (s : State) (rx : Nat) : List Token := (mapGet s.transit rx).getD []

/-- Replace them. -/
def State.setTransit (s : State) (rx : Nat) (q : List Token) : State :=
  { s with transit := if q = [] then mapErase s.transit rx else mapSet s.transit rx q }

/-- The close mark on its way (R359). -/
def closeMark : Token := { kind := 7, data := 0 }

/-- The receive ends, as (tile, place), that the send ends at a tile and port feed or, having closed, have fed. -/
def State.receivers (s : State) (t p : Nat) : List (Nat × Nat) :=
  s.tiles.flatMap fun x => (x.2.streams.filter fun e => 64 ≤ e.1 && e.2.paired && e.2.names t p).map fun e => (x.1, e.1)

/-- The oldest token on its way to a receive end enters its fi port (R358). -/
def State.deliverToken (s : State) (u k : Nat) : State :=
  match s.streamEnd u k with
  | none => s
  | some e => match s.inTransit e.cmd with
    | [] => s
    | w :: r =>
      if w ≠ closeMark && e.paired && s.endMay u k e && ((s.tile u).fiPort (k - 64)).room then
        ((s.pushFi u (k - 64) w).setEnd u k { e with carried := e.carried + 1 }).setTransit e.cmd r
      else s

/-- How many of a send end's tokens have left the fo port and not been consumed at the fi port (R358): with the receive end's
tile away, as the send end last knew. -/
def State.outstanding (s : State) (a : StreamEnd) : Nat :=
  match s.streamEnd a.farTile (64 + a.farPort) with
  | some b =>
    if b.cmd = a.peer then (s.inTransit a.peer).length + min ((s.tile a.farTile).fiPort a.farPort).q.length b.carried else a.out
  | none => a.out

/-- A free block on a port of the sending die that can send, for a token that leaves its device: what a frame carries, and on
which link, the manual does not say (R353, R364; DESIGN CHOICE, log entry 2). -/
def State.carryToken (s : State) (t u : Nat) : State :=
  if deviceOf t = deviceOf u then s
  else match ((List.range 8).map (dieOf t * 8 + ·)).filter s.canSend with
    | [] => s
    | p :: ps =>
      let (s, v) := s.free
      let port := ((p :: ps)[v.toNat % (p :: ps).length]?).getD p
      let block := (List.range blockWords).map fun i => (Config.freeDword (s.tick + i)).setWidth 32
      ({ s with tick := s.tick + blockWords } : State).sendFrame port [block]

/-- A send end takes the head token of its fo port, or sends the close mark and unbinds (R358, R359). -/
def State.takeToken (s : State) (t p : Nat) (a : StreamEnd) : State :=
  let q := ((s.tile t).foPort p).q
  let a := { a with out := s.outstanding a, closing := match a.closing with
    | some c => some c
    | none => (s.closer t p).map fun (n : Nat × Cmd) => (n.1, q.length) }
  match a.closing, q with
  | some (n, 0), _ =>
    let s := (s.setTransit a.peer (s.inTransit a.peer ++ [closeMark])).unbind t p a
    match mapGet s.cmds n with
    | none => s
    | some c => s.portDone n c (4 * a.carried)
  | _, [] => s.setEnd t p a
  | _, k :: _ =>
    if a.out < a.depth then
      let s := (s.popFo t p).carryToken t a.farTile
      (s.setTransit a.peer (s.inTransit a.peer ++ [k])).setEnd t p
        { a with out := a.out + 1, carried := a.carried + 1, closing := a.closing.map fun (c : Nat × Nat) => (c.1, c.2 - 1) }
    else s.setEnd t p a

/-- A turn of the streams of a send port (R358): a token in transit enters the fi port of each receive end that the port feeds, and
one leaves the fo port. A stream that no path can carry is lost at both its ends (R355). -/
def execStreamTokenTransfer (txPort : Nat) (s : State) : Out :=
  let t := txPort / 64
  let p := txPort % 64
  let cut (u : Nat) : Bool := s.noPath (deviceOf t) (deviceOf u)
  let ends := s.receivers t p
  let s := ends.foldl (fun (s : State) e => if cut e.1 then s.streamLost e.1 e.2 else s.deliverToken e.1 e.2) s
  match s.streamEnd t p with
  | none => .next s
  | some a =>
    if !a.paired then .next s
    else if cut a.farTile then .next (s.streamLost t p)
    else .next (if s.endMay t p a then s.takeToken t p a else s)

/-- The close mark reaches a receive end once every token before it has entered the fi port, and a waiting `sclose` unbinds
the port (R359). -/
def execStreamCloseMark (rxPort : Nat) (s : State) : Out :=
  let u := rxPort / 64
  let q := rxPort % 64
  match s.streamEnd u (64 + q) with
  | none => .next s
  | some e =>
    if !e.paired || !s.endMay u (64 + q) e then .next s
    else
      let here := (s.inTransit e.cmd).head? = some closeMark
      let s := if here then (s.setTransit e.cmd []).setEnd u (64 + q) { e with marked := true } else s
      match (if here || e.marked then s.closer u (64 + q) else none) with
      | none => .next s
      | some (n, c) => .next ((s.unbind u (64 + q) e).portDone n c (4 * e.carried))

/-! ### Links that fail (R355, R363) -/

/-- The ends of streams that no path can carry: (tile, place). -/
def State.lostEnds (s : State) : List (Nat × Nat) :=
  s.tiles.flatMap fun x => (x.2.streams.filter fun e => e.2.paired && s.noPath (deviceOf x.1) (deviceOf e.2.farTile)).map fun e => (x.1, e.1)

/-- A port's link is down, at both its ends: its traffic takes other links, and a stream that no path can carry raises 0x50. -/
def State.dropLink (s : State) (port : Nat) : State :=
  let down (s : State) (n : Nat) : State := s.setLink n { s.link n with down := true }
  let s := (port :: (partnerPort port).toList).foldl (fun (s : State) p => down (down s (linkOut p)) (linkIn p)) s
  s.lostEnds.foldl (fun (s : State) e => s.streamLost e.1 e.2) s

/-- A link goes down after retry and sparing (R355). -/
def execLinkDown (port : Nat) (s : State) : Out := .next (s.dropLink port)

/-- A lane of a direction fails: the port retrains on the lanes that remain, down to four, below which the link is down
(R363). -/
def execLaneFailure (n : Nat) (s : State) : Out :=
  let l := s.link n
  let s := s.setLink n { l with lanes := l.lanes - 1 }
  if l.down then .next s
  else if l.lanes ≤ 4 then .next (s.dropLink (n / 2))
  else .next (s.trainPort (n / 2))

end Sys2Proof.Machine
end

