-- ==== Sys2Proof/Machine/Platform.lean ====
section
/-! DEFINITION. What reaches a device from outside the core and from its platform: lost and tripped dies, alarms (R342, R352,
R402, R408), the host's queues and memory accesses (R395 to R397), bring-up and tile reset (R86, R399), management, SPDM and
debugging (R400, R408, R409), power steps and idle states (R403 to R406), and counter periods (R347). -/

namespace Sys2Proof.Machine

/-! ### Faults of the platform -/

/-- Tenants of a device that are not ABSENT and hold a tile of a die. -/
def State.tenantsOn (s : State) (gdie : Nat) : List Nat :=
  (s.others (gdie / 2) 16).filter fun fn => (List.range 80).any fun t => s.ownsTile (gdie / 2) fn (gdie % 2 * 80 + t)

/-- A die is lost (R352): the owner's regions on it stop, the tenants with tiles on it are frozen with 0x51, and its group
members are struck (R379) (DEDUCED, log entry 49). -/
def execDieLost (gdie : Nat) (s : State) : Out :=
  let mine := (s.regions.filter fun r => r.2.fn = 16 && r.2.tiles.any fun t => dieOf t = gdie).map Prod.fst
  let s := mine.foldl (fun (s : State) l =>
    let (s, v) := s.free
    s.stopRegion l 0x51 v) s
  let s := (s.tenantsOn gdie).foldl (fun (s : State) fn => s.fatal (gdie / 2) fn 0x51) s
  let s := s.setDie gdie { s.die gdie with lost := true }
  .next { s with strikes := s.strikes ++ [(gdie / 2, gdie % 2, 16)] }

/-- A die passes its trip temperature (R408): its tenants are frozen with 0x55 and its clock stops. -/
def execThermalTrip (gdie : Nat) (s : State) : Out :=
  let s := (s.tenantsOn gdie).foldl (fun (s : State) fn => s.fatal (gdie / 2) fn 0x55) s
  .next (s.setDie gdie { s.die gdie with stopped := true })

/-- A memory error that cannot be corrected (R342). -/
def execEccUncorrectable (dev fn : Nat) (s : State) : Out :=
  .next (if (s.tenant dev fn).state = .absent then s else s.fatal dev fn 0x53)

/-- A tile of a die fails with no spare left (R342): the tenants that hold it become fatal with 0x56, and it is disabled (R3). Which
tile fails is a free choice (DESIGN CHOICE, log entry 2). -/
def execSpareExhausted (gdie : Nat) (s : State) : Out :=
  let (s, v) := s.free
  let t := gdie % 2 * 80 + v.toNat % 80
  let hit := (s.others (gdie / 2) 16).filter fun fn => s.ownsTile (gdie / 2) fn t
  let s := hit.foldl (fun (s : State) fn => s.fatal (gdie / 2) fn 0x56) s
  let d := s.die gdie
  .next (s.setDie gdie { d with disabled := ((gdie / 2 * 160 + t) :: d.disabled).eraseDups })

/-- Memory that is encrypted (R401): HBM and far memory. -/
def encrypted (a : Nat) : Bool :=
  let l := a % 2 ^ 50
  l < hbmBytes || (2 ^ 42 ≤ l && l < 2 ^ 43)

/-- The 64-byte units that rising addresses lie in (R401). -/
def unitsOf (as : List Nat) : List Nat := as.foldr (fun a us => if us.head? = some (a / 64) then us else a / 64 :: us) []

/-- Bytes at addresses are no longer fixed (R402): each takes a free value (DESIGN CHOICE, log entry 2). -/
def State.unfix (s : State) (as : List Nat) : State :=
  let mem := as.zipIdx.foldl (fun (m : Memory) a => m.set a.1 ((Config.freeDword (s.tick + a.2)).setWidth 8)) s.mem
  { s with tick := s.tick + as.length, mem := mem }

/-- The shard record areas of a device's functions: their records and images (R337). -/
def State.shardAreas (s : State) (dev : Nat) : Ranges :=
  ((List.range 17).filter fun fn => s.desc dev fn ≠ 0).map fun fn =>
    (descField (s.desc dev fn) 503 448, shardBytes (s.desc dev fn))

/-- The units of encrypted memory that hold a byte which p picks, and the frames given, are no longer fixed (R401, R402). A unit
that holds no listed byte and stands in no frame given keeps reading as it did (DESIGN CHOICE, log entry 3). -/
def State.scramble (s : State) (p : Nat → Bool) (frames : List (Nat × Nat)) : State :=
  let units := unitsOf ((s.mem.map Prod.fst).filter fun a => p a && encrypted a)
  let mapped := frames.flatMap fun f => (List.range f.2).map (f.1 + ·)
  s.unfix ((units.flatMap fun u => (List.range 64).map (64 * u + ·)) ++ mapped.filter fun a => encrypted a && !units.contains (a / 64))

/-- The frames that a function's tables map on a device. -/
def State.mappedFrames (s : State) (dev fn : Nat) : List (Nat × Nat) :=
  ([2 * dev, 2 * dev + 1].flatMap fun g => (tablePages s.mem 4 (s.root g fn) 0).map fun p => (p.frame, p.size)).eraseDups

/-- What an erased key has encrypted is no longer fixed (R401, R402), but for the shard record areas, which stay readable. -/
def State.loseKey (s : State) (dev : Nat) (p : Nat → Bool) (frames : List (Nat × Nat)) : State :=
  let shards := s.shardAreas dev
  let free (a : Nat) : Bool := !shards.any fun r => inRange r.1 r.2 a
  s.scramble (fun a => p a && free a) (frames.filter fun f => !shards.any (clash f))

/-- A tenant's key is erased (R402). -/
def State.eraseKey (s : State) (dev fn : Nat) : State :=
  let gs := s.grants dev fn
  let frames := (s.mappedFrames dev fn).filter fun f => coveredBy gs f.1 f.2
  (s.loseKey dev (fun a => gs.any fun g => inRange g.1 g.2 a) frames).setTenant dev fn { s.tenant dev fn with key := none }

/-- The owner freezes hard (R402). -/
def State.freezeOwner (s : State) (dev : Nat) : State := s.fatal dev 16 0x54

/-- The keys of a device's links are erased. -/
def State.eraseLinkKeys (s : State) (dev : Nat) : State :=
  { s with links := s.links.map fun l => if l.1 / 32 = dev then (l.1, { l.2 with keys := [] }) else l }

/-- A security alarm (R402): level 1 is logged; level 2 makes a tenant fatal and erases its key; level 3 freezes every tenant
and the owner, erases every key, and the device waits for reset. -/
def execSecurityAlarm (dev level fn : Nat) (s : State) : Out :=
  let d := s.device dev
  match level with
  | 1 => .next (s.setDevice dev { d with errorLog := d.errorLog ++ [1] })
  | 2 => .next (if (s.tenant dev fn).state = .absent || fn = 16 then s else (s.fatal dev fn 0x54).eraseKey dev fn)
  | 3 =>
    let fns := s.others dev 16
    let s := (fns.foldl (fun (s : State) fn => s.fatal dev fn 0x54) s).freezeOwner dev
    let frames := (s.mappedFrames dev 16).filter fun f => paDevice f.1 = dev
    let s := fns.foldl (fun (s : State) fn => s.eraseKey dev fn) s
    let s := (s.loseKey dev (fun a => paDevice a = dev) frames).eraseLinkKeys dev
    .next (s.setDevice dev { s.device dev with ownerKey := none, frozen := true })
  | _ => .next s

/-! ### Submission queues (R396, R397) -/

/-- A queue before anything is written to it (R396). -/
def SubQueue.reset : SubQueue := { qbase := 0, err := false, enable := false, qsize := 0, tail := 0, head := 0 }

/-- A submission queue. -/
def State.subQueue (s : State) (dev fn q : Nat) : SubQueue := (mapGet (s.device dev).queues (subKey fn q)).getD SubQueue.reset
/-- Replace one; a function has 8. -/
def State.setSubQueue (s : State) (dev fn q : Nat) (x : SubQueue) : State :=
  if q < 8 then s.setDevice dev { s.device dev with queues := mapSet (s.device dev).queues (subKey fn q) x } else s

/-- The host reaches a device's registers and memory: it is out of reset, too (R399). -/
def State.hostReaches (s : State) (dev : Nat) : Bool := s.hostPort dev && (s.device dev).up

/-- Both dies of a device wake: a doorbell or a CXL request has come (R406; DEDUCED, log entry 52). -/
def State.wakeDevice (s : State) (dev : Nat) : State := (s.wakeDie (2 * dev)).wakeDie (2 * dev + 1)

/-- The host writes a queue's tail (R396), which wakes the device (R406). -/
def execDoorbell (dev fn queue tail : Nat) (s : State) : Out :=
  .next (if s.hostReaches dev then
    (s.wakeDevice dev).setSubQueue dev fn queue { s.subQueue dev fn queue with tail := BitVec.ofNat 16 tail }
  else s)

/-- A queue after a write at an offset of its registers (R396). The base keeps no bit below its alignment. -/
def SubQueue.write (x : SubQueue) (off : Nat) (v : Dword) : SubQueue :=
  match off with
  | 0x00 => { x with qbase := v &&& ~~~0xFFF#64 }
  | 0x08 =>
    let size := (v.extractLsb' 0 5).toNat
    { x with err := x.err && !v.getLsbD 9, enable := v.getLsbD 8 && 4 ≤ size && size ≤ 16, qsize := v.extractLsb' 0 5 }
  | 0x10 => { x with tail := v.extractLsb' 0 16 }
  | _ => x

/-- The host writes a queue's control register (R396); a write of the tail is a doorbell, which wakes the device (R406). -/
def execQueueRegisterWrite (dev fn queue off value : Nat) (s : State) : Out :=
  .next (if s.hostReaches dev then
    (if off = 0x10 then s.wakeDevice dev else s).setSubQueue dev fn queue
      ((s.subQueue dev fn queue).write off (BitVec.ofNat 64 value))
  else s)

/-- Node-physical address of a host address (R193) (DEDUCED, log entry 48). -/
def hostPa (dev a : Nat) : Nat := dev * 2 ^ 50 + 2 ^ 48 + a % 2 ^ 48

/-- An entry is malformed (R397). -/
def State.entryBad (s : State) (dev fn v : Nat) : Bool :=
  v % 64 ≠ 0 || bitsOf v 63 52 ≠ 0 || v / 2 ^ 88 ≠ 0 || !s.ownsTile dev fn (bitsOf v 87 80) || bitsOf v 79 64 = 0

/-- The device submits a queue's next entry as `gnode` from its home tile would, once a context is free; a malformed one stops
the queue (R397). -/
def execQueueEntrySubmit (dev fn queue : Nat) (s : State) : Out :=
  let x := s.subQueue dev fn queue
  if !x.hasWork || !s.mayRun dev fn || (s.device dev).frozen || !s.hostReaches dev || s.dieStopped (2 * dev) then .next s
  else
    let v := s.mem.num (hostPa dev (x.qbase.toNat + 64 * (x.head.toNat % x.entries))) 64
    if s.entryBad dev fn v then .next (s.setSubQueue dev fn queue { x with err := true, enable := false })
    else
      let home := dev * 160 + bitsOf v 87 80
      match s.takeCtx fn home (bitsOf v 51 0) (bitsOf v 79 64) (s.coreOf home).user with
      | (_, none) => .next s
      | (s, some _) =>
        .next (s.setSubQueue dev fn queue { x with head := BitVec.ofNat 16 ((x.head.toNat + 1) % x.entries) })

/-! ### Host accesses to HBM (R395) -/

/-- A CXL.mem request for 64 bytes of an HBM range that the owner exposes, which wakes the device (R406); elsewhere, and where no
host port is up, the manual places no memory for it. -/
def execHostCxlMemAccess (dev addr write value : Nat) (s : State) : Out :=
  let a := addr / 64 * 64
  let ranges := (s.device dev).hdm.take 2
  if a + 64 ≤ hbmBytes && coveredBy ranges a 64 && s.hostReaches dev then
    let s := s.wakeDevice dev
    .next (if write = 0 then s else s.writeM (dev * 2 ^ 50 + a) (toBytes value 64))
  else .fault (.unpopulated addr)

/-! ### Bring-up and resets (R86, R399) -/

/-- Every region with a tile leaves the machine. -/
def State.endRegionsOn (s : State) (tiles : List Nat) : State :=
  (s.regionsOn tiles).foldl (fun (s : State) r => s.releaseRegion r.1) s

/-- A tile reset (R86, R122): its region, its commands and their reports are gone with it (DESIGN CHOICE, log entry 50). -/
def execTileReset (t : Nat) (s : State) : Out :=
  let s := ((s.endRegionsOn [t]).dropCmds fun _ c => c.tile = t).dropReports fun r => r.tile = t
  .next (s.resetTile t (fnOf (s.coreOf t).fn))

/-- The tiles of a device. -/
def deviceTiles (dev : Nat) : List Nat := (List.range 160).map (dev * 160 + ·)

/-- Everything that a device held is gone, its links untrained; its group members are struck, and what its keys encrypted is no
longer fixed. -/
def State.clearDevice (s : State) (dev : Nat) : State :=
  let s := s.endRegionsOn (deviceTiles dev)
  let s := s.dropCmds fun _ c => deviceOf c.tile = dev
  let s := s.scramble (fun a => paDevice a = dev) []
  { s with
    tiles := s.tiles.filter fun t => deviceOf t.1 ≠ dev
    dies := s.dies.filter fun d => d.1 / 2 ≠ dev
    links := s.links.filter fun l => l.1 / 32 ≠ dev
    devices := mapErase s.devices dev, contexts := s.contexts.filter fun c => c.1 / 128 ≠ dev
    relatches := s.relatches.filter fun r => r.dev ≠ dev
    strikes := s.strikes ++ [(dev, 0, 16), (dev, 1, 16)] }

/-- The HBM ranges that an owner exposes: its choice (R395; DESIGN CHOICE, log entry 2). -/
def State.exposeRanges (s : State) (dev : Nat) : State :=
  let r (i : Nat) : Nat × Nat :=
    ((Config.freeDword (s.tick + 2 * i)).toNat % hbmBytes / 2 ^ 28 * 2 ^ 28, (Config.freeDword (s.tick + 2 * i + 1)).toNat % hbmBytes / 2 ^ 28 * 2 ^ 28)
  ({ s with tick := s.tick + 4 } : State).setDevice dev { s.device dev with hdm := [r 0, r 1] }

/-- Measurement blocks 1 to 3: the digests of ROM, firmware and fuses, which the manual does not give (R399); and the size of far
memory that the expanders report, up to 4 TiB (R193; DESIGN CHOICE, log entry 2). -/
def State.measureBoot (s : State) (dev : Nat) : State :=
  let m := [1, 2, 3].map fun i => (i, (Config.freeDword (s.tick + i)).toNat)
  ({ s with tick := s.tick + 4 } : State).setDevice dev { s.device dev with measured := m, farBytes := (Config.freeDword s.tick).toNat % (2 ^ 42 + 1) }

/-- The tiles of a die that have failed, under a device's new number. -/
def State.failedTiles (s : State) (dev x number : Nat) : List Nat := (s.die (2 * dev + x)).disabled.map fun t => number * 160 + t % 160

/-- A die of a device after its reset: its failed tiles stay disabled (R3), and its clock runs once the device is up. -/
def bootDie (up : Bool) (disabled : List Nat) : Die := { Die.reset with stopped := !up, disabled := disabled }

/-- Power-on, or a reset of a device (R399): it comes up under a device number that is free in the node, with the owner enabled
and every tenant ABSENT, or stays in reset. The number is that of the straps, or of the management message before it. -/
def execPowerOnReset (dev strap base : Nat) (s : State) : Out :=
  let number := (s.device dev).nextNumber.getD strap
  let failed := [0, 1].map fun x => s.failedTiles dev x number
  let boot (s : State) (n : Nat) (up : Bool) : State :=
    (s.setDie (2 * n) (bootDie up (failed[0]?.getD []))).setDie (2 * n + 1) (bootDie up (failed[1]?.getD []))
  let s := s.clearDevice dev
  let others := s.node.filter (· ≠ dev)
  let s : State := { s with node := others }
  if number ≥ 64 || others.contains number then
    .next (boot (s.setDevice dev { Device.reset with up := false }) dev false)
  else
    let (s, key) := s.freshKey
    let s : State := { s with node := others ++ [number] }
    let s := boot (s.setDevice number { Device.reset with number := number, table := base, ownerKey := some key }) number true
    let s := (deviceTiles number).foldl (fun (s : State) t => s.resetTile t 0) s
    let s := (s.measureBoot number).exposeRanges number
    .next ((List.range 16).foldl (fun (s : State) p => s.trainPort (16 * number + p)) s)

/-! ### Management and debugging (R400, R408, R409) -/

/-- An SPDM request (R400): Isatar's answer is no state of the machine; a request of 0 stands for one that fails, which is a
level 1 alarm (R402) (DESIGN CHOICE, log entry 50). -/
def execSpdmRequest (dev request : Nat) (s : State) : Out :=
  let d := s.device dev
  .next (if request = 0 && s.hostPort dev then s.setDevice dev { d with errorLog := d.errorLog ++ [1] } else s)

/-- A management message (R408): kind 3 sets the number that a device still in reset takes at its next bring-up (R399); the others
only read (DESIGN CHOICE, log entry 50). -/
def execManagementMessage (dev kind value : Nat) (s : State) : Out :=
  let d := s.device dev
  .next (if kind = 3 && !d.up && s.hostPort dev then s.setDevice dev { d with nextNumber := some (value % 64) } else s)

/-- An owner message opens JTAG for some tenants, recorded first in measurement block 4 (R400, R409). -/
def execJtagOpen (dev tenants : Nat) (s : State) : Out :=
  let d := s.device dev
  .next (if s.hostPort dev then s.setDevice dev { d with measured := mapSet d.measured 4 tenants, debug := tenants, jtag := true } else s)

/-- The tile may be debugged (R409). -/
def State.debuggable (s : State) (t : Nat) : Bool :=
  let d := s.device (deviceOf t)
  d.jtag && (d.debug).testBit (fnOf (s.coreOf t).fn)

/-- A debugger holds a core at an instruction boundary; a waiting instruction stops without effect and runs again (R326,
R409). -/
def execDebugHold (t : Nat) (s : State) : Out :=
  if s.debuggable t then
    let s : State := match (s.coreOf t).run with
      | .waiting (.streamQueue n) => s.dropCmds fun k c => k = n || c.stage = .stalled && c.tile = t
      | _ => s
    let c := s.coreOf t
    .next (s.setCore t { c with run := c.run.saved, held := true, attached := true })
  else .next s

/-- A debugger lets a core that it holds run on, and still has it; or it leaves one that runs (DEDUCED, log entry 71). -/
def execDebuggerRelease (t : Nat) (s : State) : Out :=
  let c := s.coreOf t
  .next (s.setCore t (if c.held then { c with held := false } else { c with attached := false }))

/-- A register of a core as a debugger numbers them: g0 to g31, then pc, predicates, and the system registers from 64. -/
def Core.debugWrite (c : Core) (index : Nat) (v : Dword) : Core :=
  if index < 32 then c.setReg (BitVec.ofNat 5 index) v
  else if index = 32 then { c with pc := v.setWidth 48 }
  else if index = 33 then { c with p := v.setWidth 8 &&& 0xFE }
  else if index = 68 then c.writeMode v
  else c.writeSystem (index - 64) v

/-- A debugger reads or writes the registers of a held core that it may debug (what 0) or its tile's scratchpad, 8 bytes at a time
(what 1): the core's stores to those bytes drain before the write (R409; DESIGN CHOICE, log entry 51). -/
def execDebuggerAccess (t what index write value : Nat) (s : State) : Out :=
  if !(s.coreOf t).held || !s.debuggable t then .next s
  else if what = 0 then
    .next (if write = 0 then s else s.setCore t ((s.coreOf t).debugWrite index (BitVec.ofNat 64 value)))
  else if index + 7 > spLast then .fault (.unpopulated index)
  else if write = 0 then .next s
  else
    let here (a : Nat) : Bool := inRange (spBase t + index) 8 a
    let (s, v) := drainView s (coreAgent t) (s.coreOf t).view here
    let s := s.writeM (spBase t + index) (toBytes value 8)
    .next (s.setCore t { s.coreOf t with view := refreshView s.mem v here })

/-! ### Power steps (R403, R404) -/

/-- The dies whose clock changes with that of a die. -/
def State.stepDies (s : State) (gdie : Nat) : List Nat := if s.spans (gdie / 2) then [gdie / 2 * 2, gdie / 2 * 2 + 1] else [gdie]

/-- The governor decides on a step (R404, R407): none faster than the ceiling; one below the voltage floor is denied, and matrix
starts are delayed (R403) (DEDUCED, log entry 52). -/
def execStepChangeRequest (gdie target : Nat) (s : State) : Out :=
  let gs := s.stepDies gdie
  if target > 10 || gs.any (fun g => (s.die g).stepState ≠ .run || target < (s.die g).ceiling) || gs.all (fun g => (s.die g).step = target) then
    .next s
  else if gs.any fun g => stepVoltage target < (s.die g).vfloor then
    .next (s.mapDies gs fun d => { d with denied := true, throttled := true })
  else
    .next (s.beginStep gs target)

/-- The dies that stand with a die in one state of a step change. -/
def State.stepping (s : State) (gdie : Nat) : List Nat :=
  [gdie / 2 * 2, gdie / 2 * 2 + 1].filter fun g => g = gdie || (s.spans (gdie / 2) && (s.die g).stepState = (s.die gdie).stepState)

/-- The first of the two changes to a step: a faster one raises the voltage, a slower one switches the clock. -/
def Die.firstChange (d : Die) (target : Nat) : Die :=
  if target < d.step then { d with vnow := stepVoltage target, stepState := .ramp target }
  else { d with step := target, stepState := .ramp target }

/-- The second: a faster step switches the clock, a slower one lowers the voltage. -/
def Die.secondChange (d : Die) (target : Nat) : Die :=
  if d.step = target then { d with vnow := stepVoltage target, stepState := .switch target }
  else { d with step := target, stepState := .switch target }

/-- Every region of the die is held (R404). -/
def execStepHoldsDone (gdie : Nat) (s : State) : Out :=
  let gs := s.stepping gdie
  match (s.die gdie).stepState with
  | .holding target =>
    if (s.regionsOfDies gs).all fun r => r.2.phase = .held || r.2.phase = .waiting then .next (s.mapDies gs (Die.firstChange · target))
    else .next s
  | _ => .next s

/-- The voltage has settled or the clock is locked (R404). -/
def execStepRampDone (gdie : Nat) (s : State) : Out :=
  match (s.die gdie).stepState with
  | .ramp target => .next (s.mapDies (s.stepping gdie) (Die.secondChange · target))
  | _ => .next s

/-- The step change is done: the governor clears denied and releases its holds (R404), once a region on both dies has asked for one
step of both (R352). -/
def execStepSwitchDone (gdie : Nat) (s : State) : Out :=
  match (s.die gdie).stepState with
  | .switch _ =>
    let gs := s.stepping gdie
    let s := s.mapDies gs fun d => { d with stepState := .run, denied := false, throttled := false }
    let s := s.equalise (gdie / 2)
    if (s.die gdie).stepState ≠ .run then .next s
    else .next ((s.regionsOfDies gs).foldl (fun (s : State) r =>
      (s.setRegion r.1 { r.2 with govHold := false }).releaseHold r.1) s)
  | _ => .next s

/-! ### Idle states (R406) -/

/-- Exit latency and threshold of the idle states, in µs. -/
def idleLatency (k : Nat) : Nat := match k with
  | 1 => 2
  | 2 => 60
  | _ => 1500
def idleAfter (k : Nat) : Nat := match k with
  | 1 => 10
  | 2 => 200
  | _ => 5000

/-- The deepest idle state that a die may enter; 0 is none. -/
def Die.deepest (d : Die) : Nat :=
  (([3, 2, 1].find? fun k => idleLatency k ≤ d.tolerance && idleAfter k ≤ d.idleMicros)).getD 0

/-- A die goes to the deepest idle state allowed (R406). -/
def execIdleEntry (gdie : Nat) (s : State) : Out :=
  let d := s.die gdie
  let k := d.deepest
  .next (if s.dieQuiet gdie && d.idle < k && d.stepState = .run then s.setDie gdie { d with idle := k } else s)

/-- A die on which something has come to run wakes (R406). -/
def execIdleWake (gdie : Nat) (s : State) : Out := .next (if s.dieQuiet gdie then s else s.wakeDie gdie)

/-! ### Counter periods (R347) -/

/-- A tenant's counter period in µs (R313). -/
def periodMicros (d : BitVec 2048) : Nat := descField d 863 856 * 1000

/-- A period of a tenant has passed (R313; DEDUCED, log entry 62): the values that it reads are fixed, each rounded down to a multiple of
4,096. -/
def execCounterPeriodEnd (dev fn : Nat) (s : State) : Out :=
  let x := s.tenant dev fn
  let values := [0, 1].flatMap fun x => (List.range 5).map fun i =>
    let v := ((mapGet (s.die (2 * dev + x)).counters (0x300 + i)).getD 0).toNat
    (periodKey x (0x300 + i), BitVec.ofNat 64 (v / 4096 * 4096))
  .next (if x.periodAge < periodMicros x.desc then s else s.setTenant dev fn { x with period := values, periodAge := 0 })

end Sys2Proof.Machine
end

