-- ==== Sys2Proof/Machine/Router.lean ====
section
/-! DEFINITION. The router: its operators (R150, R151) and the forwarding of tokens between tiles (R149, R351). -/

namespace Sys2Proof.Machine

/-- What a firing operator is: its region's leader, tile, slot and word. -/
structure OpCtx where
  l : Nat
  t : Nat
  slot : Nat
  w : RouterWord
  deriving DecidableEq, Repr

/-- Where an operator reads a channel. -/
def OpCtx.src (o : OpCtx) (s : State) (c : Nat) : Src :=
  match mapGet s.regions o.l with
  | none => .const
  | some r => s.srcOf r o.t o.slot (320 + c)

/-- The token at the head of a channel that an operator reads. -/
def OpCtx.peek (o : OpCtx) (s : State) (c : Nat) : Option Token :=
  match mapGet s.regions o.l with
  | none => none
  | some r => match o.src s c with
    | .const => none
    | src => s.peekSrc r o.t o.slot 0 false src

/-- Consume the head of a channel. -/
def OpCtx.take (o : OpCtx) (s : State) (c : Nat) : State := s.takeSrc o.l o.t o.slot false (o.src s c)

/-- Consume the heads of two channels; one channel named twice is consumed once. -/
def OpCtx.take2 (o : OpCtx) (s : State) (c d : Nat) : State := if c = d then o.take s c else o.take (o.take s c) d

/-- Does an outgoing channel of the operator's tile have a free slot? -/
def OpCtx.room (o : OpCtx) (s : State) (c : Nat) : Bool := (s.tile o.t).chanRoom c

/-- Do two outgoing channels have a free slot each? One that is named twice needs two (R149, R150). -/
def OpCtx.room2 (o : OpCtx) (s : State) (c d : Nat) : Bool :=
  if c = d then ((s.tile o.t).outChan c).length + 1 < 16 else o.room s c && o.room s d

/-- Send a token on an outgoing channel. -/
def OpCtx.send (o : OpCtx) (s : State) (c : Nat) (k : Token) : State := s.pushChan o.t c k

/-- The turn of an operator on the tile and slot whose turn it is; `go` answers none where it cannot fire. -/
def opTurn (go : OpCtx → State → Option State) (s : State) : Out :=
  match s.regionOf s.cur, (s.tile s.cur).router s.slot with
  | some (l, _), some w => match go { l := l, t := s.cur, slot := s.slot, w := w } s with
    | none => .next s
    | some s =>
      let x := s.tile s.cur
      .next (s.setTile s.cur { x with unitFirings := x.unitFirings + 1 })
  | _, _ => .next s

/-- Where a pair of an inA token and a ctl token sends inA's (R150); a pair that is neither a DATA ctl with a token that
is no marker, nor one marker twice, is a mismatch (DEDUCED, log entry 24). -/
inductive Steered where
  | data (zero : Bool)
  | marker
  | mismatch
  deriving DecidableEq, Repr

/-- The pairing of steer and drop. -/
def steering (a ctl : Token) : Steered :=
  if ctl.isData then (if a.isData || a.isErr then .data (ctl.data = 0) else .mismatch)
  else if !ctl.isErr && ctl.kind = a.kind then .marker
  else .mismatch

/-- `steer` (R150). -/
def steerTurn (o : OpCtx) (s : State) : Option State :=
  let inA := o.w.inA.toNat
  let ctl := o.w.ctl.toNat
  let out0 := o.w.out0.toNat
  let out1 := o.w.out1.toNat
  match o.peek s inA, o.peek s ctl with
  | some a, some c =>
    match steering a c with
    | .data zero =>
      let out := if zero then out0 else out1
      if o.room s out then some (o.send (o.take2 s inA ctl) out a) else none
    | .marker =>
      if o.room2 s out0 out1 then some (o.send (o.send (o.take2 s inA ctl) out0 a) out1 a) else none
    | .mismatch =>
      if o.room s out0 then some (o.send (o.take2 s inA ctl) out0 (s.errTok o.t o.slot 0x14)) else none
  | _, _ => none

/-- `steer`. -/
def execSteer (s : State) : Out := opTurn steerTurn s

/-- The merge has taken a token: its arrival time is forgotten. -/
def State.forgetTime (s : State) (t c : Nat) : State :=
  let q := (s.tile t).inChan c
  s.setInChan t c { q with times := q.times.drop 1 }

/-- `merge` (R150): the earlier arrival first, and inA on a tie. -/
def mergeTurn (o : OpCtx) (s : State) : Option State :=
  let inA := o.w.inA.toNat
  let inB := o.w.inB.toNat
  let out0 := o.w.out0.toNat
  let came (c : Nat) : Nat := ((s.tile o.t).inChan c).times.headD 0
  if !o.room s out0 then none
  else match o.peek s inA, o.peek s inB with
    | none, none => none
    | some a, none => some (o.send ((o.take s inA).forgetTime o.t inA) out0 a)
    | none, some b => some (o.send ((o.take s inB).forgetTime o.t inB) out0 b)
    | some a, some b =>
      if came inA ≤ came inB then some (o.send ((o.take s inA).forgetTime o.t inA) out0 a)
      else some (o.send ((o.take s inB).forgetTime o.t inB) out0 b)

/-- `merge`. -/
def execMerge (s : State) : Out := opTurn mergeTurn s

/-- `carry` (R151): `w` is [1] in LOOP and empty in INIT. An ERR on ctl ends the loop as a marker does (DEDUCED, log entry 24). -/
def carryTurn (o : OpCtx) (s : State) : Option State :=
  let inA := o.w.inA.toNat
  let inB := o.w.inB.toNat
  let ctl := o.w.ctl.toNat
  let out0 := o.w.out0.toNat
  let u := (s.tile o.t).unitAt o.slot
  let become (s : State) (w : List Word) : State := s.setUnit o.t o.slot { u with w := w }
  if u.w = [] then
    match o.peek s inA with
    | some a => if o.room s out0 then some (become (o.send (o.take s inA) out0 a) [1]) else none
    | none => none
  else match o.peek s ctl with
    | none => none
    | some c =>
      if !c.isData then (if o.room s out0 then some (become (o.send (o.take s ctl) out0 c) []) else none)
      else if c.data = 0 then some (become (o.take s ctl) [])
      else match o.peek s inB with
        | some b => if o.room s out0 then some (o.send (o.take2 s inB ctl) out0 b) else none
        | none => none

/-- `carry`. -/
def execCarry (s : State) : Out := opTurn carryTurn s

/-- `fork` (R150). -/
def execFork (s : State) : Out :=
  opTurn (fun o s =>
    let inA := o.w.inA.toNat
    let out0 := o.w.out0.toNat
    let out1 := o.w.out1.toNat
    match o.peek s inA with
    | some a =>
      if o.room2 s out0 out1 then some (o.send (o.send (o.take s inA) out0 a) out1 a) else none
    | none => none) s

/-- `drop` (R150). -/
def execDrop (s : State) : Out :=
  opTurn (fun o s =>
    let inA := o.w.inA.toNat
    let ctl := o.w.ctl.toNat
    let out0 := o.w.out0.toNat
    match o.peek s inA, o.peek s ctl with
    | some a, some c =>
      match steering a c with
      | .data zero =>
        if zero then some (o.take2 s inA ctl)
        else if o.room s out0 then some (o.send (o.take2 s inA ctl) out0 a) else none
      | .marker => if o.room s out0 then some (o.send (o.take2 s inA ctl) out0 a) else none
      | .mismatch =>
        if o.room s out0 then some (o.send (o.take2 s inA ctl) out0 (s.errTok o.t o.slot 0x14)) else none
    | _, _ => none) s

/-! ### Forwarding (R149) -/

/-- The stations that read an incoming channel through a boundary queue, and whether its tokens stand in the channel itself:
for a reader of the station that feeds it, or because nothing reads it and only entry 0x3F discards (R149). -/
def Region.chanKeys (r : Region) (x : Tile) (t c : Nat) : List Nat × Bool :=
  let rs := x.readers (320 + c)
  (((rs.map fun n => queueKey t (320 + c) (x.stationOf n)).eraseDups).filter fun k => (mapGet r.queues k).isSome,
   rs = [] || rs.any fun n => (mapGet r.queues (queueKey t (320 + c) (x.stationOf n))).isNone)

/-- A token arrives on a local or operator channel: into each reading station's boundary queue and, for readers of the
station that feeds it, into the channel's slots; none where one of them has no room. -/
def State.arrive (s : State) (t c : Nat) (k : Token) : Option State :=
  let x := s.tile t
  let q := x.inChan c
  let merge := x.enabled.any fun n => x.routerOp n = 1 && 328 ≤ n && (x.reads n).contains (320 + c)
  let times := if merge then q.times ++ [(s.die (dieOf t)).cycle] else q.times
  match s.regionOf t with
  | none => if q.q.length < 16 then some (s.setInChan t c { q with q := q.q ++ [k], times := times }) else none
  | some (l, r) =>
    let (keys, here) := r.chanKeys x t c
    let room := keys.all fun key => match mapGet r.queues key with
      | some b => decide (b.fill.length < 32)
      | none => true
    if !room || (here && 16 ≤ q.q.length) then none
    else
      let r := keys.foldl (fun r key => match mapGet r.queues key with
        | none => r
        | some b => (r.fillQueue key (r.station b.src).tag k).getD r) r
      some ((s.setRegion l r).setInChan t c
        { q with q := (if here then q.q ++ [k] else q.q), times := times })

/-- A token crosses from a tile to its neighbour on incoming channel c, and goes by the channel map's entry (R149), while the
clocks of both run and neither is disabled (R3, R406, R408). -/
def execRouterForward (t chan : Nat) (s : State) : Out :=
  match (if chan < 40 then neighbour t (chan / 8) else none) with
  | none => .next s
  | some u =>
    let y := s.tile u
    if s.tileStops t || s.tileStops u then .next s
    else match y.outChan (facing chan) with
    | [] => .next s
    | k :: rest =>
      let chans := if rest = [] then mapErase y.chanOut (facing chan) else mapSet y.chanOut (facing chan) rest
      let s1 := s.setTile u { y with chanOut := chans }
      let e := (s.tile t).chanEntry chan
      if e ≤ 0x27 then .next (if (s.tile t).chanRoom e then s1.pushChan t e k else s)
      else if e = 0x3D || e = 0x3E then .next ((s1.arrive t chan k).getD s)
      else .next s1

end Sys2Proof.Machine
end

