-- ==== Sys2Proof/Machine/Dispatch.lean ====
section
/-! DEFINITION. The dispatch: one arm for each row of the opcode table. -/

namespace Sys2Proof.Machine

/-- The meaning of an instruction or act in a state. -/
def exec (i : Instr) (s : State) : Host.Outcome State Fault Refusal :=
  match i with
  | .brB f => Sys2Proof.Machine.execBrB f s
  | .brC f => Sys2Proof.Machine.execBrC f s
  | .bpB f => Sys2Proof.Machine.execBpB f s
  | .bpC f => Sys2Proof.Machine.execBpC f s
  | .callB f => Sys2Proof.Machine.execCallB f s
  | .callC f => Sys2Proof.Machine.execCallC f s
  | .ret f => Sys2Proof.Machine.execRet f s
  | .jr f => Sys2Proof.Machine.execJr f s
  | .done f => Sys2Proof.Machine.execDone f s
  | .loopB f => Sys2Proof.Machine.execLoopB f s
  | .loopC f => Sys2Proof.Machine.execLoopC f s
  | .wfe f => Sys2Proof.Machine.execWfe f s
  | .trapB f => Sys2Proof.Machine.execTrapB f s
  | .eret f => Sys2Proof.Machine.execEret f s
  | .brk f => Sys2Proof.Machine.execBrk f s
  | .addA f => Sys2Proof.Machine.execAddA f s
  | .addB f => Sys2Proof.Machine.execAddB f s
  | .addC f => Sys2Proof.Machine.execAddC f s
  | .subA f => Sys2Proof.Machine.execSubA f s
  | .subB f => Sys2Proof.Machine.execSubB f s
  | .subC f => Sys2Proof.Machine.execSubC f s
  | .andA f => Sys2Proof.Machine.execAndA f s
  | .andB f => Sys2Proof.Machine.execAndB f s
  | .andC f => Sys2Proof.Machine.execAndC f s
  | .orA f => Sys2Proof.Machine.execOrA f s
  | .orB f => Sys2Proof.Machine.execOrB f s
  | .orC f => Sys2Proof.Machine.execOrC f s
  | .xorA f => Sys2Proof.Machine.execXorA f s
  | .xorB f => Sys2Proof.Machine.execXorB f s
  | .xorC f => Sys2Proof.Machine.execXorC f s
  | .andnA f => Sys2Proof.Machine.execAndnA f s
  | .andnB f => Sys2Proof.Machine.execAndnB f s
  | .andnC f => Sys2Proof.Machine.execAndnC f s
  | .shlA f => Sys2Proof.Machine.execShlA f s
  | .shlB f => Sys2Proof.Machine.execShlB f s
  | .shlC f => Sys2Proof.Machine.execShlC f s
  | .shrA f => Sys2Proof.Machine.execShrA f s
  | .shrB f => Sys2Proof.Machine.execShrB f s
  | .shrC f => Sys2Proof.Machine.execShrC f s
  | .sarA f => Sys2Proof.Machine.execSarA f s
  | .sarB f => Sys2Proof.Machine.execSarB f s
  | .sarC f => Sys2Proof.Machine.execSarC f s
  | .rotlA f => Sys2Proof.Machine.execRotlA f s
  | .rotlB f => Sys2Proof.Machine.execRotlB f s
  | .rotlC f => Sys2Proof.Machine.execRotlC f s
  | .minA f => Sys2Proof.Machine.execMinA f s
  | .minB f => Sys2Proof.Machine.execMinB f s
  | .minC f => Sys2Proof.Machine.execMinC f s
  | .maxA f => Sys2Proof.Machine.execMaxA f s
  | .maxB f => Sys2Proof.Machine.execMaxB f s
  | .maxC f => Sys2Proof.Machine.execMaxC f s
  | .minuA f => Sys2Proof.Machine.execMinuA f s
  | .minuB f => Sys2Proof.Machine.execMinuB f s
  | .minuC f => Sys2Proof.Machine.execMinuC f s
  | .maxuA f => Sys2Proof.Machine.execMaxuA f s
  | .maxuB f => Sys2Proof.Machine.execMaxuB f s
  | .maxuC f => Sys2Proof.Machine.execMaxuC f s
  | .selA f => Sys2Proof.Machine.execSelA f s
  | .selB f => Sys2Proof.Machine.execSelB f s
  | .selC f => Sys2Proof.Machine.execSelC f s
  | .movA f => Sys2Proof.Machine.execMovA f s
  | .movB f => Sys2Proof.Machine.execMovB f s
  | .movC f => Sys2Proof.Machine.execMovC f s
  | .mulA f => Sys2Proof.Machine.execMulA f s
  | .mulB f => Sys2Proof.Machine.execMulB f s
  | .mulC f => Sys2Proof.Machine.execMulC f s
  | .mulhA f => Sys2Proof.Machine.execMulhA f s
  | .mulhB f => Sys2Proof.Machine.execMulhB f s
  | .mulhC f => Sys2Proof.Machine.execMulhC f s
  | .mulhuA f => Sys2Proof.Machine.execMulhuA f s
  | .mulhuB f => Sys2Proof.Machine.execMulhuB f s
  | .mulhuC f => Sys2Proof.Machine.execMulhuC f s
  | .divA f => Sys2Proof.Machine.execDivA f s
  | .divB f => Sys2Proof.Machine.execDivB f s
  | .divC f => Sys2Proof.Machine.execDivC f s
  | .divuA f => Sys2Proof.Machine.execDivuA f s
  | .divuB f => Sys2Proof.Machine.execDivuB f s
  | .divuC f => Sys2Proof.Machine.execDivuC f s
  | .remA f => Sys2Proof.Machine.execRemA f s
  | .remB f => Sys2Proof.Machine.execRemB f s
  | .remC f => Sys2Proof.Machine.execRemC f s
  | .remuA f => Sys2Proof.Machine.execRemuA f s
  | .remuB f => Sys2Proof.Machine.execRemuB f s
  | .remuC f => Sys2Proof.Machine.execRemuC f s
  | .clz f => Sys2Proof.Machine.execClz f s
  | .ctz f => Sys2Proof.Machine.execCtz f s
  | .popc f => Sys2Proof.Machine.execPopc f s
  | .extA f => Sys2Proof.Machine.execExtA f s
  | .extB f => Sys2Proof.Machine.execExtB f s
  | .bfx f => Sys2Proof.Machine.execBfx f s
  | .bfi f => Sys2Proof.Machine.execBfi f s
  | .brev f => Sys2Proof.Machine.execBrev f s
  | .bswap f => Sys2Proof.Machine.execBswap f s
  | .addcpA f => Sys2Proof.Machine.execAddcpA f s
  | .addcpB f => Sys2Proof.Machine.execAddcpB f s
  | .addcpC f => Sys2Proof.Machine.execAddcpC f s
  | .cmpA f => Sys2Proof.Machine.execCmpA f s
  | .cmpB f => Sys2Proof.Machine.execCmpB f s
  | .cmpC f => Sys2Proof.Machine.execCmpC f s
  | .pand f => Sys2Proof.Machine.execPand f s
  | .por f => Sys2Proof.Machine.execPor f s
  | .pxor f => Sys2Proof.Machine.execPxor f s
  | .pnot f => Sys2Proof.Machine.execPnot f s
  | .pset f => Sys2Proof.Machine.execPset f s
  | .pget f => Sys2Proof.Machine.execPget f s
  | .leaA f => Sys2Proof.Machine.execLeaA f s
  | .leaB f => Sys2Proof.Machine.execLeaB f s
  | .leaC f => Sys2Proof.Machine.execLeaC f s
  | .pcrelB f => Sys2Proof.Machine.execPcrelB f s
  | .pcrelC f => Sys2Proof.Machine.execPcrelC f s
  | .ldA f => Sys2Proof.Machine.execLdA f s
  | .ldB f => Sys2Proof.Machine.execLdB f s
  | .ldC f => Sys2Proof.Machine.execLdC f s
  | .stA f => Sys2Proof.Machine.execStA f s
  | .stB f => Sys2Proof.Machine.execStB f s
  | .stC f => Sys2Proof.Machine.execStC f s
  | .ldpA f => Sys2Proof.Machine.execLdpA f s
  | .ldpB f => Sys2Proof.Machine.execLdpB f s
  | .stpA f => Sys2Proof.Machine.execStpA f s
  | .stpB f => Sys2Proof.Machine.execStpB f s
  | .gldA f => Sys2Proof.Machine.execGldA f s
  | .gldB f => Sys2Proof.Machine.execGldB f s
  | .gstA f => Sys2Proof.Machine.execGstA f s
  | .gstB f => Sys2Proof.Machine.execGstB f s
  | .amo f => Sys2Proof.Machine.execAmo f s
  | .cas f => Sys2Proof.Machine.execCas f s
  | .phase f => Sys2Proof.Machine.execPhase f s
  | .barvA f => Sys2Proof.Machine.execBarvA f s
  | .barvB f => Sys2Proof.Machine.execBarvB f s
  | .bwait f => Sys2Proof.Machine.execBwait f s
  | .bexpA f => Sys2Proof.Machine.execBexpA f s
  | .bexpB f => Sys2Proof.Machine.execBexpB f s
  | .tlook f => Sys2Proof.Machine.execTlook f s
  | .tinsA f => Sys2Proof.Machine.execTinsA f s
  | .tinsB f => Sys2Proof.Machine.execTinsB f s
  | .tevict f => Sys2Proof.Machine.execTevict f s
  | .faddA f => Sys2Proof.Machine.execFaddA f s
  | .faddC f => Sys2Proof.Machine.execFaddC f s
  | .fsubA f => Sys2Proof.Machine.execFsubA f s
  | .fsubC f => Sys2Proof.Machine.execFsubC f s
  | .fmulA f => Sys2Proof.Machine.execFmulA f s
  | .fmulC f => Sys2Proof.Machine.execFmulC f s
  | .fmaA f => Sys2Proof.Machine.execFmaA f s
  | .fmaC f => Sys2Proof.Machine.execFmaC f s
  | .fmsA f => Sys2Proof.Machine.execFmsA f s
  | .fmsC f => Sys2Proof.Machine.execFmsC f s
  | .fnmaA f => Sys2Proof.Machine.execFnmaA f s
  | .fnmaC f => Sys2Proof.Machine.execFnmaC f s
  | .fdivA f => Sys2Proof.Machine.execFdivA f s
  | .fdivC f => Sys2Proof.Machine.execFdivC f s
  | .fsqrt f => Sys2Proof.Machine.execFsqrt f s
  | .fminA f => Sys2Proof.Machine.execFminA f s
  | .fminC f => Sys2Proof.Machine.execFminC f s
  | .fmaxA f => Sys2Proof.Machine.execFmaxA f s
  | .fmaxC f => Sys2Proof.Machine.execFmaxC f s
  | .fcmpA f => Sys2Proof.Machine.execFcmpA f s
  | .fcmpC f => Sys2Proof.Machine.execFcmpC f s
  | .fcvt f => Sys2Proof.Machine.execFcvt f s
  | .fclass f => Sys2Proof.Machine.execFclass f s
  | .fsgnA f => Sys2Proof.Machine.execFsgnA f s
  | .fsgnC f => Sys2Proof.Machine.execFsgnC f s
  | .frnd f => Sys2Proof.Machine.execFrnd f s
  | .fputA f => Sys2Proof.Machine.execFputA f s
  | .fputB f => Sys2Proof.Machine.execFputB f s
  | .fgetA f => Sys2Proof.Machine.execFgetA f s
  | .fgetB f => Sys2Proof.Machine.execFgetB f s
  | .fcntA f => Sys2Proof.Machine.execFcntA f s
  | .fcntB f => Sys2Proof.Machine.execFcntB f s
  | .acrd f => Sys2Proof.Machine.execAcrd f s
  | .acclr f => Sys2Proof.Machine.execAcclr f s
  | .cfglA f => Sys2Proof.Machine.execCfglA f s
  | .cfglB f => Sys2Proof.Machine.execCfglB f s
  | .argwA f => Sys2Proof.Machine.execArgwA f s
  | .argwB f => Sys2Proof.Machine.execArgwB f s
  | .argwC f => Sys2Proof.Machine.execArgwC f s
  | .bsetA f => Sys2Proof.Machine.execBsetA f s
  | .bsetB f => Sys2Proof.Machine.execBsetB f s
  | .bget f => Sys2Proof.Machine.execBget f s
  | .bhold f => Sys2Proof.Machine.execBhold f s
  | .bgo f => Sys2Proof.Machine.execBgo f s
  | .rfstA f => Sys2Proof.Machine.execRfstA f s
  | .rfstB f => Sys2Proof.Machine.execRfstB f s
  | .rfclA f => Sys2Proof.Machine.execRfclA f s
  | .rfclB f => Sys2Proof.Machine.execRfclB f s
  | .dqpush f => Sys2Proof.Machine.execDqpush f s
  | .dqpop f => Sys2Proof.Machine.execDqpop f s
  | .dqstealA f => Sys2Proof.Machine.execDqstealA f s
  | .dqstealB f => Sys2Proof.Machine.execDqstealB f s
  | .armA f => Sys2Proof.Machine.execArmA f s
  | .armB f => Sys2Proof.Machine.execArmB f s
  | .evget f => Sys2Proof.Machine.execEvget f s
  | .gnodeA f => Sys2Proof.Machine.execGnodeA f s
  | .gnodeB f => Sys2Proof.Machine.execGnodeB f s
  | .gsigA f => Sys2Proof.Machine.execGsigA f s
  | .gsigB f => Sys2Proof.Machine.execGsigB f s
  | .yield f => Sys2Proof.Machine.execYield f s
  | .gsendA f => Sys2Proof.Machine.execGsendA f s
  | .gsendB f => Sys2Proof.Machine.execGsendB f s
  | .gsendXA f => Sys2Proof.Machine.execGsendXA f s
  | .gsendXB f => Sys2Proof.Machine.execGsendXB f s
  | .gsendoA f => Sys2Proof.Machine.execGsendoA f s
  | .gsendoB f => Sys2Proof.Machine.execGsendoB f s
  | .grecvA f => Sys2Proof.Machine.execGrecvA f s
  | .grecvB f => Sys2Proof.Machine.execGrecvB f s
  | .greadyA f => Sys2Proof.Machine.execGreadyA f s
  | .greadyB f => Sys2Proof.Machine.execGreadyB f s
  | .gunreadyA f => Sys2Proof.Machine.execGunreadyA f s
  | .gunreadyB f => Sys2Proof.Machine.execGunreadyB f s
  | .gack f => Sys2Proof.Machine.execGack f s
  | .gstatA f => Sys2Proof.Machine.execGstatA f s
  | .gstatB f => Sys2Proof.Machine.execGstatB f s
  | .xmask f => Sys2Proof.Machine.execXmask f s
  | .sdq f => Sys2Proof.Machine.execSdq f s
  | .sdacc f => Sys2Proof.Machine.execSdacc f s
  | .sdsave f => Sys2Proof.Machine.execSdsave f s
  | .sdload f => Sys2Proof.Machine.execSdload f s
  | .sdcapA f => Sys2Proof.Machine.execSdcapA f s
  | .sdcapB f => Sys2Proof.Machine.execSdcapB f s
  | .sdrstA f => Sys2Proof.Machine.execSdrstA f s
  | .sdrstB f => Sys2Proof.Machine.execSdrstB f s
  | .sget f => Sys2Proof.Machine.execSget f s
  | .sset f => Sys2Proof.Machine.execSset f s
  | .relatch f => Sys2Proof.Machine.execRelatch f s
  | .ctxsv f => Sys2Proof.Machine.execCtxsv f s
  | .ctxld f => Sys2Proof.Machine.execCtxld f s
  | .tidw f => Sys2Proof.Machine.execTidw f s
  | .tidr f => Sys2Proof.Machine.execTidr f s
  | .pwrA f => Sys2Proof.Machine.execPwrA f s
  | .pwrB f => Sys2Proof.Machine.execPwrB f s
  | .cntr f => Sys2Proof.Machine.execCntr f s
  | .cntc f => Sys2Proof.Machine.execCntc f s
  | .wfeWake t => Sys2Proof.Machine.execWfeWake t s
  | .bwaitObserve t => Sys2Proof.Machine.execBwaitObserve t s
  | .fputResume t => Sys2Proof.Machine.execFputResume t s
  | .fgetResume t => Sys2Proof.Machine.execFgetResume t s
  | .fgetTimeout t => Sys2Proof.Machine.execFgetTimeout t s
  | .fcntResume t => Sys2Proof.Machine.execFcntResume t s
  | .beatInsnResume t => Sys2Proof.Machine.execBeatInsnResume t s
  | .gsendResume t => Sys2Proof.Machine.execGsendResume t s
  | .groupInstall t => Sys2Proof.Machine.execGroupInstall t s
  | .sdloadInstall cmd => Sys2Proof.Machine.execSdloadInstall cmd s
  | .draftWaitEnd t => Sys2Proof.Machine.execDraftWaitEnd t s
  | .relatchDone t => Sys2Proof.Machine.execRelatchDone t s
  | .relatchTimeout t => Sys2Proof.Machine.execRelatchTimeout t s
  | .streamQueueAdmit t => Sys2Proof.Machine.execStreamQueueAdmit t s
  | .commandDispatch t eng => Sys2Proof.Machine.execCommandDispatch t eng s
  | .elDelayOutput t slot => Sys2Proof.Machine.execElDelayOutput t slot s
  | .mwrEotDrain t m => Sys2Proof.Machine.execMwrEotDrain t m s
  | .relatchTokenConsume t m => Sys2Proof.Machine.execRelatchTokenConsume t m s
  | .relatchTokenEmerge age => Sys2Proof.Machine.execRelatchTokenEmerge age s
  | .routerForward t chan => Sys2Proof.Machine.execRouterForward t chan s
  | .actorFiring t => Sys2Proof.Machine.execActorFiring t s
  | .engineRead cmd k => Sys2Proof.Machine.execEngineRead cmd k s
  | .engineWrite cmd k => Sys2Proof.Machine.execEngineWrite cmd k s
  | .writeOnceReadResume t => Sys2Proof.Machine.execWriteOnceReadResume t s
  | .engineComplete cmd => Sys2Proof.Machine.execEngineComplete cmd s
  | .engineReport eng => Sys2Proof.Machine.execEngineReport eng s
  | .sbarArrive t => Sys2Proof.Machine.execSbarArrive t s
  | .seep agent addr => Sys2Proof.Machine.execSeep agent addr s
  | .pageWalk age va access => Sys2Proof.Machine.execPageWalk age va access s
  | .portAgeStream t => Sys2Proof.Machine.execPortAgeStream t s
  | .regionLoad cmd => Sys2Proof.Machine.execRegionLoad cmd s
  | .residencyWaitEnd cmd => Sys2Proof.Machine.execResidencyWaitEnd cmd s
  | .sourceItemAdmit leader port => Sys2Proof.Machine.execSourceItemAdmit leader port s
  | .issueGateClose leader station => Sys2Proof.Machine.execIssueGateClose leader station s
  | .beatBoundary leader => Sys2Proof.Machine.execBeatBoundary leader s
  | .slipEnd leader => Sys2Proof.Machine.execSlipEnd leader s
  | .governorWindow leader => Sys2Proof.Machine.execGovernorWindow leader s
  | .sinkReport leader sink => Sys2Proof.Machine.execSinkReport leader sink s
  | .configParityError t slot => Sys2Proof.Machine.execConfigParityError t slot s
  | .configParityRepair leader => Sys2Proof.Machine.execConfigParityRepair leader s
  | .ringRendezvous cluster => Sys2Proof.Machine.execRingRendezvous cluster s
  | .ringTimeout t => Sys2Proof.Machine.execRingTimeout t s
  | .matrixCommandStart t sn => Sys2Proof.Machine.execMatrixCommandStart t sn s
  | .smatRow t => Sys2Proof.Machine.execSmatRow t s
  | .stripDeliver t => Sys2Proof.Machine.execStripDeliver t s
  | .graphNodeRun ctx => Sys2Proof.Machine.execGraphNodeRun ctx s
  | .graphNodeFinish ctx node => Sys2Proof.Machine.execGraphNodeFinish ctx node s
  | .endNode ctx => Sys2Proof.Machine.execEndNode ctx s
  | .contextFree ctx => Sys2Proof.Machine.execContextFree ctx s
  | .spawnRead ctx node => Sys2Proof.Machine.execSpawnRead ctx node s
  | .spawnTaskPush ctx node => Sys2Proof.Machine.execSpawnTaskPush ctx node s
  | .wsSample dev fn => Sys2Proof.Machine.execWsSample dev fn s
  | .pageMove dev fn va frame => Sys2Proof.Machine.execPageMove dev fn va frame s
  | .quantumExpiry dev fn => Sys2Proof.Machine.execQuantumExpiry dev fn s
  | .softPreemptTimeout dev fn => Sys2Proof.Machine.execSoftPreemptTimeout dev fn s
  | .quantumGrant dev fn => Sys2Proof.Machine.execQuantumGrant dev fn s
  | .hang dev fn => Sys2Proof.Machine.execHang dev fn s
  | .streamPair txPort rxPort => Sys2Proof.Machine.execStreamPair txPort rxPort s
  | .streamTokenTransfer txPort => Sys2Proof.Machine.execStreamTokenTransfer txPort s
  | .streamCloseMark rxPort => Sys2Proof.Machine.execStreamCloseMark rxPort s
  | .frameReceive link frame => Sys2Proof.Machine.execFrameReceive link frame s
  | .nakReceive link ack => Sys2Proof.Machine.execNakReceive link ack s
  | .ackReceive link ack => Sys2Proof.Machine.execAckReceive link ack s
  | .keyRenewal link => Sys2Proof.Machine.execKeyRenewal link s
  | .laneFailure link => Sys2Proof.Machine.execLaneFailure link s
  | .linkDown link => Sys2Proof.Machine.execLinkDown link s
  | .sendAtRoot send => Sys2Proof.Machine.execSendAtRoot send s
  | .sendSteer send => Sys2Proof.Machine.execSendSteer send s
  | .orderwaitRelease send => Sys2Proof.Machine.execOrderwaitRelease send s
  | .parkedRestart group => Sys2Proof.Machine.execParkedRestart group s
  | .groupParkTimeout send => Sys2Proof.Machine.execGroupParkTimeout send s
  | .readinessArrive msg => Sys2Proof.Machine.execReadinessArrive msg s
  | .ackArrive msg => Sys2Proof.Machine.execAckArrive msg s
  | .struck dev die fn => Sys2Proof.Machine.execStruck dev die fn s
  | .biased t set => Sys2Proof.Machine.execBiased t set s
  | .dieLost gdie => Sys2Proof.Machine.execDieLost gdie s
  | .thermalTrip gdie => Sys2Proof.Machine.execThermalTrip gdie s
  | .eccUncorrectable dev fn => Sys2Proof.Machine.execEccUncorrectable dev fn s
  | .spareExhausted gdie => Sys2Proof.Machine.execSpareExhausted gdie s
  | .securityAlarm dev level fn => Sys2Proof.Machine.execSecurityAlarm dev level fn s
  | .doorbell dev fn queue tail => Sys2Proof.Machine.execDoorbell dev fn queue tail s
  | .queueEntrySubmit dev fn queue => Sys2Proof.Machine.execQueueEntrySubmit dev fn queue s
  | .queueRegisterWrite dev fn queue off value => Sys2Proof.Machine.execQueueRegisterWrite dev fn queue off value s
  | .powerOnReset dev number base => Sys2Proof.Machine.execPowerOnReset dev number base s
  | .tileReset t => Sys2Proof.Machine.execTileReset t s
  | .spdmRequest dev request => Sys2Proof.Machine.execSpdmRequest dev request s
  | .managementMessage dev kind value => Sys2Proof.Machine.execManagementMessage dev kind value s
  | .jtagOpen dev tenants => Sys2Proof.Machine.execJtagOpen dev tenants s
  | .debugHold t => Sys2Proof.Machine.execDebugHold t s
  | .stepChangeRequest gdie target => Sys2Proof.Machine.execStepChangeRequest gdie target s
  | .stepHoldsDone gdie => Sys2Proof.Machine.execStepHoldsDone gdie s
  | .stepRampDone gdie => Sys2Proof.Machine.execStepRampDone gdie s
  | .stepSwitchDone gdie => Sys2Proof.Machine.execStepSwitchDone gdie s
  | .idleEntry gdie => Sys2Proof.Machine.execIdleEntry gdie s
  | .idleWake gdie => Sys2Proof.Machine.execIdleWake gdie s
  | .takenNotice msg => Sys2Proof.Machine.execTakenNotice msg s
  | .counterPeriodEnd dev fn => Sys2Proof.Machine.execCounterPeriodEnd dev fn s
  | .hostCxlMemAccess dev addr write value => Sys2Proof.Machine.execHostCxlMemAccess dev addr write value s
  | .debuggerRelease t => Sys2Proof.Machine.execDebuggerRelease t s
  | .debuggerAccess t what index write value => Sys2Proof.Machine.execDebuggerAccess t what index write value s
  | .nop => Sys2Proof.Machine.execNop s
  | .sport => Sys2Proof.Machine.execSport s
  | .ssink => Sys2Proof.Machine.execSsink s
  | .sfill => Sys2Proof.Machine.execSfill s
  | .sage => Sys2Proof.Machine.execSage s
  | .sbound => Sys2Proof.Machine.execSbound s
  | .scfg => Sys2Proof.Machine.execScfg s
  | .sarg => Sys2Proof.Machine.execSarg s
  | .sldw => Sys2Proof.Machine.execSldw s
  | .sswap => Sys2Proof.Machine.execSswap s
  | .smat => Sys2Proof.Machine.execSmat s
  | .scopy => Sys2Proof.Machine.execScopy s
  | .sgath => Sys2Proof.Machine.execSgath s
  | .sscat => Sys2Proof.Machine.execSscat s
  | .slay => Sys2Proof.Machine.execSlay s
  | .sring => Sys2Proof.Machine.execSring s
  | .sbar => Sys2Proof.Machine.execSbar s
  | .swo => Sys2Proof.Machine.execSwo s
  | .squant => Sys2Proof.Machine.execSquant s
  | .stier => Sys2Proof.Machine.execStier s
  | .sxfer => Sys2Proof.Machine.execSxfer s
  | .sclose => Sys2Proof.Machine.execSclose s
  | .smark => Sys2Proof.Machine.execSmark s
  | .elIadd => Sys2Proof.Machine.execElIadd s
  | .elIsub => Sys2Proof.Machine.execElIsub s
  | .elImul => Sys2Proof.Machine.execElImul s
  | .elImac => Sys2Proof.Machine.execElImac s
  | .elIand => Sys2Proof.Machine.execElIand s
  | .elIor => Sys2Proof.Machine.execElIor s
  | .elIxor => Sys2Proof.Machine.execElIxor s
  | .elIshl => Sys2Proof.Machine.execElIshl s
  | .elIshr => Sys2Proof.Machine.execElIshr s
  | .elIsar => Sys2Proof.Machine.execElIsar s
  | .elImin => Sys2Proof.Machine.execElImin s
  | .elImax => Sys2Proof.Machine.execElImax s
  | .elIcmp => Sys2Proof.Machine.execElIcmp s
  | .elIsel => Sys2Proof.Machine.execElIsel s
  | .elFadd => Sys2Proof.Machine.execElFadd s
  | .elFsub => Sys2Proof.Machine.execElFsub s
  | .elFmul => Sys2Proof.Machine.execElFmul s
  | .elFma => Sys2Proof.Machine.execElFma s
  | .elFmin => Sys2Proof.Machine.execElFmin s
  | .elFmax => Sys2Proof.Machine.execElFmax s
  | .elFcmp => Sys2Proof.Machine.execElFcmp s
  | .elFabs => Sys2Proof.Machine.execElFabs s
  | .elFdiv => Sys2Proof.Machine.execElFdiv s
  | .elFsqrt => Sys2Proof.Machine.execElFsqrt s
  | .elFrsq => Sys2Proof.Machine.execElFrsq s
  | .elFexp2 => Sys2Proof.Machine.execElFexp2 s
  | .elFlog2 => Sys2Proof.Machine.execElFlog2 s
  | .elFtanh => Sys2Proof.Machine.execElFtanh s
  | .elCvtin => Sys2Proof.Machine.execElCvtin s
  | .elCvtout => Sys2Proof.Machine.execElCvtout s
  | .elPack => Sys2Proof.Machine.execElPack s
  | .elUnpack => Sys2Proof.Machine.execElUnpack s
  | .elQuant => Sys2Proof.Machine.execElQuant s
  | .elScale => Sys2Proof.Machine.execElScale s
  | .elItof => Sys2Proof.Machine.execElItof s
  | .elFtoi => Sys2Proof.Machine.execElFtoi s
  | .elRsum => Sys2Proof.Machine.execElRsum s
  | .elRmax => Sys2Proof.Machine.execElRmax s
  | .elRmaxabs => Sys2Proof.Machine.execElRmaxabs s
  | .elRmin => Sys2Proof.Machine.execElRmin s
  | .elRcnt => Sys2Proof.Machine.execElRcnt s
  | .elScan => Sys2Proof.Machine.execElScan s
  | .elMstrip => Sys2Proof.Machine.execElMstrip s
  | .elMins => Sys2Proof.Machine.execElMins s
  | .elDelayIntake => Sys2Proof.Machine.execElDelayIntake s
  | .elConst => Sys2Proof.Machine.execElConst s
  | .elIota => Sys2Proof.Machine.execElIota s
  | .elSel => Sys2Proof.Machine.execElSel s
  | .elDsel => Sys2Proof.Machine.execElDsel s
  | .elJoin => Sys2Proof.Machine.execElJoin s
  | .elGate => Sys2Proof.Machine.execElGate s
  | .elErr => Sys2Proof.Machine.execElErr s
  | .elMrd => Sys2Proof.Machine.execElMrd s
  | .elMwr => Sys2Proof.Machine.execElMwr s
  | .elMamo => Sys2Proof.Machine.execElMamo s
  | .elPub => Sys2Proof.Machine.execElPub s
  | .elAcq => Sys2Proof.Machine.execElAcq s
  | .elAgen => Sys2Proof.Machine.execElAgen s
  | .elLgen => Sys2Proof.Machine.execElLgen s
  | .elMfeed => Sys2Proof.Machine.execElMfeed s
  | .elNorm => Sys2Proof.Machine.execElNorm s
  | .elAcc => Sys2Proof.Machine.execElAcc s
  | .elCadd => Sys2Proof.Machine.execElCadd s
  | .elLut => Sys2Proof.Machine.execElLut s
  | .elBsplit => Sys2Proof.Machine.execElBsplit s
  | .elBjoin => Sys2Proof.Machine.execElBjoin s
  | .steer => Sys2Proof.Machine.execSteer s
  | .merge => Sys2Proof.Machine.execMerge s
  | .carry => Sys2Proof.Machine.execCarry s
  | .fork => Sys2Proof.Machine.execFork s
  | .drop => Sys2Proof.Machine.execDrop s
  | .layoutStop => Sys2Proof.Machine.execLayoutStop s
  | .layoutFor => Sys2Proof.Machine.execLayoutFor s
  | .layoutNext => Sys2Proof.Machine.execLayoutNext s
  | .layoutRd => Sys2Proof.Machine.execLayoutRd s
  | .layoutWr => Sys2Proof.Machine.execLayoutWr s
  | .layoutTr8 => Sys2Proof.Machine.execLayoutTr8 s
  | .layoutSwz => Sys2Proof.Machine.execLayoutSwz s
  | .layoutPad => Sys2Proof.Machine.execLayoutPad s
  | .layoutCvt => Sys2Proof.Machine.execLayoutCvt s
  | .layoutAdv => Sys2Proof.Machine.execLayoutAdv s
  | .layoutMark => Sys2Proof.Machine.execLayoutMark s
  | .layoutSync => Sys2Proof.Machine.execLayoutSync s

end Sys2Proof.Machine
end

