-- ==== Sys2Proof/Machine/Turn.lean ====
section
/-! DEFINITION. What a turn of the schedule finds to do (R227; DESIGN CHOICE, log entry 1): the instruction that a core fetches, a
unit's slot or a layout engine's program names, and the passing of time (R412). -/

namespace Sys2Proof.Machine

/-- What a turn comes to: a state at once, or an instruction to run in a state. -/
inductive Todo where
  | idle (s : State)
  | run (i : Instr) (s : State)

/-- The next turn and the schedule without it; where none is listed, any turn (DESIGN CHOICE, log entry 1). -/
def State.nextTurn (s : State) : Turn × State :=
  match s.sched with
  | t :: r => (t, { s with sched := r })
  | [] => (Config.sched s.tick, { s with tick := s.tick + 1 })

/-- The turn of a core: an imprecise fault is taken before the next instruction (R164, R251); else the instruction at
the pc is fetched and decoded, a word that fails raises its cause (R24, R31, R36). A core that is idle, waiting or stopped does
nothing, nor does one that stands. -/
def coreTodo (t : Nat) (s : State) : Todo :=
  let c := s.coreOf t
  if c.run ≠ .running || s.coreStands t then .idle s
  else match c.imprecise with
    | (code, fval) :: r =>
      let s := s.setCore t { c with imprecise := r }
      .idle (s.takeTrap t code c.pc64 fval)
    | [] => match s.fetch t with
      | .fails code fval => .idle (s.takeTrap t code c.pc64 fval)
      | .words w x y z => match decodeScalar w x y z with
        | .error e => .idle (s.takeTrap t (decodeCause e) c.pc64 (w.setWidth 64))
        | .ok i => .run i { s with cur := t, ir := unpackStream w x y z }

/-- The turn of a unit or router operator: its slot's word, on a tile of a region that acts; a slot whose parity fails
does not fire (R341). -/
def unitTodo (t slot : Nat) (s : State) : Todo :=
  match s.regionOf t with
  | none => .idle s
  | some (_, r) =>
    let x := s.tile t
    if !r.acts || x.parity.contains slot || !s.mayRun (deviceOf t) r.fn || s.tileStops t then .idle s
    else
      let w := x.slot slot
      let s := { s with cur := t, slot := slot }
      if slot < 328 then
        if (unpackEl w).enable then (match decodeEl w with
          | .ok i => .run i s
          | .error _ => .idle s)
        else .idle s
      else if slot < 360 then
        if (unpackRouter (w.setWidth 64)).enable then (match decodeRouter (w.setWidth 64) with
          | .ok i => .run i s
          | .error _ => .idle s)
        else .idle s
      else .idle s

/-- A layout engine's number: die × 16 + 8 or 9. -/
def State.layoutRun (s : State) (e : Nat) : Option LayoutRun := mapGet (s.die (e / 16)).layouts (e % 16)

/-- The turn of a layout engine: the word at its program counter (R268). -/
def layoutTodo (e : Nat) (s : State) : Todo :=
  match s.layoutRun e with
  | none => .idle s
  | some l =>
    let may := match mapGet s.cmds l.cmd with
      | some c => (s.age (layoutAge (e / 16) (e % 16 - 8))).stopped.isNone && s.mayRun (e / 32) c.fn
      | none => false
    if !may || s.dieStopped (e / 16) then .idle s
    else match l.prog[l.pc]? with
      | none => .idle s
      | some w => match decodeLayout w with
        | .ok i => .run i { s with engine := e }
        | .error _ => .idle s

/-! ### Time (R412) -/

/-- fc pass on a core: what a wait counts (R347 counter 0x101), and ss.vcycle while its tenant is RUNNING (R343). -/
def Core.passCycles (c : Core) (running : Bool) (n : Nat) : Core :=
  let c := if running then { c with vcycle := c.vcycle + BitVec.ofNat 64 n } else c
  match c.run with
  | .waiting (.relatch q r f k) => { c with run := .waiting (.relatch q r f (k + n)), waitFc := c.waitFc + BitVec.ofNat 64 n }
  | .waiting _ => { c with waitFc := c.waitFc + BitVec.ofNat 64 n }
  | .idle => c
  | .running => c
  | .stopped _ => c

/-- The shared counters of a die whose bytes no rule ties to an access: those of HBM and of the die-to-die link, by free amounts
(R347; DESIGN CHOICE, log entry 63). -/
def Die.traffic (d : Die) (tick : Nat) : Die :=
  { d with counters := [0x300, 0x303].zipIdx.foldl (fun m i =>
      mapSet m i.1 ((mapGet m i.1).getD 0 + Config.freeDword (tick + i.2))) d.counters }

/-- Of n fc on a die, how many pass before the limit of a waiting `fget` is over, at which its core goes on first (R156). -/
def State.mayPassCycles (s : State) (gdie n : Nat) : Nat :=
  s.tiles.foldl (fun n x =>
    if dieOf x.1 ≠ gdie then n
    else match s.waitOf x.1 with
      | some (.fget _ _ (some limit) since _) => min n (since + limit - (s.die gdie).cycle)
      | _ => n) n

/-- n fc pass on a die, or as many as may; a die whose clock is stopped or gated counts none (R406, R408). What stands at a source
in fc 1 of a beat is taken in it (R188). -/
def State.passCycles (s : State) (gdie n : Nat) : State :=
  if s.dieStopped gdie then s
  else
    let n := s.mayPassCycles gdie n
    let s := s.passFirst gdie n
    let d := s.die gdie
    let s := s.setDie gdie ({ d with cycle := d.cycle + n }.traffic s.tick)
    let pass (p : Nat × Tile) : Nat × Tile :=
      if dieOf p.1 = gdie then
        let c := p.2.core
        let running := fnOf c.fn = 16 || (s.tenant (gdie / 2) (fnOf c.fn)).state = .running
        (p.1, { p.2 with core := c.passCycles running n })
      else p
    { s with tick := s.tick + 2, tiles := s.tiles.map pass }

/-- What marks a tenant's progress (R340): instructions retired, beats completed, commands completed. -/
def State.progressMark (s : State) (dev fn : Nat) : List Nat :=
  ((s.tilesOf dev fn).map fun t => (s.coreOf t).retired.toNat) ++
  ((s.regions.filter fun r => r.2.fn = fn && deviceOf r.1 = dev).map fun r => r.2.beats) ++ [(s.tenant dev fn).completed]

/-- A debugger holds a core of the tenant: that time does not count toward the hang limit (R409). -/
def State.anyHeld (s : State) (dev fn : Nat) : Bool := (s.tilesOf dev fn).any fun t => (s.coreOf t).held

/-- n µs pass for a tenant: its quantum, its wait and its time without progress (R320, R340). -/
def State.tenantMicros (s : State) (dev fn n : Nat) (x : Tenant) : Tenant :=
  match x.state with
  | .running =>
    let mark := s.progressMark dev fn
    let since := if mark = x.progress then x.idleMicros else 0
    let idle := if !s.runnable dev fn then 0 else if s.anyHeld dev fn then since else since + n
    { x with quantumLeft := x.quantumLeft - n, progress := mark, idleMicros := idle }
  | .ready => { x with waited := x.waited + n, away := x.away.map (· + n) }
  | .absent => x
  | .stopped => x
  | .fatal => x

/-- µs that may pass for a tenant before something is due (R292, R313): the sample of its interval, while it runs, and the end of its
counter period, while it is not ABSENT. A period of 0 ms is due at any time (DEDUCED, log entry 62). -/
def Tenant.mayPass (x : Tenant) (n : Nat) : Nat :=
  let p := periodMicros x.desc
  let n := if x.state = .absent || p = 0 then n else min n (p - x.periodAge)
  let i := sampleMicros x.desc
  if !x.samples then n else min n ((if x.sampled then 2 * i else i) - x.sampleAge)

/-- n µs of a tenant's counter period and sampling interval pass; an interval that has been sampled gives way to the next. -/
def Tenant.passIntervals (x : Tenant) (n : Nat) : Tenant :=
  let x := if x.state = .absent then x else { x with periodAge := x.periodAge + n }
  let i := sampleMicros x.desc
  if !x.samples then x
  else if x.sampled && i ≤ x.sampleAge + n then { x with sampleAge := x.sampleAge + n - i, sampled := false }
  else { x with sampleAge := x.sampleAge + n }

/-- n µs pass on a device, or as many as may before a sample or a period is due: its time base, what ss.cycle reads as from a
tenant (R343), its tenants and its dies. -/
def State.passMicros (s : State) (dev n : Nat) : State :=
  let d := s.device dev
  let n := d.tenants.foldl (fun n p => if p.1 = 16 then n else p.2.mayPass n) n
  let tenants := d.tenants.map fun p => (p.1, (s.tenantMicros dev p.1 n p.2).passIntervals n)
  let s := s.setDevice dev { d with
    micros := d.micros + n, tickCycle := ((s.die (2 * dev)).cycle, (s.die (2 * dev + 1)).cycle), tenants := tenants }
  [2 * dev, 2 * dev + 1].foldl (fun s g =>
    s.setDie g { s.die g with idleMicros := if s.dieQuiet g then (s.die g).idleMicros + n else 0 }) s

/-- What a turn comes to. -/
def State.todo (s : State) (t : Turn) : Todo :=
  match t with
  | .core t => coreTodo t s
  | .unit t slot => unitTodo t slot s
  | .layout e => layoutTodo e s
  | .act i => .run i s
  | .cycles g n => .idle (s.passCycles g n)
  | .micros d n => .idle (s.passMicros d n)

/-! ### Placing an instruction for the next step -/

/-- No tenant runs on tile 0, where the owner is to run (R315). -/
def State.leaveTile0 (s : State) : State :=
  let d := s.device 0
  s.setDevice 0 { d with tenants := d.tenants.map fun x =>
    (x.1, if x.1 ≠ 16 && x.2.state = .running && s.ownsTile 0 x.1 0 then { x.2 with state := .ready } else x.2) }

/-- Lay words out at the pc of tile 0's core, in M and in the core's view, with the core running and next. -/
def State.placeWords (s : State) (ws : List Word) : State :=
  let c := s.coreOf 0
  let a := spBase 0 + c.pc.toNat
  let bs := ws.flatMap fun w => toBytes w.toNat 4
  let v : View := { pb := c.view.pb.filter fun e => !inRange a bs.length e.addr, sv := c.view.sv.write a bs }
  let s := s.setCore 0 { c with view := v, run := .running, held := false, imprecise := [] }
  let s := s.setDie 0 { s.die 0 with lost := false, stopped := false, idle := 0, disabled := (s.die 0).disabled.filter (· ≠ 0) }
  let s := s.setTenant 0 (fnOf c.fn) { s.tenant 0 (fnOf c.fn) with leaving := false }
  let s := match s.regionOf 0 with
    | some (l, r) => { s with regions := mapSet s.regions l { r with preempt := none } }
    | none => s
  let s := if fnOf c.fn = 16 then s.leaveTile0 else s
  { s with mem := s.mem.write a bs, sched := [.core 0] }

/-- A layout word as the program of layout engine 8 of die 0, for a command of its own, the engine next. -/
def State.placeLayout (s : State) (w : Word) : State :=
  let cmd : Cmd := { (default : Cmd) with kind := .stream 0x0D, stage := .running, engine := 8 }
  let run : LayoutRun :=
    { cmd := s.nextCmd, pc := 0, prog := [w], lc := Vector.replicate 8 0, count := Vector.replicate 8 0
      sc := Vector.replicate 4 0, dc := Vector.replicate 4 0, stage := [], rm := 0, flush := false, ranges := [], pending := []
      elem := 0 }
  let d := s.die 0
  { s.setDie 0 { d with lost := false, stopped := false, idle := 0, layouts := mapSet d.layouts 8 run } with
    cmds := mapSet s.cmds s.nextCmd cmd, nextCmd := s.nextCmd + 1, sched := [.layout 8] }

end Sys2Proof.Machine
end

