-- ==== Sys2Proof/Machine/Step.lean ====
section
/-! DEFINITION. One step of the machine: the next turn of the schedule (R227; DESIGN CHOICE, log entry 1). -/

namespace Sys2Proof.Machine

/-- One step: the next turn, and the meaning of the instruction that it finds. -/
def step (s : State) : Host.Outcome State Fault Refusal :=
  let (t, s) := s.nextTurn
  match s.todo t with
  | .idle s' => .next s'
  | .run i s' => exec i s'

/-- The state with an instruction stored where `step` fetches its next one: at the pc of tile 0's core, whose turn is
next, or, for a word that only a layout program can hold, in layout engine 8's program (DESIGN CHOICE, log entry 6). -/
def State.withFetchWord (s : State) (nbits w : Nat) : State :=
  let v := w % 2 ^ nbits
  let word (n : Nat) : Word := BitVec.ofNat 32 (v >>> (32 * n))
  match decodeScalar (word 0) (word 1) (word 2) (word 3), decodeLayout (word 0) with
  | .error _, .ok _ => s.placeLayout (word 0)
  | _, _ => s.placeWords [word 0, word 1, word 2, word 3]

end Sys2Proof.Machine
end

