-- ==== Sys2Proof/Safety.lean ====
section
/-! DEFINITION. What counts as a safe step and run: the machine goes on, with no fault and no refusal; and which
unending runs the manual promises (R230). -/

namespace Sys2Proof.Machine

/-- The outcome is a next state. -/
def goesOn (o : Host.Outcome State Fault Refusal) : Prop := ∃ s, o = .next s

/-- A run of k steps is safe: every step answers a next state. -/
def safeRun : Nat → State → Prop
  | 0, _ => True
  | k + 1, s => ∃ s', step s = .next s' ∧ safeRun k s'

/-- An unending run: each state is what a step of the one before it answers. -/
def IsRun (r : Nat → State) : Prop := ∀ k, step (r k) = .next (r (k + 1))

/-- The snapshot of a buffered agent, numbered as SEEP numbers them: core t is agent t, memory node m of tile t agent
2^20 + 16t + m. -/
def State.snapshotOf (s : State) (agent : Nat) : Memory :=
  if agent < nodeAgents then (s.coreOf agent).view.sv
  else ((s.tile ((agent - nodeAgents) / 16)).unitAt (slotM ((agent - nodeAgents) % 16))).view.sv

/-- The buffered agent is there: a core of a device of the node, or a memory node that has run. -/
def State.hasAgent (s : State) (agent : Nat) : Bool :=
  if agent < nodeAgents then s.node.contains (deviceOf agent)
  else (mapGet (s.tile ((agent - nodeAgents) / 16)).units (slotM ((agent - nodeAgents) % 16))).isSome

/-- A run as R230 promises it: where the snapshot that an agent has of a byte is not M's, a seep or a boundary makes it M's within
finite time, unless the agent is gone by then. A claim about what an agent comes to see holds of these runs (DEDUCED, log entry 67). -/
def FairRun (r : Nat → State) : Prop :=
  IsRun r ∧ ∀ agent addr k, (r k).hasAgent agent = true → ((r k).snapshotOf agent).get addr ≠ (r k).mem.get addr →
    ∃ j, k ≤ j ∧ (((r j).snapshotOf agent).get addr = (r j).mem.get addr ∨ (r j).hasAgent agent = false)

end Sys2Proof.Machine
end

