-- ==== Sys2Proof/WellFormed.lean ====
section
/-! DEFINITION. Well-formed instructions: the sub value is allocated (R31 step 4) and every field is as the entry
allows (R29, R31 step 5, R36, R42, R46, R48). The checks themselves stand in Decode.lean. Acts of the machine and of
the outside world have no word and are always well-formed. -/

namespace Sys2Proof

/-- A form A instruction passes the decode checks of R31 steps 3 to 5. -/
def wfA (op : Nat) (f : FormA) : Bool := subAllocated op f.sub && fieldsOkA op f
/-- A form B instruction passes them. -/
def wfB (op : Nat) (f : FormB) : Bool := subAllocated op f.sub && fieldsOkB op f
/-- A form C instruction passes them. -/
def wfC (op : Nat) (f : FormC) : Bool := subAllocated op f.sub && fieldsOkC op f
/-- A stream command passes R36. -/
def wfStream (code : Nat) (c : StreamWord) : Bool := streamFieldsOk code c && streamRangeOk code c

/-- `gsend` and `gsend.x` are told apart by sub[0] (R380). -/
def sendBit : Instr → Bool
  | .gsendA f => f.sub.toNat % 2 = 0
  | .gsendB f => f.sub.toNat % 2 = 0
  | .gsendXA f => f.sub.toNat % 2 = 1
  | .gsendXB f => f.sub.toNat % 2 = 1
  | _ => true

/-- A well-formed scalar instruction; an instruction that carries no fields, and an act, is well-formed as it is. -/
def Instr.wf (i : Instr) : Bool :=
  match asFormA i with
  | some (op, f) => wfA op f && sendBit i
  | none => match asFormB i with
    | some (op, f) => wfB op f && sendBit i
    | none => match asFormC i with
      | some (op, f) => wfC op f
      | none => true

/-- Well-formed fields of a stream command (R36). -/
def StreamWord.wf (i : Instr) (c : StreamWord) : Bool := match asStream i with
  | some code => wfStream code c
  | none => false

/-- Well-formed fields of an element configuration word (R42). -/
def ElWord.wf (i : Instr) (c : ElWord) : Bool := match asEl i with
  | some op => elFieldsOk op c
  | none => false

/-- Well-formed fields of a router operator word (R46). -/
def RouterWord.wf (i : Instr) (c : RouterWord) : Bool := match asRouter i with
  | some op => routerFieldsOk op c
  | none => false

/-- Well-formed fields of a layout instruction (R48). -/
def LayoutWord.wf (i : Instr) (c : LayoutWord) : Bool := match asLayout i with
  | some code => layoutFieldsOk code c
  | none => false

end Sys2Proof
end

