-- ==== Sys2Proof/Certificates/Slice0/Obligations.lean ====
section
/-! DEFINITION. The statements for the provers, from the manual's numbered rules, and the small definitions they are
written with. A statement of a result gives the whole next state, so it says what is left unchanged too. -/

namespace Sys2Proof.Rules

open Sys2Proof.Machine

/-- The guard holds on the core whose turn it is (R85). -/
abbrev Holds (s : State) (gn : Bool) (guard : BitVec 3) : Prop := s.core.guardHolds gn guard = true

/-- The next state of an instruction of n bytes that leaves its core as c, but for the pc. -/
abbrev done (s : State) (c : Core) (n : Nat) : Host.Outcome State Fault Refusal := .next (s.withCore (c.advance n))

/-- The core of a tile waits in w, and the wait may end: the core does not stand (R3, R315, R326, R408, R409). -/
abbrev Waits (s : State) (t : Nat) (w : Wait) : Prop := s.coreStands t = false ∧ (s.coreOf t).run = .waiting w

/-- A row of the table of R99: its constructors by form, whether the literal is zero-extended (R28), the reading that the
row fixes, and the exact result. -/
structure IntRow where
  a : FormA → Instr
  b : Option (FormB → Instr)
  c : Option (FormC → Instr)
  zext : Bool
  reading : Option Bool
  exact : Exact

/-- The table of R99 and R100. -/
def intRows : List IntRow :=
  [⟨.addA, some .addB, some .addC, false, none, exAdd⟩, ⟨.subA, some .subB, some .subC, false, none, exSub⟩,
   ⟨.andA, some .andB, some .andC, true, none, exAnd⟩, ⟨.orA, some .orB, some .orC, true, none, exOr⟩,
   ⟨.xorA, some .xorB, some .xorC, true, none, exXor⟩, ⟨.andnA, some .andnB, some .andnC, true, none, exAndn⟩,
   ⟨.shlA, some .shlB, some .shlC, true, none, exShl⟩, ⟨.shrA, some .shrB, some .shrC, true, some false, exShr⟩,
   ⟨.sarA, some .sarB, some .sarC, true, some true, exShr⟩, ⟨.rotlA, some .rotlB, some .rotlC, true, some false, exRotl⟩,
   ⟨.minA, some .minB, some .minC, false, some true, exMin⟩, ⟨.maxA, some .maxB, some .maxC, false, some true, exMax⟩,
   ⟨.minuA, some .minuB, some .minuC, true, some false, exMin⟩, ⟨.maxuA, some .maxuB, some .maxuC, true, some false, exMax⟩,
   ⟨.movA, some .movB, some .movC, false, none, exMov⟩, ⟨.mulA, some .mulB, some .mulC, false, none, exMul⟩,
   ⟨.mulhA, some .mulhB, some .mulhC, false, some true, exMulh⟩,
   ⟨.mulhuA, some .mulhuB, some .mulhuC, true, some false, exMulh⟩,
   ⟨.divA, some .divB, some .divC, false, some true, exDiv⟩, ⟨.divuA, some .divuB, some .divuC, true, some false, exDivu⟩,
   ⟨.remA, some .remB, some .remC, false, some true, exRem⟩, ⟨.remuA, some .remuB, some .remuC, true, some false, exRem⟩,
   ⟨.clz, none, none, false, some false, exClz⟩, ⟨.ctz, none, none, false, some false, exCtz⟩,
   ⟨.popc, none, none, false, some false, exPopc⟩, ⟨.brev, none, none, false, some false, exBrev⟩,
   ⟨.bswap, none, none, false, some false, exBswap⟩]

/-- A row of R99 on bit vectors of W bits. -/
structure BitRow where
  reading : Option Bool
  exact : Exact
  op : (w : Nat) → BitVec w → BitVec w → BitVec w

/-- The rows of R99 and R100 as operations on bit vectors of W bits; a shift count is the second operand modulo W. -/
def bitRows : List BitRow :=
  [⟨none, exAdd, fun _ x y => x + y⟩, ⟨none, exSub, fun _ x y => x - y⟩, ⟨none, exMul, fun _ x y => x * y⟩,
   ⟨none, exAnd, fun _ x y => x &&& y⟩, ⟨none, exOr, fun _ x y => x ||| y⟩, ⟨none, exXor, fun _ x y => x ^^^ y⟩,
   ⟨none, exAndn, fun _ x y => x &&& ~~~y⟩, ⟨none, exMov, fun _ _ y => y⟩,
   ⟨none, exShl, fun w x y => x <<< (y.toNat % w)⟩, ⟨some false, exShr, fun w x y => x >>> (y.toNat % w)⟩,
   ⟨some true, exShr, fun w x y => x.sshiftRight (y.toNat % w)⟩,
   ⟨some true, exMin, fun _ x y => if x.sle y then x else y⟩, ⟨some true, exMax, fun _ x y => if x.sle y then y else x⟩,
   ⟨some false, exMin, fun _ x y => if x.ule y then x else y⟩, ⟨some false, exMax, fun _ x y => if x.ule y then y else x⟩,
   ⟨some false, exDivu, fun w x y => if y = 0 then BitVec.allOnes w else x / y⟩,
   ⟨some false, exRem, fun _ x y => if y = 0 then x else x % y⟩,
   ⟨some true, exDiv, fun w x y => if y = 0 then (if x.slt 0 then BitVec.intMin w else BitVec.allOnes w) else x.sdiv y⟩,
   ⟨some true, exRem, fun _ x y => if y = 0 then x else x.srem y⟩,
   ⟨some false, exMulh, fun w x y => ((x.setWidth (2 * w) * y.setWidth (2 * w)) >>> w).setWidth w⟩,
   ⟨some true, exMulh, fun w x y => ((x.signExtend (2 * w) * y.signExtend (2 * w)) >>> w).setWidth w⟩]

end Sys2Proof.Rules

open Sys2Proof Sys2Proof.Machine Sys2Proof.Rules

/-! ### Rows 0x0 to 0x4 of the core -/

/-- R89, R99, R100: where the guard holds, every integer op of the table completes with g[d] the result that R89 computes,
in each form it takes; nothing but g[d], the pc and the count of instructions changes. A write to g0 has no effect. -/
def Obligations.IntegerForms : Prop :=
  ∀ r ∈ intRows, ∀ s : State,
    (∀ f : FormA, Holds s f.gn f.guard → exec (r.a f) s
      = done s (s.core.setReg f.d (intResult r.reading r.exact f.sub (s.core.reg f.a) (s.core.reg f.b))) 4) ∧
    (∀ mk, r.b = some mk → ∀ f : FormB, Holds s f.gn f.guard → exec (mk f) s
      = done s (s.core.setReg f.d (intResult r.reading r.exact f.sub (s.core.reg f.a) (imm16 r.zext f.imm16))) 8) ∧
    (∀ mk, r.c = some mk → ∀ f : FormC, Holds s f.gn f.guard → exec (mk f) s
      = done s (s.core.setReg f.d (intResult r.reading r.exact f.sub (s.core.reg f.a) (lit32 r.zext f.lit32))) 12)

/-- R89, R99, R100: without `.sat`, an integer op is the bit-vector operation on the low W bits of its sources, extended to
64 bits by the sign of the size; `rotl`, `brev` and `bswap` give each bit of the result a bit of A, `clz` and `ctz` count the
zeros above the highest and below the lowest one of A, W where it has none, and `popc` its ones; with `.sat`, its result is the
exact result clamped to the range of the size. -/
def Obligations.IntegerResults : Prop :=
  (∀ r ∈ bitRows, ∀ (sub : BitVec 3) (a b : Dword), sizeSat sub = false →
     intResult r.reading r.exact sub a b =
       (let w := sizeWidth sub
        let x := r.op w (a.setWidth w) (b.setWidth w)
        if sizeSigned sub then x.signExtend 64 else x.setWidth 64)) ∧
  (∀ (sub : BitVec 3) (a b : Dword), sizeSat sub = false →
     let w := sizeWidth sub
     let result (f : Exact) := intResult (some false) f sub a b
     let moves (f : Exact) (from' : Nat → Nat) : Prop := ∀ i, i < 64 →
       (result f).getLsbD i = if i < w then a.getLsbD (from' i) else sizeSigned sub && a.getLsbD (from' (w - 1))
     moves exRotl (fun i => (i + w - b.toNat % w) % w) ∧ moves exBrev (fun i => w - 1 - i) ∧
     moves exBswap (fun i => w - 8 - i / 8 * 8 + i % 8) ∧
     (let n := (result exClz).toNat
      n ≤ w ∧ (∀ i, w - n ≤ i → i < w → a.getLsbD i = false) ∧ (n < w → a.getLsbD (w - 1 - n) = true)) ∧
     (let n := (result exCtz).toNat
      n ≤ w ∧ (∀ i, i < n → a.getLsbD i = false) ∧ (n < w → a.getLsbD n = true)) ∧
     (result exPopc).toNat = (List.range w).countP a.getLsbD) ∧
  (∀ f ∈ [exAdd, exSub, exMul, exShl], ∀ (sub : BitVec 3) (a b : Dword), sizeSat sub = true →
     let w := sizeWidth sub
     let x (σ : Bool) := f w (rd σ w a.toNat) (rd σ w b.toNat) (b.toNat % w)
     if sizeSigned sub then (intResult none f sub a b).toInt = max (-(2 : Int) ^ (w - 1)) (min ((2 : Int) ^ (w - 1) - 1) (x true))
     else ((intResult none f sub a b).toNat : Int) = max 0 (min ((2 : Int) ^ w - 1) (x false)))

/-- R102, R103: bit by bit, what `ext` and `bfx` give, zero- and sign-extended, and what `bfi` keeps; a length of 0 means 64. -/
def Obligations.FieldBits : Prop :=
  ∀ (a d : Dword) (v : BitVec 16) (i : Nat), i < 64 →
    ((bfxValue 2 a v).getLsbD i = (decide (i < fieldLen v) && a.getLsbD (i + fieldLow v))) ∧
    ((bfxValue 0 a v).getLsbD i = a.getLsbD (min i (fieldLen v - 1) + fieldLow v)) ∧
    (((d &&& ~~~bfiMask v) ||| ((a <<< fieldLow v) &&& bfiMask v)).getLsbD i =
      if fieldLow v ≤ i ∧ i < fieldLow v + fieldLen v then a.getLsbD (i - fieldLow v) else d.getLsbD i) ∧
    (let n := if v.toNat % 64 = 0 then 64 else v.toNat % 64
     (extValue 2 a (v.setWidth 64)).getLsbD i = (decide (i < n) && a.getLsbD i) ∧
     (extValue 0 a (v.setWidth 64)).getLsbD i = a.getLsbD (min i (n - 1)))

/-- R101 to R104: `sel`, `ext`, `bfx` and `bfi` complete with these values, and `addcp` with the sum modulo 2^64 in g[d]
and the carry out in the predicate that sub names. -/
def Obligations.SelectFieldsCarry : Prop :=
  ((∀ (s : State) (f : FormA), Holds s f.gn f.guard →
     exec (.selA f) s = done s (s.core.setReg f.d (if s.core.pred f.sub then s.core.reg f.a else s.core.reg f.b)) 4 ∧
     exec (.extA f) s = done s (s.core.setReg f.d (extValue f.sub (s.core.reg f.a) (s.core.reg f.b))) 4) ∧
   (∀ (s : State) (f : FormB), Holds s f.gn f.guard →
     exec (.selB f) s = done s (s.core.setReg f.d (if s.core.pred f.sub then s.core.reg f.a else f.imm16.signExtend 64)) 8 ∧
     exec (.extB f) s = done s (s.core.setReg f.d (extValue f.sub (s.core.reg f.a) (f.imm16.signExtend 64))) 8 ∧
     exec (.bfx f) s = done s (s.core.setReg f.d (bfxValue f.sub (s.core.reg f.a) f.imm16)) 8 ∧
     exec (.bfi f) s = done s (s.core.setReg f.d ((s.core.reg f.d &&& ~~~bfiMask f.imm16) |||
       ((s.core.reg f.a <<< fieldLow f.imm16) &&& bfiMask f.imm16))) 8) ∧
   (∀ (s : State) (f : FormC), Holds s f.gn f.guard →
     exec (.selC f) s = done s (s.core.setReg f.d (if s.core.pred f.sub then s.core.reg f.a else f.lit32.signExtend 64)) 12)) ∧
  ((∀ (s : State) (f : FormA), Holds s f.gn f.guard →
     let x := (s.core.reg f.a).toNat + (s.core.reg f.b).toNat + (if s.core.pred f.sub then 1 else 0)
     exec (.addcpA f) s = done s ((s.core.setReg f.d (BitVec.ofNat 64 x)).setPred f.sub (decide (2 ^ 64 ≤ x))) 4) ∧
   (∀ (s : State) (f : FormB), Holds s f.gn f.guard →
     let x := (s.core.reg f.a).toNat + (f.imm16.signExtend 64).toNat + (if s.core.pred f.sub then 1 else 0)
     exec (.addcpB f) s = done s ((s.core.setReg f.d (BitVec.ofNat 64 x)).setPred f.sub (decide (2 ^ 64 ≤ x))) 8) ∧
   (∀ (s : State) (f : FormC), Holds s f.gn f.guard →
     let x := (s.core.reg f.a).toNat + (f.lit32.signExtend 64).toNat + (if s.core.pred f.sub then 1 else 0)
     exec (.addcpC f) s = done s ((s.core.setReg f.d (BitVec.ofNat 64 x)).setPred f.sub (decide (2 ^ 64 ≤ x))) 12))

/-- R105 to R109: the comparisons, the predicate ops and the address ops complete with these values. -/
def Obligations.CompareAndAddress : Prop :=
  (∀ (s : State) (f : FormA), Holds s f.gn f.guard →
    let p (r : BitVec 5) := s.core.pred (r.setWidth 3)
    let goes (v : Bool) := done s (s.core.setPred (f.d.setWidth 3) v) 4
    exec (.cmpA f) s = goes (condition f.sub.toNat (cmpWidth f.d) (s.core.reg f.a).toNat (s.core.reg f.b).toNat) ∧
    exec (.pand f) s = goes (p f.a && p f.b) ∧ exec (.por f) s = goes (p f.a || p f.b) ∧
    exec (.pxor f) s = goes (p f.a != p f.b) ∧ exec (.pnot f) s = goes (!p f.a) ∧
    exec (.pget f) s = done s (s.core.setReg f.d (BitVec.setWidth 64 (s.core.p ||| 1#8))) 4 ∧
    exec (.leaA f) s = done s (s.core.setReg f.d (addressResult f.sub ((s.core.reg f.a).toNat + (s.core.reg f.b).toNat))) 4) ∧
  (∀ (s : State) (f : FormB), Holds s f.gn f.guard →
    exec (.cmpB f) s = done s (s.core.setPred (f.d.setWidth 3)
      (condition f.sub.toNat (cmpWidth f.d) (s.core.reg f.a).toNat (f.imm16.signExtend 64).toNat)) 8 ∧
    exec (.pset f) s = done s { s.core with p := psetBits s.core.p f.ext16 f.imm16 } 8 ∧
    exec (.leaB f) s = done s (s.core.setReg f.d (addressResult f.sub
      (leaSum s.core f.a f.ext16.toNat (f.imm16.signExtend 64)))) 8 ∧
    exec (.pcrelB f) s = done s (s.core.setReg f.d (addressResult f.sub (s.core.pc.toNat + f.imm16.toInt))) 8) ∧
  (∀ (s : State) (f : FormC), Holds s f.gn f.guard →
    exec (.cmpC f) s = done s (s.core.setPred (f.d.setWidth 3)
      (condition f.sub.toNat (cmpWidth f.d) (s.core.reg f.a).toNat (f.lit32.signExtend 64).toNat)) 12 ∧
    exec (.leaC f) s = done s (s.core.setReg f.d (addressResult f.sub
      (leaSum s.core f.a f.ext32.toNat (f.lit32.signExtend 64)))) 12 ∧
    exec (.pcrelC f) s = done s (s.core.setReg f.d (addressResult f.sub (s.core.pc.toNat + f.lit32.toInt))) 12)

/-- R105, R107: the eight conditions of `cmp` are comparisons of W-bit vectors, and `pset` writes p1 to p7 under its mask
and leaves the others. -/
def Obligations.ConditionsAndMasks : Prop :=
  (∀ (a b : Dword), ∀ w ∈ [64, 32],
     let x : BitVec w := a.setWidth w
     let y : BitVec w := b.setWidth w
     (List.range 8).map (fun sub => condition sub w a.toNat b.toNat) =
       [x == y, x != y, x.slt y, !x.slt y, x.ult y, !x.ult y, x &&& y != 0, x &&& y == 0]) ∧
  (∀ (p : BitVec 8) (mask v : BitVec 16) (i : Nat), i < 8 →
     (psetBits p mask v).getLsbD i = if 1 ≤ i ∧ mask.getLsbD i = true then v.getLsbD i else p.getLsbD i)

/-- R90 to R92: the branches, calls, loops and register transfers, and `nop`. -/
def Obligations.ControlTransfers : Prop :=
  (∀ s : State, exec .nop s = done s s.core 4) ∧
  (∀ (s : State) (f : FormA), Holds s f.gn f.guard →
    let c := s.core
    exec (.ret f) s = .next (s.withCore (c.jump ((c.reg f.a).setWidth 48))) ∧
    exec (.jr f) s = .next (s.withCore ((c.setReg f.d ((c.pc + 4).setWidth 64)).jump ((c.reg f.a).setWidth 48)))) ∧
  (∀ (s : State) (f : FormB), Holds s f.gn f.guard →
    let c := s.core
    let target := c.pc + (f.imm16.signExtend 64 * 4).setWidth 48
    exec (.brB f) s = .next (s.withCore (c.jump target)) ∧
    exec (.bpB f) s = .next (s.withCore (if c.pred (f.a.setWidth 3) then c.jump target else c.advance 8)) ∧
    exec (.callB f) s = .next (s.withCore ((c.setReg f.d ((c.pc + 8).setWidth 64)).jump target)) ∧
    exec (.loopB f) s = .next (s.withCore (
      if c.reg f.d - 1 ≠ 0 then (c.setReg f.d (c.reg f.d - 1)).jump target else (c.setReg f.d (c.reg f.d - 1)).advance 8))) ∧
  (∀ (s : State) (f : FormC), Holds s f.gn f.guard →
    let c := s.core
    let target := c.pc + (f.lit32.signExtend 64 * 4).setWidth 48
    exec (.brC f) s = .next (s.withCore (c.jump target)) ∧
    exec (.bpC f) s = .next (s.withCore (if c.pred (f.a.setWidth 3) then c.jump target else c.advance 12)) ∧
    exec (.callC f) s = .next (s.withCore ((c.setReg f.d ((c.pc + 12).setWidth 64)).jump target)) ∧
    exec (.loopC f) s = .next (s.withCore (
      if c.reg f.d - 1 ≠ 0 then (c.setReg f.d (c.reg f.d - 1)).jump target else (c.setReg f.d (c.reg f.d - 1)).advance 12)))

/-- R87, R336: a code of class Resume, with ss.mode.ih 0, enters the handler: what is saved, the mode, and the pc at 0, and
nothing outside the core changes; a code raised with ss.mode.ih 1, or of class Region or Tenant, stops the core, with
0x04 DOUBLE_FAULT or the code as its cause. -/
def Obligations.TakingACode : Prop :=
  (∀ (s : State) (t : Nat) (code : BitVec 7) (fpc fval : Dword),
     (s.coreOf t).ih = false → causeClass code = .resume →
     s.takeTrap t code fpc fval = s.setCore t { s.coreOf t with
       cause := code, fpc := fpc, fval := fval, pm := (s.coreOf t).m
       m := if (s.coreOf t).m = 0 then 1 else (s.coreOf t).m, ih := true, pc := 0, run := .running }) ∧
  (∀ (s : State) (t : Nat) (code : BitVec 7) (fpc fval : Dword),
     ((s.coreOf t).ih = true → ((s.takeTrap t code fpc fval).coreOf t).run = .stopped 0x04) ∧
     ((s.coreOf t).ih = false → causeClass code ≠ .resume → ((s.takeTrap t code fpc fval).coreOf t).run = .stopped code))

/-- R87, R95 to R98: `trap` and `brk` enter the handler with the code, ss.fpc and ss.fval that their rules name, `eret` returns,
and `wfe` advances where a woken record stands in the FIFO and else waits; and `eret` after `trap` goes on behind the `trap` in
the mode it was raised in, with every general register and predicate as before. That a core which a debugger has let run on
still halts at a `brk` is the model's reading (DEDUCED, log entry 71). -/
def Obligations.TrapsAndReturn : Prop :=
  ((∀ (s : State) (f : FormB), Holds s f.gn f.guard → s.core.ih = false →
     exec (.trapB f) s = .next (s.withCore (s.core.enterHandler 0x07 (s.core.pc.setWidth 64 + 8) (f.imm16.setWidth 64)))) ∧
   (∀ (s : State) (f : FormA), Holds s f.gn f.guard →
     (s.core.ih = false → s.core.attached = false →
       exec (.brk f) s = .next (s.withCore (s.core.enterHandler 0x08 (s.core.pc.setWidth 64 + 4) 0))) ∧
     (s.core.attached = true → exec (.brk f) s = .next (s.withCore { s.core with held := true })) ∧
     (s.core.m ≠ 0 → exec (.eret f) s = .next (s.withCore
       { s.core with pc := s.core.fpc.setWidth 48, m := s.core.pm, ih := false, retired := s.core.retired + 1 })) ∧
     (exec (.wfe f) s = if s.core.woken then done s s.core 4 else .next (s.withCore { s.core with run := .waiting .wfe })))) ∧
  (∀ (s t u : State) (f : FormB) (e : FormA), Holds s f.gn f.guard → s.core.ih = false → Holds s e.gn e.guard →
     exec (.trapB f) s = .next t → exec (.eret e) t = .next u →
     u.core.pc = (s.core.pc.setWidth 64 + 8).setWidth 48 ∧ u.core.m = s.core.m ∧ u.core.ih = false ∧
     u.core.g = s.core.g ∧ u.core.p = s.core.p ∧ u.mem = s.mem)

/-- R31 step 6, R85: `eret` in user mode raises 0x03 PRIVILEGE, whether its guard holds or not, with ss.fpc its address and ss.fval
its word; and a guard that does not hold makes an instruction do nothing but advance the pc by its length. An op that is
privileged is judged before its guard, so of those this says it for mode 10. -/
def Obligations.GuardAndPrivilege : Prop :=
  (∀ (s : State) (f : FormA), s.core.m = 0 → s.core.ih = false →
     exec (.eret f) s = .next (s.withCore
       (s.core.enterHandler 0x03 (s.core.pc.setWidth 64) ((packA 0x0A f).setWidth 64)))) ∧
  (∀ (s : State) (i : Instr),
     (∀ op f, asFormA i = some (op, f) → i ≠ .nop → s.core.guardHolds f.gn f.guard = false →
       (s.core.m = 2 ∨ op ∉ [0x0A, 0x96, 0xA2, 0xA3, 0xA4, 0xA7]) → exec i s = done s s.core 4) ∧
     (∀ op f, asFormB i = some (op, f) → s.core.guardHolds f.gn f.guard = false →
       (s.core.m = 2 ∨ op ∉ [0x96, 0xA0, 0xA1, 0xA7]) → exec i s = done s s.core 8) ∧
     (∀ op f, asFormC i = some (op, f) → s.core.guardHolds f.gn f.guard = false → exec i s = done s s.core 12))

/-- The three checks of R110 pass for n bytes at ea. -/
abbrev Sys2Proof.Rules.Accessible (c : Core) (ea : Int) (n : Nat) : Prop :=
  ea % n = 0 ∧ 0 ≤ ea ∧ ea + n - 1 ≤ 0x2FFFFF ∧ (c.m = 0 → 0x1000 ≤ ea)

/-- The next state of an instruction of n bytes that has stored to the scratchpad, and so left the machine as t. -/
abbrev Sys2Proof.Rules.stored (t : State) (n : Nat) : Host.Outcome State Fault Refusal := done t t.core n

/-- R110 to R112, R227: where the checks of R110 pass and no absent write-once word is read (R362), the local loads and stores
complete: a load writes its register from the bytes that the core sees, and a store appends its bytes to the core's
buffered stores, where no `sring` is moving the bytes that it stores to (R224); after it the core sees at each address stored the
byte of the register, at every other address what it saw before, and M has not changed. A load that waits for an absent word
(R362) completes once it is present. -/
def Obligations.LocalAccess : Prop :=
  (∀ (s : State) (d : BitVec 5) (sub : BitVec 3) (ea : Int),
     let c := s.core
     let a := ea.toNat
     let ld (n len : Nat) := done s (c.setReg d (loadValue sub (s.loadLocal a n))) len
     let ldp (len : Nat) := done s ((c.setReg d (BitVec.ofNat 64 (s.loadLocal a 8))).setReg (d + 1)
       (BitVec.ofNat 64 (s.loadLocal (a + 8) 8))) len
     let st (n len : Nat) := stored (s.storeLocal a (toBytes (c.reg d).toNat n)) len
     let stp (len : Nat) := stored ((s.storeLocal a (toBytes (c.reg d).toNat 8)).storeLocal (a + 8) (toBytes (c.reg (d + 1)).toNat 8)) len
     (∀ f : FormA, f.d = d → f.sub = sub → Holds s f.gn f.guard → ea = (c.reg f.a).toNat + (c.reg f.b).toNat →
       (Accessible c ea (loadWidth sub) → s.loadAbsent a (loadWidth sub) = false → exec (.ldA f) s = ld (loadWidth sub) 4) ∧
       (Accessible c ea (storeWidth sub) → exec (.stA f) s = st (storeWidth sub) 4) ∧
       (Accessible c ea 16 → s.loadAbsent a 16 = false → exec (.ldpA f) s = ldp 4) ∧
       (Accessible c ea 16 → exec (.stpA f) s = stp 4)) ∧
     (∀ f : FormB, f.d = d → f.sub = sub → Holds s f.gn f.guard → ea = (c.reg f.a).toNat + f.imm16.toInt →
       (Accessible c ea (loadWidth sub) → s.loadAbsent a (loadWidth sub) = false → exec (.ldB f) s = ld (loadWidth sub) 8) ∧
       (Accessible c ea (storeWidth sub) → exec (.stB f) s = st (storeWidth sub) 8) ∧
       (Accessible c ea 16 → s.loadAbsent a 16 = false → exec (.ldpB f) s = ldp 8) ∧
       (Accessible c ea 16 → exec (.stpB f) s = stp 8)) ∧
     (∀ f : FormC, f.d = d → f.sub = sub → Holds s f.gn f.guard → ea = (c.reg f.a).toNat + f.lit32.toInt →
       (Accessible c ea (loadWidth sub) → s.loadAbsent a (loadWidth sub) = false → exec (.ldC f) s = ld (loadWidth sub) 12) ∧
       (Accessible c ea (storeWidth sub) → exec (.stC f) s = st (storeWidth sub) 12))) ∧
  (∀ (s : State) (a : Nat) (bs : List Byte), s.ringFlux s.cur = none →
     s.storeLocal a bs = s.withCore { s.core with view := s.core.view.store (spBase s.cur + a) bs }) ∧
  (∀ (s t : State) (f : FormA), Holds s f.gn f.guard →
     let ea : Int := (s.core.reg f.a).toNat + (s.core.reg f.b).toNat
     Accessible s.core ea (storeWidth f.sub) →
     (∀ w n, s.ringFlux s.cur = some (w, n) → ∀ i, i < storeWidth f.sub → inRange w n (spBase s.cur + ea.toNat + i) = false) →
     exec (.stA f) s = .next t →
     t.mem = s.mem ∧
     (∀ i, i < storeWidth f.sub →
       t.viewByte t.core.view (spBase s.cur + ea.toNat + i) = byteOf (s.core.reg f.d).toNat i) ∧
     (∀ a, a < spBase s.cur + ea.toNat ∨ spBase s.cur + ea.toNat + storeWidth f.sub ≤ a →
       t.viewByte t.core.view a = s.viewByte s.core.view a)) ∧
  (∀ (s : State) (t : Nat) (f : FormA), Waits s t (.writeOnce (.ldA f)) →
     let u : State := { s.rerun t with ir := s.wordsAtPc t }
     let ea : Int := (u.core.reg f.a).toNat + (u.core.reg f.b).toNat
     Holds u f.gn f.guard → Accessible u.core ea (loadWidth f.sub) →
     (u.loadAbsent ea.toNat (loadWidth f.sub) = false → exec (.writeOnceReadResume t) s =
       done u (u.core.setReg f.d (loadValue f.sub (u.loadLocal ea.toNat (loadWidth f.sub)))) 4) ∧
     (u.loadAbsent ea.toNat (loadWidth f.sub) = true → exec (.writeOnceReadResume t) s =
       .next (u.withCore { u.core with run := .waiting (.writeOnce (.ldA f)) })))

/-! ### Row 0x6 of the core -/

namespace Sys2Proof.Rules

/-- The ops of R114, R115, R119 and R120 that write g[d]: their constructors by form and what they compute. -/
def fpRows : List ((FormA → Instr) × Option (FormC → Instr) × FpRule) :=
  [(.faddA, some .faddC, rFadd), (.fsubA, some .fsubC, rFsub), (.fmulA, some .fmulC, rFmul), (.fmaA, some .fmaC, rFma),
   (.fmsA, some .fmsC, rFms), (.fnmaA, some .fnmaC, rFnma), (.fdivA, some .fdivC, rFdiv), (.fminA, some .fminC, rFmin),
   (.fmaxA, some .fmaxC, rFmax), (.fsgnA, some .fsgnC, rFsgn), (.fsqrt, none, rFsqrt), (.frnd, none, rFrnd)]

/-- A core that has taken a rounded result into g[d]: zero-extended, its flags ORed in, and the generator moved on (R113). -/
abbrev fpWrite (c : Core) (d : BitVec 5) (r : Rounded) : Core :=
  { c with flags := c.flags ||| r.flags, srgen := r.gen }.setReg d (BitVec.ofNat 64 r.bits)

end Sys2Proof.Rules

/-- R60, R113, R114: an FP32 op outside mode SR takes no draw, so that the generator stays as it was; and addition and
multiplication of numbers do not depend on the order of their sources, in every mode. -/
def Obligations.FpDrawAndOrder : Prop :=
  (∀ r ∈ fpRows, ∀ (rm : BitVec 3) (flush : Bool) (gen a b c : Word), rm ≠ rmSR → (r.2.2 rm flush gen a b c).gen = gen) ∧
  (∀ (rm : BitVec 3) (flush : Bool) (gen a b c : Word),
     (src32 flush a).isNan = false → (src32 flush b).isNan = false →
     rFadd rm flush gen a b c = rFadd rm flush gen b a c ∧ rFmul rm flush gen a b c = rFmul rm flush gen b a c)

/-- R113 to R120: where the guard holds, every FP32 op completes, on the low halves of its sources, with the rounding mode and
flush that its modifiers name; only g[d] or the predicate, the flags, the generator, the pc and the count change. The class of
an FP32 pattern follows from its sign, exponent and mantissa fields, and `fsgn` takes bits 30 to 0 of a and bit 31 of b, and
raises no flag. -/
def Obligations.FpForms : Prop :=
  ((∀ r ∈ fpRows, ∀ s : State,
     (∀ f : FormA, Holds s f.gn f.guard → exec (r.1 f) s = done s (fpWrite s.core f.d
       (r.2.2 (s.core.rounding f.sub) s.core.flush s.core.srgen ((s.core.reg f.a).setWidth 32) ((s.core.reg f.b).setWidth 32)
         ((s.core.reg f.d).setWidth 32))) 4) ∧
     (∀ mk, r.2.1 = some mk → ∀ f : FormC, Holds s f.gn f.guard → exec (mk f) s = done s (fpWrite s.core f.d
       (r.2.2 (s.core.rounding f.sub) (s.core.flushOf f.ext32) s.core.srgen ((s.core.reg f.a).setWidth 32) f.lit32
         ((s.core.reg f.d).setWidth 32))) 12)) ∧
   (∀ (s : State) (f : FormA), Holds s f.gn f.guard →
     exec (.fcvt f) s = done s (fpWrite s.core f.d
       (fcvtRule f.b.toNat (s.core.rounding f.sub) s.core.flush s.core.srgen (s.core.reg f.a))) 4 ∧
     exec (.fclass f) s = done s (s.core.setReg f.d (BitVec.ofNat 64 (2 ^ class32 ((s.core.reg f.a).setWidth 32)))) 4 ∧
     (let r := compare32 (f.d.toNat / 8) (src32 s.core.flush ((s.core.reg f.a).setWidth 32))
       (src32 s.core.flush ((s.core.reg f.b).setWidth 32))
      exec (.fcmpA f) s = done s ({ s.core with flags := s.core.flags ||| r.2 }.setPred (f.d.setWidth 3) r.1) 4)) ∧
   (∀ (s : State) (f : FormC), Holds s f.gn f.guard →
     let r := compare32 (f.d.toNat / 8) (src32 (s.core.flushOf f.ext32) ((s.core.reg f.a).setWidth 32))
       (src32 (s.core.flushOf f.ext32) f.lit32)
     exec (.fcmpC f) s = done s ({ s.core with flags := s.core.flags ||| r.2 }.setPred (f.d.setWidth 3) r.1) 12)) ∧
  ((∀ w : Word,
      let neg := w.getLsbD 31
      let e := w.extractLsb' 23 8
      let m := w.extractLsb' 0 23
      class32 w =
        if e = 255 then (if m = 0 then (if neg then 0 else 7) else if w.getLsbD 22 then 9 else 8)
        else if e = 0 then (if m = 0 then (if neg then 3 else 4) else if neg then 2 else 5)
        else if neg then 1 else 6) ∧
   (∀ (rm : BitVec 3) (flush : Bool) (gen a b c : Word) (i : Nat),
      (rFsgn rm flush gen a b c).flags = 0 ∧ (rFsgn rm flush gen a b c).gen = gen ∧
      (rFsgn rm flush gen a b c).bits.testBit i = if i = 31 then b.getLsbD 31 else a.getLsbD i))

/-! ### Row 0x5 of the core: global memory, boundaries, barriers and tags -/

namespace Sys2Proof.Rules

/-- The core's address generator gives a VA its node-physical address pa, and leaves the machine as u (R199, R200). -/
def Reaches (s : State) (va access : Nat) (u : State) (pa : Nat) : Prop :=
  ∃ s' g l, s.translate (dieOf s.cur) (fnOf s.core.fn) s.cur s.core.age va access = .ok s' g pa l ∧
    u = s'.withCore { s'.core with age := g }

/-- The checks of R213 pass. -/
abbrev GlobalOk (ea : Int) : Prop := 0 ≤ ea ∧ ea < 2 ^ 52 ∧ ea % 8 = 0

/-- The checks of R235 on a barrier address pass for the core whose turn it is. -/
def BarrierOk (s : State) (a : Dword) : Prop :=
  a.toNat % 16 = 0 ∧ s.barrierForeign (fnOf s.core.fn) a = false ∧ (s.core.m = 0 → 0x1000 ≤ a.toNat % 2 ^ 22)

/-- A path leads from the core's device to that of a barrier (R355). -/
abbrev BarrierNear (s : State) (a : Dword) : Prop := s.noPath (deviceOf s.cur) (paDevice (barrierPa a)) = false

/-- A core's whole snapshot refreshed from M where the order acquires (R229). -/
abbrev acquired (s : State) (order : Nat) : State := if acquires order then s.refreshCore s.cur 4 else s

/-- A core's buffered stores drained at node scope where the order releases (R229). -/
abbrev released (s : State) (order : Nat) : State := if releases order then s.drainCore s.cur 4 else s

/-- An atomic step of the core on 8 bytes (R233), and the old value to g[d]. -/
abbrev atomic (u : State) (d : BitVec 5) (pa order : Nat) (f : Nat → Option Nat) : Host.Outcome State Fault Refusal :=
  let r := atomicStep u (coreAgent u.cur) u.core.view pa 8 order f
  done (r.1.withCore { r.1.core with view := r.2.1 }) (({ r.1.core with view := r.2.1 } : Core).setReg d (BitVec.ofNat 64 r.2.2)) 4

end Sys2Proof.Rules

/-- R213 to R216, R233: where the checks pass and the address has its page, the global loads, stores and atomics complete. That the
refresh of `.acq` comes in the load's own step is the model's reading (log entry 22). -/
def Obligations.GlobalAccess : Prop :=
  (∀ (s u : State) (f : FormA) (pa : Nat), Holds s f.gn f.guard →
    let order := f.sub.toNat
    let ea : Int := (s.core.reg f.a).toNat + (s.core.reg f.b).toNat
    (GlobalOk ea → Reaches s ea.toNat 0 u pa → u.paAbsent pa 8 = false →
      exec (.gldA f) s = done (acquired u order)
        ((acquired u order).core.setReg f.d (BitVec.ofNat 64 (u.viewNum u.core.view pa 8))) 4) ∧
    (GlobalOk ea → Reaches s ea.toNat 1 u pa →
      let v := u.withCore { u.core with view := u.core.view.store pa (toBytes (u.core.reg f.d).toNat 8) }
      exec (.gstA f) s = done (released v order) (released v order).core 4) ∧
    (GlobalOk (s.core.reg f.a).toNat → Reaches s (s.core.reg f.a).toNat 2 u pa →
      exec (.amo f) s = atomic u f.d pa (f.b.toNat % 4) (fun old => some (atomicOp order 64 old (s.core.reg f.d).toNat)) ∧
      exec (.cas f) s = atomic u f.d pa (order % 4) (fun old =>
        if old = (s.core.reg f.d).toNat then some (s.core.reg f.b).toNat else none))) ∧
  (∀ (s u : State) (f : FormB) (pa : Nat), Holds s f.gn f.guard →
    let order := f.sub.toNat
    let ea : Int := (s.core.reg f.a).toNat + f.imm16.toInt
    (GlobalOk ea → Reaches s ea.toNat 0 u pa → u.paAbsent pa 8 = false →
      exec (.gldB f) s = done (acquired u order)
        ((acquired u order).core.setReg f.d (BitVec.ofNat 64 (u.viewNum u.core.view pa 8))) 8) ∧
    (GlobalOk ea → Reaches s ea.toNat 1 u pa →
      let v := u.withCore { u.core with view := u.core.view.store pa (toBytes (u.core.reg f.d).toNat 8) }
      exec (.gstB f) s = done (released v order) (released v order).core 8))

/-- R110, R192, R213: of `ld`, `st`, `ldp` and `stp` the first check that fails decides the code, ss.fval holds ea modulo 2^64, and
neither memory nor a register changes; of `gld`, `gst`, `amo` and `cas` an address outside the VA space raises 0x20 and
a misaligned one 0x05, or 0x26 for an atomic. Said for form A, the only form of the atomics. An access of an engine whose address
is negative, or 2^52 or more, 2^64 and beyond among them, faults with 0x20 at its first byte. -/
def Obligations.AccessTraps : Prop :=
  (∀ (s : State) (f : FormA), Holds s f.gn f.guard → s.core.ih = false →
     let ea : Int := (s.core.reg f.a).toNat + (s.core.reg f.b).toNat
     let goes (code : BitVec 7) := .next (s.withCore (s.core.enterHandler code (s.core.pc.setWidth 64) (BitVec.ofInt 64 ea)))
     ∀ p ∈ [(Instr.ldA f, loadWidth f.sub), (Instr.stA f, storeWidth f.sub), (Instr.ldpA f, 16), (Instr.stpA f, 16)],
       (ea % p.2 ≠ 0 → exec p.1 s = goes 0x05) ∧
       (ea % p.2 = 0 → 0x2FFFFF < ea + p.2 - 1 → exec p.1 s = goes 0x06) ∧
       (ea % p.2 = 0 → ea + p.2 - 1 ≤ 0x2FFFFF → s.core.m = 0 → ea < 0x1000 → exec p.1 s = goes 0x03)) ∧
  (∀ (s : State) (f : FormA), Holds s f.gn f.guard → s.core.ih = false →
     let goes (code : BitVec 7) (ea : Int) := .next (s.withCore (s.core.enterHandler code (s.core.pc.setWidth 64) (BitVec.ofInt 64 ea)))
     let ea : Int := (s.core.reg f.a).toNat + (s.core.reg f.b).toNat
     let ra : Int := (s.core.reg f.a).toNat
     (2 ^ 52 ≤ ea → exec (.gldA f) s = goes 0x20 ea ∧ exec (.gstA f) s = goes 0x20 ea) ∧
     (ea < 2 ^ 52 → ea % 8 ≠ 0 → exec (.gldA f) s = goes 0x05 ea ∧ exec (.gstA f) s = goes 0x05 ea) ∧
     (2 ^ 52 ≤ ra → exec (.amo f) s = goes 0x20 ra ∧ exec (.cas f) s = goes 0x20 ra) ∧
     (ra < 2 ^ 52 → ra % 8 ≠ 0 → exec (.amo f) s = goes 0x26 ra ∧ exec (.cas f) s = goes 0x26 ra)) ∧
  (∀ (s : State) (age gdie fn tile access n : Nat) (va : Int), va < 0 ∨ 2 ^ 52 ≤ va →
     State.reach age gdie fn tile access (n + 1) s va =
       .fault (s.setAge age (s.age age)) (va % 2 ^ 64).toNat { cause := 0x20, level := 0, pte := 0 })

/-- R234, R239 to R241: `phase` takes its boundary; an arrival or an expectation whose update succeeds completes, with the
phase that an arrival belongs to in g[d]; a `bwait` whose barrier has left the phase observes it, and else waits, and its
observation later is the same. A path leads to the barrier (R355). That the refresh of `.acq` comes in the instruction's own step is
the model's reading (log entry 22). -/
def Obligations.BarrierInstructions : Prop :=
  (∀ (s : State) (f : FormA), Holds s f.gn f.guard → (f.sub = 4 → s.biasWaits s.cur = false) →
    exec (.phase f) s = done (s.boundary s.cur f.sub.toNat) (s.boundary s.cur f.sub.toNat).core 4) ∧
  (∀ (s t : State) (f : FormA), Holds s f.gn f.guard → BarrierOk s (s.core.reg f.a) → BarrierNear s (s.core.reg f.a) → 0 ≤ (s.core.reg f.b).toInt →
    let pa := barrierPa (s.core.reg f.a)
    let r := released s f.sub.toNat
    (r.barrierUpdate pa { bytes := 0, expect := (s.core.reg f.b).toNat, arrivals := 1, ranges := [] } = .ok t →
      exec (.barvA f) s = done t (t.core.setReg f.d (if r.barrierPhase pa then 1 else 0)) 4) ∧
    (s.barrierUpdate pa { bytes := 0, expect := (s.core.reg f.b).toNat, arrivals := 0, ranges := [] } = .ok t →
      exec (.bexpA f) s = done t t.core 4)) ∧
  (∀ (s t : State) (f : FormB), Holds s f.gn f.guard → BarrierOk s (s.core.reg f.a) → BarrierNear s (s.core.reg f.a) → 0 ≤ f.imm16.toInt →
    let pa := barrierPa (s.core.reg f.a)
    let r := released s f.sub.toNat
    (r.barrierUpdate pa { bytes := 0, expect := f.imm16.toNat, arrivals := 1, ranges := [] } = .ok t →
      exec (.barvB f) s = done t (t.core.setReg f.d (if r.barrierPhase pa then 1 else 0)) 8) ∧
    (s.barrierUpdate pa { bytes := 0, expect := f.imm16.toNat, arrivals := 0, ranges := [] } = .ok t →
      exec (.bexpB f) s = done t t.core 8)) ∧
  (∀ (s : State) (f : FormA), Holds s f.gn f.guard → BarrierOk s (s.core.reg f.a) → BarrierNear s (s.core.reg f.a) →
    let a := s.core.reg f.a
    let parity := (s.core.reg f.b).getLsbD 0
    let acq := acquires f.sub.toNat
    (s.barrierPhase (barrierPa a) ≠ parity →
      exec (.bwait f) s = done (s.observe (barrierPa a) acq) (s.observe (barrierPa a) acq).core 4) ∧
    (s.barrierPhase (barrierPa a) = parity →
      exec (.bwait f) s = .next (s.withCore { s.core with run := .waiting (.bwait a parity acq) }))) ∧
  (∀ (s : State) (t : Nat) (a : Dword) (parity acq : Bool), Waits s t (.bwait a parity acq) →
    s.noPath (deviceOf t) (paDevice (barrierPa a)) = false → s.barrierPhase (barrierPa a) ≠ parity →
    let u := ({ s with cur := t } : State).observe (barrierPa a) acq
    exec (.bwaitObserve t) s = .next (u.withCore { u.core.advance 4 with run := .running }))

/-- R238: an update of a barrier that succeeds either leaves the phase and adds to the three counts, or flips the phase and
clears them, exactly where all arrivals and all expected bytes are in; a barrier that expects no arrival, a count that
leaves its field, or an overrun fails. Where no write-once buffer holds the barrier (R362) and memory is canonical, its
16 bytes hold the new counts, or after a flip zero counts and the other phase, and every other byte is unchanged. -/
def Obligations.BarrierUpdate : Prop :=
  (∀ (s : State) (pa : Nat) (u : BarUpdate),
     let lo := s.mem.num pa 8
     let hi := s.mem.num (pa + 8) 8
     let na := lo / 2 ^ 48 + u.arrivals
     let nb := lo % 2 ^ 48 + u.bytes
     let ne := hi % 2 ^ 48 + u.expect
     let arrexp := hi / 2 ^ 48 % 2 ^ 15
     (arrexp = 0 ∨ 2 ^ 48 ≤ nb ∨ 2 ^ 48 ≤ ne → s.barrierUpdate pa u = .error 0x2A) ∧
     (arrexp ≠ 0 → nb < 2 ^ 48 → ne < 2 ^ 48 →
       (arrexp < na ∨ (na = arrexp ∧ ne < nb) → s.barrierUpdate pa u = .error 0x29) ∧
       (na = arrexp → nb = ne → ∃ t, s.barrierUpdate pa u = .ok t ∧ mapGet t.barRanges pa = none ∧
         mapGet t.barFlipped pa = some ((mapGet s.barRanges pa).getD [] ++ u.ranges)) ∧
       (na < arrexp ∨ (na = arrexp ∧ nb < ne) → ∃ t, s.barrierUpdate pa u = .ok t ∧
         mapGet t.barRanges pa = some ((mapGet s.barRanges pa).getD [] ++ u.ranges)))) ∧
  (∀ (s t : State) (pa : Nat) (u : BarUpdate), Memory.wf s.mem = true → (∀ i, i < 16 → s.woBound (pa + i) = false) →
     s.barrierUpdate pa u = .ok t →
     let lo := s.mem.num pa 8
     let hi := s.mem.num (pa + 8) 8
     let na := lo / 2 ^ 48 + u.arrivals
     let nb := lo % 2 ^ 48 + u.bytes
     let ne := hi % 2 ^ 48 + u.expect
     let arrexp := hi / 2 ^ 48 % 2 ^ 15
     (if na = arrexp ∧ nb = ne then
       t.mem.num pa 8 = 0 ∧ t.mem.num (pa + 8) 8 = (1 - hi / 2 ^ 63) * 2 ^ 63 + arrexp * 2 ^ 48
      else t.mem.num pa 8 = na * 2 ^ 48 + nb ∧ t.mem.num (pa + 8) 8 = hi / 2 ^ 63 * 2 ^ 63 + arrexp * 2 ^ 48 + ne) ∧
     (∀ x, x < pa ∨ pa + 16 ≤ x → t.mem.get x = s.mem.get x))

/-- R227, R229: a drain at node scope empties the core's phase buffer, and a node-scope refresh makes its snapshot M, so that
after a boundary the core sees M at every address; and what a core sees of its own buffered stores its drain does not
change, where no write-once buffer is bound (R362). -/
def Obligations.DrainAndRefresh : Prop :=
  (∀ (s : State) (t a : Nat),
     ((s.drainCore t 4).coreOf t).view.pb = [] ∧
     ((s.refreshCore t 4).coreOf t).view.sv = s.mem ∧
     (let u := (s.drainCore t 4).refreshCore t 4
      u.viewByte (u.coreOf t).view a = u.mem.get a)) ∧
  (∀ (s : State) (t scope a : Nat) (b : Byte), Memory.wf s.mem = true → Memory.wf (s.coreOf t).view.sv = true →
     (∀ u, (s.tile u).writeOnce = []) → lastEntry (s.coreOf t).view.pb a = some b →
     (s.coreOf t).view.pb.Pairwise (fun x y => x.store ≤ y.store) →
     (s.drainCore t scope).viewByte ((s.drainCore t scope).coreOf t).view a = b)

/-- R218 to R221: `tlook` answers the slot of a granule or all ones, and never faults; `tins` gives a slot its granule, and another
slot that held it keeps the tag and is not valid; `tevict` answers what the slot held and empties it; and at most one valid entry
of the table holds a given tag, which `tins` keeps so. -/
def Obligations.TagTable : Prop :=
  ((∀ (s : State) (f : FormA), Holds s f.gn f.guard →
     let v := s.core.reg f.a
     exec (.tlook f) s = done s (s.core.setReg f.d
       (if v.toNat ≥ 2 ^ 52 then -1 else match (s.tile s.cur).findTag (v.extractLsb' 10 42) with
         | some n => BitVec.ofNat 64 n
         | none => -1)) 4 ∧
     (v.toNat ≤ 3071 → (s.core.m = 0 → 3 < v.toNat) →
       let e := (s.tile s.cur).tag v.toNat
       let t := s.setTile s.cur ((s.tile s.cur).setTag v.toNat 0)
       exec (.tevict f) s = done t (t.core.setReg f.d
         (if e.getLsbD 42 then BitVec.setWidth 64 (e.extractLsb' 0 42 ++ (0 : BitVec 10)) else -1)) 4)) ∧
   (∀ (s : State) (n : Dword) (v : Dword), v.toNat < 2 ^ 52 → n.toNat ≤ 3071 → (s.core.m = 0 → 3 < n.toNat) →
     let g := v.extractLsb' 10 42
     let t := s.setTile s.cur ((s.tile s.cur).insertTag n.toNat g)
     (∀ f : FormA, Holds s f.gn f.guard → s.core.reg f.a = v → s.core.reg f.b = n → exec (.tinsA f) s = done t t.core 4) ∧
     (∀ f : FormB, Holds s f.gn f.guard → s.core.reg f.a = v → f.imm16.signExtend 64 = n → exec (.tinsB f) s = done t t.core 8))) ∧
  (∀ (x : Tile) (n : Nat) (g : BitVec 42), (x.tags.map Prod.fst).Nodup →
     let y := x.insertTag n g
     y.tag n = tagEntry g ∧ y.findTag g = some n ∧
     (∀ k, k ≠ n → y.tag k = if x.tag k = tagEntry g then g.setWidth 43 else x.tag k) ∧
     ((∀ j k, (x.tag j).getLsbD 42 = true → x.tag j = x.tag k → j = k) →
       ∀ j k, (y.tag j).getLsbD 42 = true → y.tag j = y.tag k → j = k))

/-! ### Units and router operators of the fabric -/

namespace Sys2Proof.Rules

/-- The unit whose turn it is fires in the context c: its tile is live in the region of leader c.l, its word is enabled, and
its output slot is empty (R126, R127). -/
def Fires (s : State) (c : Ctx) : Prop :=
  c.t = s.cur ∧ c.slot = s.slot ∧ (s.regionOf s.cur).map Prod.fst = some c.l ∧ (s.tile s.cur).el s.slot = some c.w ∧
  c.op = (s.tile s.cur).elOp s.slot ∧
  c.ent = (((s.regionOf s.cur).map Prod.snd).bind fun r => mapGet r.entries (s.cur * 512 + s.slot)).getD 0 ∧
  ((s.tile s.cur).unitAt s.slot).out = []

/-- A firing that leaves the machine as u: the tile counts it, and the results leave the output slot as far as their readers
and route let them (R127). -/
abbrev fired (c : Ctx) (u : State) : Host.Outcome State Fault Refusal :=
  let v := u.setTile c.t { u.tile c.t with unitFirings := (u.tile c.t).unitFirings + 1 }
  .next (State.deliver c.l c.t c.slot ((v.tile c.t).unitAt c.slot).out.length v)

/-- A unit that has taken its inputs emits a rounded result: the generator moves on and the region gathers the flags. -/
abbrev emits (c : Ctx) (u : State) (r : Rounded) : State :=
  ((u.setUnitOf c { u.unitOf c with gen := r.gen }).raiseRegion c.l r.flags).put c [dataTok (BitVec.ofNat 32 r.bits)]

/-- The word of a value with no flag. -/
abbrev word (g : Word) (v : Word) : Rounded := { bits := v.toNat, flags := 0, gen := g }

/-- The operations of R132 to R135 that follow R128 in every row: their constructors, used inputs and rules. Integer rows
are written on 32-bit vectors where they wrap, and through `wrapEl` where sub[0] may clamp. -/
def simpleRows : List (Instr × List Nat × Calc) :=
  [(.elIadd, [0, 1], fun c g a b _ => wrapEl c g (readEl c a + readEl c b)),
   (.elIsub, [0, 1], fun c g a b _ => wrapEl c g (readEl c a - readEl c b)),
   (.elImul, [0, 1], fun c g a b _ => wrapEl c g (readEl c a * readEl c b)),
   (.elImac, [0, 1, 2], fun c g a b d => wrapEl c g (readEl c a * readEl c b + readEl c d)),
   (.elIand, [0, 1], fun _ g a b _ => word g (a &&& b)), (.elIor, [0, 1], fun _ g a b _ => word g (a ||| b)),
   (.elIxor, [0, 1], fun _ g a b _ => word g (a ^^^ b)),
   (.elIshl, [0, 1], fun c g a b _ => wrapEl c g (readEl c a * 2 ^ (b.toNat % 32))),
   (.elIshr, [0, 1], fun _ g a b _ => word g (a >>> (b.toNat % 32))),
   (.elIsar, [0, 1], fun _ g a b _ => word g (a.sshiftRight (b.toNat % 32))),
   (.elImin, [0, 1], fun c g a b _ => word g (if readEl c a ≤ readEl c b then a else b)),
   (.elImax, [0, 1], fun c g a b _ => word g (if readEl c a ≤ readEl c b then b else a)),
   (.elIcmp, [0, 1], fun c g a b _ => word g (if condition (c.sub % 8) 32 a.toNat b.toNat then 1 else 0)),
   (.elIsel, [0, 1, 2], fun _ g a b d => word g (if a ≠ 0 then b else d)),
   (.elFadd, [0, 1], fun c g a b _ => rFadd c.rm c.w.flush g a b 0), (.elFsub, [0, 1], fun c g a b _ => rFsub c.rm c.w.flush g a b 0),
   (.elFmul, [0, 1], fun c g a b _ => rFmul c.rm c.w.flush g a b 0), (.elFma, [0, 1, 2], fun c g a b d => rFma c.rm c.w.flush g a b d),
   (.elFmin, [0, 1], fun c g a b _ => rFmin c.rm c.w.flush g a b 0), (.elFmax, [0, 1], fun c g a b _ => rFmax c.rm c.w.flush g a b 0),
   (.elFcmp, [0, 1], fun c g a b _ =>
     let r := compare32 (c.sub % 4) (src32 c.w.flush a) (src32 c.w.flush b)
     { bits := if r.1 then 1 else 0, flags := r.2, gen := g }),
   (.elFabs, [0], fun _ g a _ _ => word g (a &&& 0x7FFFFFFF#32)),
   (.elFdiv, [0, 1], fun c g a b _ => rFdiv c.rm c.w.flush g a b 0), (.elFsqrt, [0], fun c g a _ _ => rFsqrt c.rm c.w.flush g a 0 0),
   (.elFrsq, [0], fun c g a _ _ => frsq32 c.w.flush g a), (.elFexp2, [0], fun c g a _ _ => fexp232 c.w.flush g a),
   (.elFlog2, [0], fun c g a _ _ => flog232 c.w.flush g a), (.elFtanh, [0], fun c g a _ _ => ftanh32 c.w.flush g a),
   (.elCvtin, [0], fun c g a _ _ => cvtinRule c.fmt g (a.toNat % 2 ^ c.width)),
   (.elCvtout, [0], fun c g a _ _ => convert c.fmt c.rm c.w.flush g (src32 c.w.flush a)),
   (.elItof, [0], fun c g a _ _ => fromInteger c.rm c.w.flush g (if c.sub.testBit 0 then (a.toNat : Int) else a.toInt)),
   (.elFtoi, [0], fun c g a _ _ =>
     if c.sub.testBit 0 then toUnsigned 32 c.rm g (src32 c.w.flush a) else toSigned 32 c.rm g (src32 c.w.flush a))]

/-- What a reduction's or a running sum's value becomes with a DATA token (R137, R138). -/
abbrev folded (c : Ctx) (u : UnitState) (v : Word) : Rounded := foldRow c u.gen (gathered c u) v

/-- The head of an input is a DATA token. -/
abbrev Data (s : State) (c : Ctx) (i : Nat) (v : Word) : Prop := s.peekIn c i = some (dataTok v)

/-- A memory node that has a handle for a node-physical address, its inputs taken as u with values vs (R207, R208). -/
def Addresses (s : State) (c : Ctx) (used : List Nat) (access : Nat) (u : State) (vs : List Word) (pa : Nat) : Prop :=
  Fires s c ∧ (s.unitOf c).drain = false ∧ (∀ k, s.peekIn c 0 = some k → k.kind ≠ kRelatch) ∧
  s.gather c used = (u, .data vs) ∧
  u.nodeAddr c (((mapGet s.regions c.l).map Region.user).getD false) access (vs[0]?.getD 0) = .ok pa

/-- A memory node may perform its handle: a path and a port lead to the address (R2, R355). -/
def Performs (s : State) (c : Ctx) (used : List Nat) (access : Nat) (u : State) (vs : List Word) (pa : Nat) : Prop :=
  Addresses s c used access u vs pa ∧ u.noWay (deviceOf c.t) pa = false

/-- A router operator's turn in the context o. -/
def Operates (s : State) (o : OpCtx) : Prop :=
  o.t = s.cur ∧ o.slot = s.slot ∧ (s.regionOf s.cur).map Prod.fst = some o.l ∧ (s.tile s.cur).router s.slot = some o.w

/-- A firing of an operator, which its tile counts. -/
abbrev operated (o : OpCtx) (u : State) : Host.Outcome State Fault Refusal :=
  .next (u.setTile o.t { u.tile o.t with unitFirings := (u.tile o.t).unitFirings + 1 })

end Sys2Proof.Rules

/-- R128, on the heads of the used inputs that do not name k. An ERR is taken alone from the lowest-numbered input that holds
one, whatever the others hold, and leaves unchanged. With no ERR: where a head is missing nothing happens; where every one is a
marker of one kind, one is taken from each and a token of that kind leaves, with the data of the first; where a marker meets
DATA or a marker of another kind, one is taken from each and an ERR 0x14 STREAM_LENGTH located at the unit leaves; and where
every one is DATA, one is taken from each and the result leaves, an input that names k giving k. -/
def Obligations.ElementMarkers : Prop :=
  ∀ r ∈ simpleRows, ∀ (s : State) (c : Ctx), Fires s c →
    let live := r.2.1.filter fun i => elInput c.w i ≠ selK
    let taken := s.takeAll c live []
    (∀ i k, i ∈ live → s.peekIn c i = some k → k.isErr = true →
      (∀ j ∈ live, j < i → ∀ m, s.peekIn c j = some m → m.isErr = false) →
      exec r.1 s = fired c ((s.takeIn c i).put c [k])) ∧
    ((∀ i ∈ live, ∀ m, s.peekIn c i = some m → m.isErr = false) →
      ((∃ i ∈ live, s.peekIn c i = none) → exec r.1 s = .next s) ∧
      (∀ k, live.head?.bind (s.peekIn c) = some k → k.isData = false →
        (∀ i ∈ live, ∃ m, s.peekIn c i = some m ∧ m.kind = k.kind) → exec r.1 s = fired c (taken.put c [k])) ∧
      ((∀ i ∈ live, (s.peekIn c i).isSome = true) →
        (∃ i ∈ live, ∃ j ∈ live, ((s.peekIn c i).map Token.kind) ≠ ((s.peekIn c j).map Token.kind)) →
        exec r.1 s = fired c (taken.put c [taken.errOf c 0x14])) ∧
      (∀ v : Nat → Word, (∀ i ∈ live, Data s c i (v i)) → (∀ i ∈ r.2.1, elInput c.w i = selK → v i = c.w.k) →
        let x (i : Nat) : Word := if i ∈ r.2.1 then v i else 0
        exec r.1 s = fired c (emits c taken (r.2.2 c (taken.unitOf c).gen (x 0) (x 1) (x 2)))))

/-- R126 to R129, R132 to R135, R137, R138, R142, R143: an operation that follows R128 in every row, with a DATA token or k on each
used input, consumes them and emits its result; a reduction takes a DATA token into its value, and at an EOR or EOT leaves the
value and the marker; and a scan leaves the running value with each DATA token. -/
def Obligations.ElementResults : Prop :=
  ((∀ r ∈ simpleRows, ∀ (s : State) (c : Ctx) (u : State) (vs : List Word), Fires s c → s.gather c r.2.1 = (u, .data vs) →
     exec r.1 s = fired c (emits c u (r.2.2 c (u.unitOf c).gen (vs[0]?.getD 0) (vs[1]?.getD 0) (vs[2]?.getD 0)))) ∧
   (∀ (s : State) (c : Ctx) (u : State) (vs : List Word), Fires s c → s.gather c [0, 1, 2] = (u, .data vs) →
     let v := lutBits (s.tile c.t) (c.slot - 256) (vs[0]?.getD 0) (vs[1]?.getD 0) (vs[2]?.getD 0) 32 0 (c.w.k.getLsbD 0)
     exec .elLut s = fired c (emits c u { bits := v, flags := 0, gen := (u.unitOf c).gen }))) ∧
  ((∀ i ∈ [Instr.elRsum, .elRmax, .elRmaxabs, .elRmin, .elRcnt], ∀ (s : State) (c : Ctx) (k : Token), Fires s c →
     s.peekIn c 0 = some k →
     let t := s.takeIn c 0
     let u := t.unitOf c
     let r := folded c u k.data
     (k.isData = true → exec i s =
       fired c ((t.setUnitOf c { u with w := [BitVec.ofNat 32 r.bits], gen := r.gen }).raiseRegion c.l r.flags)) ∧
     (k.ends = true → exec i s = fired c ((t.setUnitOf c { u with w := [] }).put c [dataTok (gathered c u), k]))) ∧
   (∀ (s : State) (c : Ctx) (v : Word), Fires s c → Data s c 0 v →
     let t := s.takeIn c 0
     let u := t.unitOf c
     let r := folded c u v
     exec .elScan s = fired c (((t.setUnitOf c { u with w := [BitVec.ofNat 32 r.bits], gen := r.gen }).raiseRegion c.l r.flags).put c
       [dataTok (BitVec.ofNat 32 r.bits)])))

/-- R132, R137: without `.sat`, the integer operations of an element are the operations on 32-bit vectors, signed or unsigned
alike; over a row of DATA tokens, integer `rsum` gathers the sum modulo 2^32, `rcnt` the count, and integer `rmax` and
`rmin` the greatest and least in the signed reading, and an empty row gives 0 and the least and greatest integer. -/
def Obligations.ElementValues : Prop :=
  (∀ (c : Ctx) (g a b d : Word), c.sub.testBit 0 = false →
     wrapEl c g (readEl c a + readEl c b) = word g (a + b) ∧ wrapEl c g (readEl c a - readEl c b) = word g (a - b) ∧
     wrapEl c g (readEl c a * readEl c b) = word g (a * b) ∧ wrapEl c g (readEl c a * readEl c b + readEl c d) = word g (a * b + d) ∧
     wrapEl c g (readEl c a * 2 ^ (b.toNat % 32)) = word g (a <<< (b.toNat % 32))) ∧
  (∀ (c : Ctx) (g : Word) (vs : List Word), c.sub.testBit 0 = true →
     let row (op : Nat) := vs.foldl (fun v x => BitVec.ofNat 32 (foldRow { c with op := op } g v x).bits) (emptyRow op true)
     row 0x28 = vs.sum ∧ row 0x2C = BitVec.ofNat 32 vs.length ∧
     (row 0x29).toInt = vs.foldl (fun m x => max m x.toInt) (-(2 ^ 31)) ∧ (row 0x2B).toInt = vs.foldl (fun m x => min m x.toInt) (2 ^ 31 - 1))

/-- R138 to R141, R144: the stream, marker and switching operations on DATA and on markers, and what `bsplit` and `bjoin`
leave; and a delay takes a token while it holds fewer than k, its oldest token moving into its empty output slot. -/
def Obligations.StreamElements : Prop :=
  (∀ (s : State) (c : Ctx), Fires s c →
     (∀ k, s.peekIn c 0 = some k →
       let t := s.takeIn c 0
       let u := t.unitOf c
       (exec .elMstrip s = fired c (if (k.kind = kEor ∧ c.sub.testBit 0) ∨ (k.kind = kEot ∧ c.sub.testBit 1) ∨
         (k.kind = kBound ∧ c.sub.testBit 2) then t else t.put c [k])) ∧
       (exec .elConst s = fired c (t.put c [if k.isData then dataTok c.w.k else k])) ∧
       (exec .elErr s = fired c (t.put c [if k.isData ∧ k.data ≠ 0 then s.errOf c (c.w.k.setWidth 7) else k])) ∧
       (k.isData = true →
         exec .elIota s = fired c ((t.setUnitOf c { u with w := [u.w.headD c.w.k + 1] }).put c [dataTok (u.w.headD c.w.k)]) ∧
         exec .elBsplit s = fired c (t.put c ((List.range (32 / 2 ^ (c.sub % 8))).map fun j =>
           dataTok (k.data.extractLsb' (2 ^ (c.sub % 8) * j) (2 ^ (c.sub % 8)) |>.setWidth 32))) ∧
         (u.buf.length + 1 = 32 / 2 ^ (c.sub % 8) → exec .elBjoin s =
           fired c ((t.setUnitOf c { u with buf := [] }).put c [dataTok (joined (2 ^ (c.sub % 8)) (u.buf ++ [k]))])) ∧
         (c.sub = 0 → (u.w.headD 0 + 1).toNat < c.w.k.toNat → s.unitOf c = u →
           exec .elMins s = fired c ((t.setUnitOf c { u with w := [u.w.headD 0 + 1] }).put c [k])) ∧
         (c.sub = 0 → c.w.k.toNat ≤ (u.w.headD 0 + 1).toNat → s.unitOf c = u →
           exec .elMins s = fired c ((t.setUnitOf c { u with w := [] }).put c [k, eorTok])))) ∧
     (∀ v a b, Data s c 0 v →
       (v.toNat < 2 → s.peekIn c (1 + v.toNat) = some a →
         exec .elSel s = fired c ((s.takeAll c [0, 1 + v.toNat] []).put c [a])) ∧
       (2 ≤ v.toNat → exec .elSel s = fired c ((s.takeIn c 0).put c [s.errOf c 0x15])) ∧
       (s.gather c [0, 1] = (b, .data [v, a.data]) → Data s c 1 a.data → v.toNat ≤ c.sub →
         exec .elDsel s = fired c (if v.toNat = c.w.k.toNat % 256 then b.put c [dataTok a.data] else b))) ∧
     (∀ t vs h, s.gather c [0, 1, 2] = (t, .data vs) → s.peekIn c 0 = some h → exec .elJoin s = fired c (t.put c [h])) ∧
     (∀ t a v, s.gather c [0, 1] = (t, .data [a, v]) →
       exec .elGate s = fired c (if v ≠ 0 then t.put c [dataTok a] else t))) ∧
  ((∀ (s : State) (c : Ctx) (k : Token), c.t = s.cur → c.slot = s.slot → c.op = 0x30 → c.ent = 0 →
     (s.regionOf s.cur).map Prod.fst = some c.l → (s.tile s.cur).el s.slot = some c.w →
     (s.unitOf c).buf.length + (s.unitOf c).out.length < c.w.k.toNat → s.peekIn c 0 = some k →
     let t := s.takeIn c 0
     exec .elDelayIntake s = .next (t.setUnitOf c { t.unitOf c with buf := (t.unitOf c).buf ++ [k] })) ∧
   (∀ (s : State) (t slot l : Nat) (g : Region) (k : Token) (r : List Token), s.regionOf t = some (l, g) →
     g.acts = true → s.mayRun (deviceOf t) g.fn = true → s.tileStops t = false → ((s.tile t).el slot).isSome = true → (s.tile t).elOp slot = 0x30 → ((s.tile t).unitAt slot).out = [] →
     ((s.tile t).unitAt slot).buf = k :: r →
     exec (.elDelayOutput t slot) s = .next (State.deliver l t slot 1
       ((s.setUnit t slot { (s.tile t).unitAt slot with buf := r }).emit t slot [k]))))

/-- R57, R135, R136, R72: packing and unpacking of DATA tokens, and a block's first element through `quant` and `scale`. That `quant`
rounds by the element's rm, after R136, where R72 names the entry's mode, is the model's reading (DEDUCED, log entry 77). -/
def Obligations.PackAndQuant : Prop :=
  ∀ (s : State) (c : Ctx) (v : Word), Fires s c → Data s c 0 v →
    let t := s.takeIn c 0
    let u := t.unitOf c
    let w := c.width
    (let n := u.buf.length + 1
     exec .elPack s = fired c ((t.setUnitOf c { u with buf := if n = groupLen w then [] else u.buf ++ [dataTok v] }).put c
       (if n * w / 32 = u.buf.length * w / 32 then [] else [dataTok (wordAt (packed w (u.buf ++ [dataTok v])) (n * w / 32 - 1))]))) ∧
    (u.buf = [] → w ∣ 32 → c.w.k = 0 →
      exec .elUnpack s = fired c ((t.setUnitOf c
          { u with buf := [], w := [BitVec.ofNat 32 ((u.w.headD 0).toNat + 32 / w)] }).put c
        ((List.range (32 / w)).map fun i => dataTok (BitVec.ofNat 32 (v.toNat / 2 ^ (w * i) % 2 ^ w))))) ∧
    (∀ b, Data s c 1 b → (s.unitOf c).held = none → (s.unitOf c).w.length ≠ 2 →
      let o := s.unitOf c
      let m := entScale c.ent
      let x := chooseScale m c.fmt (src32 c.w.flush b)
      let q := divideRound c.fmt c.rm c.w.flush o.gen (src32 c.w.flush v) (decodeVal (scaleFmt m) x)
      let p := mul32 c.rm c.w.flush o.gen (src32 c.w.flush v) (decodeVal (scaleFmt m) (b.toNat % 256))
      let opened (r : Rounded) := (t.setUnitOf c { o with gen := r.gen, held := some (dataTok b), w := [1] }).raiseRegion c.l r.flags
      exec .elQuant s = fired c ((opened q).put c
        ((if c.sub.testBit 0 then [] else [dataTok (BitVec.ofNat 32 x)]) ++ [dataTok (BitVec.ofNat 32 q.bits)])) ∧
      exec .elScale s = fired c ((opened p).put c [dataTok (BitVec.ofNat 32 p.bits)]))

/-- R207, R208, R243, R244, R202, R204, R355: the memory nodes perform a handle, or stop their region where nothing carries the
access, publish and acquire for their masks, and the address generators issue handles and counters. The ss.fval of that stop
is the model's choice (DEDUCED, log entry 46). -/
def Obligations.MemoryElements : Prop :=
  (∀ (s u : State) (c : Ctx) (vs : List Word) (pa : Nat),
    (Performs s c [0] 0 u vs pa → u.nodeAbsent (u.unitOf c).view pa c.bytes = false →
      exec .elMrd s = fired c (u.put c [dataTok (BitVec.ofNat 32 (u.viewNum (u.unitOf c).view pa c.bytes))])) ∧
    (Performs s c [0, 1] 1 u vs pa →
      exec .elMwr s = fired c (u.setUnitOf c
        { u.unitOf c with view := (u.unitOf c).view.store pa (toBytes (vs[1]?.getD 0).toNat c.bytes) })) ∧
    (Performs s c [0, 1] 2 u vs pa →
      let r := atomicStep u (nodeAgent c.t c.slot) (u.unitOf c).view pa 4 (c.w.k.toNat % 4)
        fun old => some (atomicOp (c.sub / 16 % 8) 32 old (vs[1]?.getD 0).toNat)
      exec .elMamo s = fired c ((r.1.setUnitOf c { r.1.unitOf c with view := r.2.1 }).put c [dataTok (BitVec.ofNat 32 r.2.2)])) ∧
    (∀ p ∈ [(Instr.elMrd, [0], 0), (.elMwr, [0, 1], 1), (.elMamo, [0, 1], 2)], Addresses s c p.2.1 p.2.2 u vs pa →
      u.noWay (deviceOf c.t) pa = true → exec p.1 s = fired c (u.stopRegion c.l 0x50 (BitVec.ofNat 64 pa)))) ∧
  (∀ (s : State) (c : Ctx) (k : Token), Fires s c → s.peekIn c 0 = some k → k.isErr = false → k.kind ≠ kRelatch →
    let res (u : State) := fired c (u.put c [if c.sub.testBit 3 then dataTok k.data else k])
    exec .elPub s = res ((maskNodes c.w.k).foldl (fun s n => s.drainNode c.t n (c.sub % 8)) (s.takeIn c 0)) ∧
    exec .elAcq s = res ((maskNodes c.w.k).foldl (fun s n => s.refreshUnit c.t n (c.sub % 8)) (s.takeIn c 0))) ∧
  (∀ (s u : State) (c : Ctx) (r : Region) (b : Cmd) (h : Word), Fires s c → mapGet s.regions c.l = some r →
    (s.unitOf c).age.relatch = [] → (s.unitOf c).age.stopped = none →
    (s.unitOf c).bindings.head?.bind (mapGet s.cmds) = some b → c.sub % 4 = 0 →
    let i := nestCounters (nestExtents b) (s.unitOf c).count
    s.makeHandle r c b (nestAddress b (nestElement b i)) = .ok u h →
      exec .elAgen s = fired c (u.issueHandle c b i true h)) ∧
  (∀ (s : State) (c : Ctx) (i b : Word) (l : List Word), Fires s c → (s.unitOf c).w = i :: b :: l → i.toNat < b.toNat →
    s.peekIn c 0 = none →
    exec .elLgen s = fired c ((s.setUnitOf c { s.unitOf c with w := [i + 1, b] }).put c
      ([dataTok (c.w.k + i)] ++ if i + 1 = b then (if c.sub.testBit 0 then [eorTok] else []) else [])))

/-- R206, R202: handle n of a nest takes the counters of n in the mixed radix of its extents: the first counter runs
fastest, each stays below its extent, and together they give n back. -/
def Obligations.NestOrder : Prop :=
  ∀ (exts : List Nat) (n : Nat), (∀ e ∈ exts, 0 < e) → n < exts.foldl (· * ·) 1 →
    let i := nestCounters exts n
    i.length = exts.length ∧ (∀ p ∈ i.zip exts, p.1 < p.2) ∧
    (i.zip exts).foldr (fun p acc => p.1 + p.2 * acc) 0 = n

/-- R145 to R148: the matrix-edge elements on whole groups of DATA tokens. -/
def Obligations.MatrixElements : Prop :=
  ∀ (s : State) (c : Ctx), Fires s c →
    (∀ k, s.peekIn c 0 = some k → (k.isData = true ∨ k.ends = true) →
      let t := s.takeIn c 0
      let lane := c.sub % 128
      let v : Token := { k with data := BitVec.ofNat 32 (k.data.toNat % 2 ^ entWidth c.ent) }
      let a := (t.tile c.t).array
      exec .elMfeed s = fired c (t.setTile c.t
        { t.tile c.t with array := { a with lanes := mapSet a.lanes lane ((mapGet a.lanes lane).getD [] ++ [v]) } })) ∧
    (∀ v, c.strip = false → Data s c 0 v → (s.unitOf c).buf.length = 7 →
      let t := s.takeIn c 0
      exec .elNorm s = fired c (resolveOne c (groupCst ((s.unitOf c).buf ++ [dataTok v])) (t.setUnitOf c { t.unitOf c with buf := [] }))) ∧
    (c.strip = false → (s.unitOf c).buf.length = 8 → (s.unitOf c).w.length = 8 →
      exec .elCadd s = fired c ((s.setUnitOf c { s.unitOf c with buf := [], w := [] }).put c
        (cstGroup (cstAdd (groupCst (s.unitOf c).buf) (cstOfWords (s.unitOf c).w))))) ∧
    (∀ src v, accInput c s = some (src, dataTok v) → c.sub ∈ [1, 2, 3, 4] →
      let t := s.takeSrc c.l c.t c.slot true src
      let u := t.unitOf c
      let r := accFold c u.gen ((accValue c u).headD 0) v
      exec .elAcc s = fired c ((t.setUnitOf c { u with w := [BitVec.ofNat 32 r.bits], gen := r.gen }).raiseRegion c.l r.flags))

/-- R149 to R151: what each router operator does with the tokens at the heads of its channels, where its outgoing channels have
a free slot for each token that it sends. That `steer` and `drop` let an ERR token follow its ctl, or pass, as R128 says, where
R150 sends other pairings out as ERR 0x14, is the model's reading (DEDUCED, log entry 24). -/
def Obligations.RouterOperators : Prop :=
  ∀ (s : State) (o : OpCtx), Operates s o →
    let inA := o.w.inA.toNat
    let inB := o.w.inB.toNat
    let ctl := o.w.ctl.toNat
    let out0 := o.w.out0.toNat
    let out1 := o.w.out1.toNat
    let came (c : Nat) : Nat := ((s.tile o.t).inChan c).times.headD 0
    let two := if out0 = out1 then ((s.tile o.t).outChan out0).length ≤ 14 else o.room s out0 = true ∧ o.room s out1 = true
    (∀ a v, o.peek s inA = some a → o.peek s ctl = some (dataTok v) → (a.isData = true ∨ a.isErr = true) →
      (o.room s (if v = 0 then out0 else out1) = true →
        exec .steer s = operated o (o.send (o.take2 s inA ctl) (if v = 0 then out0 else out1) a)) ∧
      (v = 0 → exec .drop s = operated o (o.take2 s inA ctl)) ∧
      (v ≠ 0 → o.room s out0 = true → exec .drop s = operated o (o.send (o.take2 s inA ctl) out0 a))) ∧
    (∀ a m, o.peek s inA = some a → o.peek s ctl = some m → m.isData = false → m.isErr = false → m.kind = a.kind →
      o.room s out0 = true →
      (two → exec .steer s = operated o (o.send (o.send (o.take2 s inA ctl) out0 a) out1 a)) ∧
      exec .drop s = operated o (o.send (o.take2 s inA ctl) out0 a)) ∧
    (∀ a, o.peek s inA = some a → two →
      exec .fork s = operated o (o.send (o.send (o.take s inA) out0 a) out1 a)) ∧
    (∀ a, o.peek s inA = some a → o.room s out0 = true → (o.peek s inB = none ∨ came inA ≤ came inB) →
      exec .merge s = operated o (o.send ((o.take s inA).forgetTime o.t inA) out0 a)) ∧
    (∀ b, o.peek s inB = some b → o.room s out0 = true → (o.peek s inA = none ∨ came inB < came inA) →
      exec .merge s = operated o (o.send ((o.take s inB).forgetTime o.t inB) out0 b)) ∧
    (∀ a, ((s.tile o.t).unitAt o.slot).w = [] → o.peek s inA = some a → o.room s out0 = true →
      exec .carry s = operated o ((o.send (o.take s inA) out0 a).setUnit o.t o.slot { (s.tile o.t).unitAt o.slot with w := [1] })) ∧
    (∀ b v, ((s.tile o.t).unitAt o.slot).w ≠ [] → v ≠ 0 → o.peek s ctl = some (dataTok v) → o.peek s inB = some b →
      o.room s out0 = true → exec .carry s = operated o (o.send (o.take2 s inB ctl) out0 b)) ∧
    (((s.tile o.t).unitAt o.slot).w ≠ [] → o.peek s ctl = some (dataTok 0) →
      exec .carry s = operated o ((o.take s ctl).setUnit o.t o.slot { (s.tile o.t).unitAt o.slot with w := [] }))

/-- R149: a token at the head of the neighbour's outgoing channel goes on to the outgoing channel that the map names, is
taken in by an entry local or operator, or is discarded by an unused entry; where it has no room it stays. Neither tile is disabled
and the clocks of both dies run. -/
def Obligations.RouterForwarding : Prop :=
  ∀ (s : State) (t chan u : Nat) (k : Token) (rest : List Token), chan < 40 → neighbour t (chan / 8) = some u →
    s.tileStops t = false → s.tileStops u = false → (s.tile u).outChan (facing chan) = k :: rest →
    let e := (s.tile t).chanEntry chan
    let left := if rest = [] then mapErase (s.tile u).chanOut (facing chan) else mapSet (s.tile u).chanOut (facing chan) rest
    let s1 := s.setTile u { s.tile u with chanOut := left }
    (e ≤ 0x27 → (s.tile t).chanRoom e = true → exec (.routerForward t chan) s = .next (s1.pushChan t e k)) ∧
    (e ≤ 0x27 → (s.tile t).chanRoom e = false → exec (.routerForward t chan) s = .next s) ∧
    (e = 0x3F → exec (.routerForward t chan) s = .next s1) ∧
    (∀ v, (e = 0x3D ∨ e = 0x3E) → s1.arrive t chan k = some v → exec (.routerForward t chan) s = .next v)

/-- R126 to R151: a firing of an element or operator that reaches no memory node's or generator's part changes only its own
tile and its region: the tile's core, the other tiles, the other regions and every other part of the machine are as before. For
`mrd` and `mwr` this is said where every address has its way (R355), since an access that nothing carries stops the region. -/
def Obligations.FabricFrame : Prop :=
  ∀ i ∈ simpleRows.map Prod.fst ++ [Instr.elLut, .elRsum, .elRmax, .elRmaxabs, .elRmin, .elRcnt, .elScan, .elMstrip, .elMins,
      .elConst, .elIota, .elSel, .elDsel, .elJoin, .elGate, .elErr, .elPack, .elUnpack, .elQuant, .elScale, .elBsplit, .elBjoin,
      .elMfeed, .elNorm, .elCadd, .elAcc, .elMrd, .elMwr, .elDelayIntake, .steer, .merge, .carry, .fork, .drop],
    ∀ s t : State, (i = .elMrd ∨ i = .elMwr → ∀ pa, s.noWay (deviceOf s.cur) pa = false) → exec i s = .next t →
      t = { s with tiles := t.tiles, regions := t.regions } ∧ t.coreOf s.cur = s.coreOf s.cur ∧
      (∀ u, u ≠ s.cur → t.tile u = s.tile u) ∧
      ∀ l, (s.regionOf s.cur).map Prod.fst ≠ some l → mapGet t.regions l = mapGet s.regions l

/-! ### The scalar instructions of the fabric -/

/-- R155 to R157, R131: `fput`, `fget` and `fcnt` complete where nothing stands before them and the port has what they need,
and else wait, for the stream commands that hold the port now and for its place or token; and what has waited completes so, or,
for a form B `fget`, ends with kind 7 after its limit, in whose last fc it takes a token that is there. -/
def Obligations.FabricPorts : Prop :=
  (∀ (s : State) (port len : Nat) (v : Word),
    let q := (s.tile s.cur).fiPort port
    let t := s.pushFi s.cur port (dataTok v)
    let puts (r : Host.Outcome State Fault Refusal) : Prop :=
      (q.owners = [] → q.q.length < 32 → r = done t t.core len) ∧
      (q.owners ≠ [] ∨ 32 ≤ q.q.length → r = .next (s.withCore { s.core with run := .waiting (.fput port v len q.owners) }))
    (∀ f : FormA, Holds s f.gn f.guard → port = 32 * (f.sub.toNat % 2) + f.d.toNat → v = (s.core.reg f.a).setWidth 32 → len = 4 →
      puts (exec (.fputA f) s)) ∧
    (∀ f : FormB, Holds s f.gn f.guard → port = 32 * (f.sub.toNat % 2) + f.d.toNat → v = f.imm16.signExtend 32 → len = 8 →
      puts (exec (.fputB f) s))) ∧
  (∀ (s : State) (port : Nat),
    let q := (s.tile s.cur).foPort port
    let t := s.popFo s.cur port
    let gets (d : BitVec 5) (limit : Option Nat) (len : Nat) (r : Host.Outcome State Fault Refusal) : Prop :=
      (∀ k l, q.owners = [] → q.q = k :: l →
        r = done t (t.core.setReg d (BitVec.ofNat 64 (k.kind.toNat * 2 ^ 32 + k.data.toNat))) len) ∧
      (q.owners ≠ [] ∨ q.q = [] → r = .next (s.withCore
        { s.core with run := .waiting (.fget port d limit (s.die (dieOf s.cur)).cycle q.owners) }))
    (∀ f : FormA, Holds s f.gn f.guard → port = 32 * (f.sub.toNat % 2) + f.a.toNat → gets f.d none 4 (exec (.fgetA f) s)) ∧
    (∀ f : FormB, Holds s f.gn f.guard → port = 32 * (f.sub.toNat % 2) + f.a.toNat →
      gets f.d (some (f.imm16.toNat * 16)) 8 (exec (.fgetB f) s))) ∧
  (∀ (s : State) (f : FormA), Holds s f.gn f.guard → exec (.fcntA f) s = done s (s.core.setReg f.d (BitVec.ofNat 64
    ((s.tile s.cur).available (f.sub.getLsbD 1) (32 * (f.sub.toNat % 2) + f.a.toNat)))) 4) ∧
  (∀ (s : State) (f : FormB), Holds s f.gn f.guard →
    let n := (s.tile s.cur).available (f.sub.getLsbD 1) (32 * (f.sub.toNat % 2) + f.a.toNat)
    (f.imm16.toNat ≤ n → exec (.fcntB f) s = done s (s.core.setReg f.d (BitVec.ofNat 64 n)) 8) ∧
    (n < f.imm16.toNat → exec (.fcntB f) s = .next (s.withCore
      { s.core with run := .waiting (.fcnt (f.sub.getLsbD 1) (32 * (f.sub.toNat % 2) + f.a.toNat) f.imm16.toNat f.d) }))) ∧
  (∀ (s : State) (t port len : Nat) (v : Word) (before : List Nat), Waits s t (.fput port v len before) →
    let q := (s.tile t).fiPort port
    ((∀ c ∈ before, c ∉ q.owners) → q.q.length < 32 →
      exec (.fputResume t) s = .next ((({ s with cur := t } : State).pushFi t port (dataTok v)).resumed len)) ∧
    ((∃ c ∈ before, c ∈ q.owners) ∨ 32 ≤ q.q.length → exec (.fputResume t) s = .next s)) ∧
  (∀ (s : State) (t port since : Nat) (d : BitVec 5) (limit : Option Nat) (before : List Nat),
    Waits s t (.fget port d limit since before) →
    let q := (s.tile t).foPort port
    let u := ({ s with cur := t } : State).popFo t port
    let late := ∃ n, limit = some n ∧ since + n < (s.die (dieOf t)).cycle
    (∀ k l, (∀ c ∈ before, c ∉ q.owners) → q.q = k :: l → ¬ late →
      exec (.fgetResume t) s = .next ((u.withCore
        (u.core.setReg d (BitVec.ofNat 64 (k.kind.toNat * 2 ^ 32 + k.data.toNat)))).resumed (if limit.isSome then 8 else 4))) ∧
    ((∃ c ∈ before, c ∈ q.owners) ∨ q.q = [] ∨ late → exec (.fgetResume t) s = .next s)) ∧
  (∀ (s : State) (t port since limit : Nat) (d : BitVec 5) (before : List Nat),
    Waits s t (.fget port d (some limit) since before) →
    let u : State := { s with cur := t }
    let q := (s.tile t).foPort port
    let now := (s.die (dieOf t)).cycle
    (since + limit < now ∨ (since + limit = now ∧ q.q = []) →
      exec (.fgetTimeout t) s = .next ((u.withCore (u.core.setReg d 0x0000000700000000)).resumed 8)) ∧
    (now < since + limit ∨ (now = since + limit ∧ q.q ≠ [] ∧ ∀ c ∈ before, c ∉ q.owners) →
      exec (.fgetTimeout t) s = .next s)) ∧
  (∀ (s : State) (t port least : Nat) (fo : Bool) (d : BitVec 5), Waits s t (.fcnt fo port least d) →
    let u : State := { s with cur := t }
    (least ≤ (s.tile t).available fo port → exec (.fcntResume t) s =
      .next ((u.withCore (u.core.setReg d (BitVec.ofNat 64 ((s.tile t).available fo port)))).resumed 8)) ∧
    ((s.tile t).available fo port < least → exec (.fcntResume t) s = .next s))

/-- R152 to R154, R158, R159: where no stream command that configures the tile stands before them, `cfgl` stores a slot's
word that passes its checks, `argw` a slot's k, at once or through the argument network of a live tile, `acrd` reads and
`acclr` clears an accumulator; one that has waited for those commands does so then. A piece of an accumulator is its value
extended to 64 bits, or kind and data of the last token, and 0 beyond the first piece of the modes but csum. That `acclr` keeps a
CST group that has come in part (DESIGN CHOICE, log entry 79), and what `acrd` reads of a slot whose sub is no mode (DESIGN CHOICE,
log entry 87), are the model's choices. -/
def Obligations.FabricRegisters : Prop :=
  (∀ (s : State) (i : Instr) (n : Dword) (a : BitVec 5) (len : Nat),
    ((∃ f : FormA, i = .cfglA f ∧ Holds s f.gn f.guard ∧ a = f.a ∧ n = s.core.reg f.b ∧ len = 4) ∨
     (∃ f : FormB, i = .cfglB f ∧ Holds s f.gn f.guard ∧ a = f.a ∧ n = f.imm16.signExtend 64 ∧ len = 8)) →
    s.fabricPending s.cur = false → Accessible s.core (s.core.reg a).toNat 16 → s.loadAbsent (s.core.reg a).toNat 16 = false →
    n.toNat ≤ 426 → (s.tile s.cur).live = none →
    let w := BitVec.ofNat 128 (s.loadLocal (s.core.reg a).toNat 16)
    let t := s.setTile s.cur ((s.tile s.cur).setSlot n.toNat w)
    slotOk s.cur n.toNat w = true → exec i s = done t t.core len) ∧
  (∀ (s : State) (i : Instr) (n : Nat) (v : Word) (len : Nat),
    ((∃ f : FormA, i = .argwA f ∧ Holds s f.gn f.guard ∧ n = (s.core.reg f.a).toNat ∧ v = (s.core.reg f.b).setWidth 32 ∧ len = 4) ∨
     (∃ f : FormB, i = .argwB f ∧ Holds s f.gn f.guard ∧ n = f.ext16.toNat % 512 ∧ v = f.imm16.signExtend 32 ∧ len = 8) ∨
     (∃ f : FormC, i = .argwC f ∧ Holds s f.gn f.guard ∧ n = f.ext32.toNat % 512 ∧ v = f.lit32 ∧ len = 12)) →
    s.fabricPending s.cur = false → n ≤ 327 →
    let x := s.tile s.cur
    let held := s.setTile s.cur (x.setSlot n ((x.slot n).extractLsb' 80 48 ++ v ++ (x.slot n).extractLsb' 0 48))
    let sent := s.setTile s.cur { x with argNet := x.argNet ++ [(n, v)] }
    (x.live = none → exec i s = done held held.core len) ∧ (x.live.isSome = true → exec i s = done sent sent.core len)) ∧
  (∀ (s : State) (f : FormA), Holds s f.gn f.guard → s.fabricPending s.cur = false →
    let x := s.tile s.cur
    let n := 312 + f.a.toNat % 16
    let t := s.setUnit s.cur n { x.unitAt n with w := [] }
    exec (.acrd f) s = done s (s.core.setReg f.d (accPiece (unpackEl (x.slot n)).sub.toNat f.sub.toNat (x.unitAt n).w)) 4 ∧
    exec (.acclr f) s = done t t.core 4) ∧
  (∀ (s : State) (t : Nat) (f : FormA), Waits s t (.beat (.acclr f)) →
    let u := s.rerun t
    exec (.beatInsnResume t) s = exec (.acclr f) u ∧
    (Holds u f.gn f.guard → u.fabricPending t = false →
      let n := 312 + f.a.toNat % 16
      let v := u.setUnit t n { (u.tile t).unitAt n with w := [] }
      exec (.beatInsnResume t) s = done v v.core 4)) ∧
  (∀ (k v : Word) (p : Nat), 0 < p →
    accPiece 0 0 [k, v] = k ++ v ∧ accPiece 0 0 [] = 0 ∧ accPiece 1 0 [v] = v.signExtend 64 ∧ accPiece 2 0 [v] = v.signExtend 64 ∧
    accPiece 1 0 [] = 0 ∧ accPiece 3 0 [v] = v.setWidth 64 ∧ accPiece 4 0 [v] = v.setWidth 64 ∧
    accPiece 0 p [k, v] = 0 ∧ accPiece 1 p [v] = 0 ∧ accPiece 2 p [v] = 0 ∧ accPiece 3 p [v] = 0 ∧ accPiece 4 p [v] = 0)

/-- R179, R181 to R183: on the tile that leads a region, with no load of its core pending, the beat instructions complete:
`bset` stores each value that its row admits, a beat length for a later boundary while a beat runs and for the next beat
otherwise, `bget` reads a register, `bhold` asks for a hold, `bgo` releases a held region, `rfst` and `rfcl` read and clear
the counter of a station or of the region. -/
def Obligations.BeatInstructions : Prop :=
  ∀ (s : State) (r : Region), s.loadPending s.cur = false → mapGet s.regions s.cur = some r →
    (∀ (i : Instr) (sub : BitVec 3) (v : Dword) (len : Nat),
      ((∃ f : FormA, i = .bsetA f ∧ Holds s f.gn f.guard ∧ sub = f.sub ∧ v = s.core.reg f.a ∧ len = 4) ∨
       (∃ f : FormB, i = .bsetB f ∧ Holds s f.gn f.guard ∧ sub = f.sub ∧ v = f.imm16.signExtend 64 ∧ len = 8)) →
      (r.mode ≠ 2 ∨ r.winBeats < 64) →
      let x := v.toInt
      let least (k : Int) : Prop := 4 ≤ k ∧ ∀ st ∈ r.stations, (st.length : Int) ≤ k
      let goes (q : Region) := let t := s.setRegion s.cur q
        exec i s = done t t.core len
      (sub = 0 → least x → x ≤ 4095 → (r.mode = 0 ∨ ((r.floor : Int) ≤ x ∧ x ≤ r.ceiling)) →
        (r.phase = .running → goes { r with latched := some v.toNat }) ∧
        (r.phase ≠ .running → goes { r with direct := some v.toNat })) ∧
      (sub = 1 → least x → x ≤ r.ceiling → goes { r with floor := v.toNat }) ∧
      (sub = 2 → (r.floor : Int) ≤ x → x ≤ 4095 → goes { r with ceiling := v.toNat }) ∧
      (sub = 3 → 1 ≤ x → x ≤ 255 → goes { r with step := v.toNat }) ∧
      (sub = 4 → 0 ≤ x → x ≤ 2 → v.toNat ≠ r.mode → goes { r with mode := v.toNat, winBeats := 0, winGreens := 0, winSlips := 0 }) ∧
      (sub = 5 → 0 ≤ x → x < 2 ^ 32 → goes { r with slipceil := v.toNat }) ∧
      (sub = 6 → 0 ≤ x → x < 2 ^ 16 → v.toNat % 256 < v.toNat / 256 → v.toNat / 256 ≤ 64 →
        goes { r with hyslo := v.toNat % 256, hyshi := v.toNat / 256 })) ∧
    (∀ f : FormA, Holds s f.gn f.guard →
      let t := s.setRegion s.cur { r with holdAsked := true }
      let u := (s.setRegion s.cur { r with holdAsked := false }).releaseHold s.cur
      exec (.bget f) s = done s (s.core.setReg f.d (BitVec.ofNat 64 ([r.beat, r.floor, r.ceiling, r.step, r.mode, r.slipceil,
        r.hyslo + r.hyshi * 256, r.beats][f.sub.toNat]?.getD 0))) 4 ∧
      (r.phase ≠ .held → exec (.bhold f) s = done t t.core 4 ∧ exec (.bgo f) s = done s s.core 4) ∧
      (r.phase = .held → exec (.bhold f) s = done s s.core 4 ∧ exec (.bgo f) s = done u u.core 4)) ∧
    (∀ (i j : Instr) (sub : BitVec 3) (d : BitVec 5) (v : Dword) (len : Nat),
      ((∃ f : FormA, i = .rfstA f ∧ j = .rfclA f ∧ Holds s f.gn f.guard ∧ sub = f.sub ∧ d = f.d ∧ v = s.core.reg f.a ∧ len = 4) ∨
       (∃ f : FormB, i = .rfstB f ∧ j = .rfclB f ∧ Holds s f.gn f.guard ∧ sub = f.sub ∧ d = f.d ∧ v = f.imm16.signExtend 64 ∧
         len = 8)) →
      let x := r.station v.toNat
      let reads (n : Nat) := exec i s = done s (s.core.setReg d (BitVec.ofNat 64 n)) len
      let clears (q : Region) := let t := s.setRegion s.cur q
        exec j s = done t t.core len
      (v.toNat < r.stations.length →
        (sub = 0 → reads x.green.toNat ∧ clears (r.setStation v.toNat { x with green := 0 })) ∧
        (sub = 1 → reads x.reent.toNat ∧ clears (r.setStation v.toNat { x with reent := 0 })) ∧
        (sub = 2 → r.phase = .running → reads x.loop.length) ∧
        (sub = 3 → reads x.peak.toNat ∧
          (r.phase = .running → clears (r.setStation v.toNat { x with peak := BitVec.ofNat 32 (min x.loop.length (2 ^ 32 - 1)) }))) ∧
        (sub = 4 → reads x.slips.toNat ∧ clears (r.setStation v.toNat { x with slips := 0 }))) ∧
      (sub = 5 → reads r.rslip.toNat ∧ clears { r with rslip := 0 }) ∧
      (sub = 6 → reads r.yields.toNat ∧ clears { r with yields := 0 }))

/-! ### The deque, actors and events -/

/-- R278: with 32 accessible bytes at g[a], `dqpush` appends the record there to a deque that is not full, `dqpop` takes the
bottom record and `dqsteal` the top one of a cluster member, each with 1 in g[d]; a full or an empty deque gives 0. -/
def Obligations.DequeInstructions : Prop :=
  (∀ (s : State) (f : FormA), Holds s f.gn f.guard → Accessible s.core (s.core.reg f.a).toNat 32 →
    let c := s.core
    let a := (c.reg f.a).toNat
    (s.loadAbsent a 32 = false → c.deque.length < 256 → exec (.dqpush f) s =
      done s ({ c with deque := c.deque ++ [s.readLocal a 32] }.setReg f.d 1) 4) ∧
    (s.loadAbsent a 32 = false → 256 ≤ c.deque.length → exec (.dqpush f) s = done s (c.setReg f.d 0) 4) ∧
    (∀ q bs, c.deque = q ++ [bs] →
      let t := (s.withCore { c with deque := q }).storeLocal a bs
      exec (.dqpop f) s = done t (t.core.setReg f.d 1) 4) ∧
    (c.deque = [] → exec (.dqpop f) s = done s (c.setReg f.d 0) 4)) ∧
  (∀ (s : State) (i : Instr) (a d : BitVec 5) (p : Dword) (len : Nat),
    ((∃ f : FormA, i = .dqstealA f ∧ Holds s f.gn f.guard ∧ a = f.a ∧ d = f.d ∧ p = s.core.reg f.b ∧ len = 4) ∨
     (∃ f : FormB, i = .dqstealB f ∧ Holds s f.gn f.guard ∧ a = f.a ∧ d = f.d ∧ p = f.imm16.signExtend 64 ∧ len = 8)) →
    let u := s.cur / 8 * 8 + p.toNat
    let left := s.setCore u { s.coreOf u with deque := (s.coreOf u).deque.drop 1 }
    Accessible s.core (s.core.reg a).toNat 32 → p.toNat ≤ 7 → s.ownsTile (deviceOf s.cur) (fnOf s.core.fn) (u % 160) = true →
    (∀ bs r, (s.coreOf u).deque = bs :: r →
      let t := left.storeLocal (s.core.reg a).toNat bs
      exec i s = done t (t.core.setReg d 1) len) ∧
    ((s.coreOf u).deque = [] → exec i s = done left (left.core.setReg d 0) len))

/-- R86, R94, R95, R272 to R277: `arm` binds the actor that its descriptor's checks allow or removes one, at once or at the end
of the actor's own firing; `evget` takes the head record or 0; an idle core fires its next fireable actor, at the
descriptor's pc and mode with the actor's g24 to g31; `yield` fires each fireable one before the program goes on, as it was;
`done` takes a node boundary, saves g24 to g31 to the actor that fired, or lets an `arm` of that actor take effect, and leaves the
core idle; an arrival of a woken class ends a `wfe`; and the actor
that fires next is the first fireable one in numbering order after the one that fired last. That a firing begins with the other
registers as they stand is the model's reading (log entry 37), and so is which registers `yield` keeps and puts back
(log entry 31). -/
def Obligations.ActorInstructions : Prop :=
  (∀ (s : State) (i : Instr) (sub : BitVec 3) (a : BitVec 5) (n : Dword) (len : Nat),
    ((∃ f : FormA, i = .armA f ∧ Holds s f.gn f.guard ∧ sub = f.sub ∧ a = f.a ∧ n = s.core.reg f.b ∧ len = 4) ∨
     (∃ f : FormB, i = .armB f ∧ Holds s f.gn f.guard ∧ sub = f.sub ∧ a = f.a ∧ n = f.imm16.signExtend 64 ∧ len = 8)) →
    n.toNat ≤ 15 →
    let c := s.core
    let at' := (c.reg a).toNat
    let d := BitVec.ofNat 128 (s.loadLocal at' 16)
    (sub.getLsbD 0 = true → c.actor ≠ some n.toNat → exec i s = done s { c with actors := mapErase c.actors n.toNat } len) ∧
    (sub.getLsbD 0 = true → c.actor = some n.toNat → exec i s = done s { c with rearm := mapSet c.rearm n.toNat none } len) ∧
    (sub.getLsbD 0 = false → Accessible c at' 16 → s.loadAbsent at' 16 = false → descriptorOk d c.m = true →
      (c.actor ≠ some n.toNat → exec i s =
        done s { c with actors := mapSet c.actors n.toNat { desc := d, saved := Vector.replicate 8 0 } } len) ∧
      (c.actor = some n.toNat → exec i s = done s { c with rearm := mapSet c.rearm n.toNat (some d) } len))) ∧
  (∀ (s : State) (f : FormA), Holds s f.gn f.guard →
    let c := s.core
    let b := s.boundary s.cur 4
    exec (.evget f) s = done s ({ c with events := c.events.drop 1 }.setReg f.d (c.events.headD 0)) 4 ∧
    ((c.actor.isSome = true ∨ (s.tile s.cur).fireables = []) → exec (.yield f) s = done s c 4) ∧
    (∀ n r x, c.actor = none → (s.tile s.cur).fireables = n :: r → mapGet c.actors n = some x →
      exec (.yield f) s = .next (s.withCore { (c.advance 4).fire n x with
        yielding := some { g := c.g, p := c.p, pc := c.pc + 4, cause := c.cause, fpc := c.fpc, fval := c.fval, mode := c.mode
                           fpmode := c.fpmode, wake := c.wake, actor := none, left := r } })) ∧
    (s.biasWaits s.cur = false → exec (.done f) s = .next (b.withCore b.core.done)) ∧
    (c.yielding = none → b.core.yielding = none → b.core.done.run = .idle)) ∧
  (∀ (s : State) (t n : Nat) (r : List Nat) (x : Actor), (s.coreOf t).run = .idle → s.coreStands t = false →
    (s.tile t).fireables = n :: r → mapGet (s.coreOf t).actors n = some x →
    exec (.actorFiring t) s = .next (s.setCore t ((s.coreOf t).fire n x))) ∧
  (∀ (c : Core) (n : Nat) (x : Actor),
    let d := c.fire n x
    d.pc = x.desc.extractLsb' 0 48 ∧ d.m = x.desc.extractLsb' 48 2 ∧ d.run = .running ∧ d.actor = some n ∧ d.lastFired = n ∧
    d.tenant = c.fn ∧ (∀ j : Fin 8, d.g[24 + j.val] = x.saved[j]) ∧ (∀ j : Fin 24, d.g[j.val] = c.g[j.val]) ∧ d.p = c.p) ∧
  (∀ (c : Core) (f : YieldFrame), c.yielding = some f → f.left = [] →
    let d := c.done
    d.g = f.g ∧ d.p = f.p ∧ d.pc = f.pc ∧ d.cause = f.cause ∧ d.fpc = f.fpc ∧ d.fval = f.fval ∧ d.wake = f.wake ∧
    d.actor = f.actor ∧ d.yielding = none ∧ d.run = .running) ∧
  (∀ (c : Core) (n : Nat) (x : Actor), c.actor = some n → mapGet c.actors n = some x →
    let after := mapGet c.done.actors
    (mapGet c.rearm n = none → ∃ y, after n = some y ∧ y.desc = x.desc ∧ ∀ j : Fin 8, y.saved[j] = c.g[24 + j.val]) ∧
    (mapGet c.rearm n = some none → after n = none) ∧
    (∀ d, mapGet c.rearm n = some (some d) → after n = some { desc := d, saved := Vector.replicate 8 0 }) ∧
    (∀ k, k ≠ n → after k = mapGet c.actors k)) ∧
  (∀ (s : State) (t : Nat), Waits s t .wfe → (s.coreOf t).woken = true →
    exec (.wfeWake t) s = .next (s.setCore t { (s.coreOf t).advance 4 with run := .running })) ∧
  (∀ (x : Tile) (n : Nat) (r : List Nat), x.core.lastFired < 16 → x.fireables = n :: r →
    let after (k : Nat) := (k + 16 - (x.core.lastFired + 1)) % 16
    n < 16 ∧ (n :: r).Nodup ∧ ∀ k ∈ r, after n < after k)

/-! ### Graphs -/

/-- R280, R282, R286: `gnode` of 1 to 65,535 nodes at a VA that passes its checks takes a free context of the die, whose number
it gives, or gives all ones where none is free; `gsig` of 1 to 32,767 signals to a running SPAWN takes them from those it
waits for, and to a WAIT node adds them to the count in its record at [191:160], or, beyond the expected number, stops the
context with 0x36 and the node's index; signals to one that submission, which clears that count, has not set yet stand beside it. The node is over exactly when its record counts the expected number. Which free context is
taken is the model's free choice (log entry 2); so is it that signals which the walker's AGE cannot store yet are held beside
the record until it can (DEDUCED, log entry 36). -/
def Obligations.GraphInstructions : Prop :=
  (∀ (s : State) (i : Instr) (a d : BitVec 5) (n : Dword) (len : Nat),
    ((∃ f : FormA, i = .gnodeA f ∧ Holds s f.gn f.guard ∧ a = f.a ∧ d = f.d ∧ n = s.core.reg f.b ∧ len = 4) ∨
     (∃ f : FormB, i = .gnodeB f ∧ Holds s f.gn f.guard ∧ a = f.a ∧ d = f.d ∧ n = f.imm16.signExtend 64 ∧ len = 8)) →
    let va := (s.core.reg a).toNat
    let die := dieOf s.cur
    va % 64 = 0 → va < 2 ^ 52 → 1 ≤ n.toInt → n.toInt ≤ 65535 →
    ((∀ k, k < 64 → (mapGet s.contexts (die * 64 + k)).isSome = true) → exec i s = done s (s.core.setReg d (-1)) len) ∧
    ((∃ k, k < 64 ∧ mapGet s.contexts (die * 64 + k) = none) →
      ∃ k, k < 64 ∧ mapGet s.contexts (die * 64 + k) = none ∧
        let t := ({ s with tick := s.tick + 1 } : State).setCtx (die * 64 + k)
          { fn := fnOf s.core.fn, user := s.core.user, home := s.cur, va := va, n := n.toNat, started := 0, kinds := [], nodes := []
            ready := [], stopped := none, regions := [], spawns := [], received := [], flags := 0, age := Age.reset, act := 0, trail := []
            passed := 0 }
        exec i s = done t (t.core.setReg d (BitVec.ofNat 64 k)) len)) ∧
  (∀ (s : State) (i : Instr) (h n : Dword) (len : Nat),
    ((∃ f : FormA, i = .gsigA f ∧ Holds s f.gn f.guard ∧ h = s.core.reg f.a ∧ n = 1 ∧ len = 4) ∨
     (∃ f : FormB, i = .gsigB f ∧ Holds s f.gn f.guard ∧ h = s.core.reg f.a ∧ n = f.imm16.signExtend 64 ∧ len = 8)) →
    1 ≤ n.toInt → n.toInt ≤ 32767 → s.handleOk (deviceOf s.cur) (fnOf s.core.fn) h.toNat = true → ∀ x,
    let c := (deviceOf s.cur * 2 + h.toNat / 2 ^ 22 % 2) * 64 + h.toNat % 64
    let j := h.toNat / 2 ^ 6 % 2 ^ 16
    s.kindOf (s.ctx c) j = some kSpawn → mapGet (s.ctx c).spawns j = some x → n.toNat ≤ x.left → (s.ctx c).node j = .running →
    let t := s.setCtx c { s.ctx c with spawns := mapSet (s.ctx c).spawns j { x with left := x.left - n.toNat } }
    exec i s = done t t.core len) ∧
  (∀ (s u v : State) (i : Instr) (h n : Dword) (len : Nat) (pas qas : List Nat),
    ((∃ f : FormA, i = .gsigA f ∧ Holds s f.gn f.guard ∧ h = s.core.reg f.a ∧ n = 1 ∧ len = 4) ∨
     (∃ f : FormB, i = .gsigB f ∧ Holds s f.gn f.guard ∧ h = s.core.reg f.a ∧ n = f.imm16.signExtend 64 ∧ len = 8)) →
    1 ≤ n.toInt → n.toInt ≤ 32767 → s.handleOk (deviceOf s.cur) (fnOf s.core.fn) h.toNat = true →
    let c := (deviceOf s.cur * 2 + h.toNat / 2 ^ 22 % 2) * 64 + h.toNat % 64
    let j := h.toNat / 2 ^ 6 % 2 ^ 16
    let g := s.ctx c
    let came := s.setCtx c { g with received := mapSet g.received j (g.pending j + n.toNat) }
    (s.kindOf g j ≠ some kSpawn → g.started ≤ j → exec i s = done came came.core len) ∧
    (s.kindOf g j = some kWait → j < g.started → g.age.stopped = none →
    came.walkerReach c j 0 (g.nodeVa j) 64 = .ok (u, pas) →
    let record := u.numOf pas
    let count := Machine.bits record 191 160 + g.pending j + n.toNat
    (Machine.bits record 159 128 < count →
      let t := u.contextFault c j 0x36
      exec i s = done t t.core len) ∧
    (count ≤ Machine.bits record 159 128 → u.walkerReach c j 1 (g.nodeVa j + 20) 4 = .ok (v, qas) →
      let w := v.writeCells (qas.zip (toBytes count 4))
      let t := w.setCtx c { w.ctx c with received := mapErase (w.ctx c).received j }
      exec i s = done t t.core len))) ∧
  (∀ (s : State) (c j r : Nat), nodeKind r = kWait →
    let n := Machine.bits r 191 160 + (s.ctx c).pending j
    (n < Machine.bits r 159 128 → s.nodeOver c j r = none) ∧
    (Machine.bits r 159 128 < n → s.nodeOver c j r = some (.error (.context s 0x36 j))) ∧
    (∀ t, n = Machine.bits r 159 128 → s.putNode c j 20 4 n = .ok t →
      s.nodeOver c j r = some (.ok (t.setCtx c { t.ctx c with received := mapErase (t.ctx c).received j }))))

/-- R282, R283, R287 to R291: an act of a walker context that may act and has no other act broken off, on the node record that its address generator reads as r,
leaving the machine as t. The earliest READY node that is no END runs: a WAIT or a SPAWN then waits for its signals, a COPY,
LAYOUT or TIER node adds its command, and a COND takes its first or its last two successors. A running node whose work is over
finishes, an END node writes its value, posts and frees its context, and a stopped context with nothing left is freed. The
tasks of a SPAWN are made from its offsets and pushed, one a step, onto the deque with the fewest records; they cut each
group's range into pieces of its count T, the last one shorter: in order, none empty, and together every index once. -/
def Obligations.GraphWalker : Prop :=
  (∀ (s : State) (c i r : Nat) (t u v : State), s.ctxMay c = true →
     let g := s.ctx c
     let bad := t.nodeBad c r
     let taken := t.setCtx c { t.ctx c with ready := (t.ctx c).ready.filter (· ≠ i), nodes := mapSet (t.ctx c).nodes i .running }
     (g.free actRun = true → g.n ≤ g.started → State.pickNode c g.ready s = .ok (t, some (i, r)) → bad = false →
       (nodeKind r = kWait → exec (.graphNodeRun c) s = .next (taken.endAct c)) ∧
       (nodeKind r = kSpawn → exec (.graphNodeRun c) s =
         .next ((taken.setCtx c { taken.ctx c with spawns := mapErase (t.ctx c).spawns i }).endAct c)) ∧
       (∀ x, nodeKind r = kCopy ∨ nodeKind r = kLayout → taken.nodeCommand (t.ctx c) r = some x →
         exec (.graphNodeRun c) s = .next ((taken.addNodeCmd c i x .queued 0).endAct c)) ∧
       (nodeKind r = kTier → exec (.graphNodeRun c) s =
         .next ((taken.addNodeCmd c i (tierCmd (t.ctx c) r) .running (dieOf (t.ctx c).home * 16 + 10)).endAct c)) ∧
       (∀ b, nodeKind r = kCond → taken.predicate c i r = .ok (u, b) → u.finishNode c i r (if b then [0, 1] else [2, 3]) = .ok v →
         exec (.graphNodeRun c) s = .next (v.endAct c))) ∧
     (g.free (actFinish i) = true → g.node i = .running → s.readNode c i = .ok (t, r) → t.nodeOver c i r = some (.ok u) →
       u.finishNode c i r [0, 1, 2, 3] = .ok v → exec (.graphNodeFinish c i) s = .next (v.endAct c)) ∧
     (g.free actEnd = true → g.ready = [i] → (∀ x ∈ g.nodes, x.2 ≠ .running) → s.readNode c i = .ok (t, r) → nodeKind r = kEnd → bad = false →
       t.walkerWrite c i (Machine.bits r 191 128) 8 (Machine.bits r 255 192) = .ok u →
       exec (.endNode c) s = .next ((if Machine.bits r 256 256 = 1 then u.post g.home 0x30 (c % 64) i else u).freeCtx c)) ∧
     (g.free (actSpawn i) = true → g.node i = .running → mapGet g.spawns i = none → s.readNode c i = .ok (t, r) → nodeKind r = kSpawn →
       t.readSpawn c i r = .ok u → exec (.spawnRead c i) s = .next (u.endAct c)) ∧
     (∀ (s : State), s.ctxLives c = true → let g := s.ctx c
       ∀ x k rest d, mapGet g.spawns i = some x → x.tasks = k :: rest → s.leastLoaded (s.taskTiles g) = some d →
       (s.coreOf d).deque.length < 256 →
       exec (.spawnTaskPush c i) s = .next ((s.setCore d { s.coreOf d with deque := (s.coreOf d).deque ++ [k] }).setCtx c
         { g with spawns := mapSet g.spawns i { x with tasks := rest } })) ∧
     (∀ (s : State) (g : GraphCtx), mapGet s.contexts c = some g → g.stopped.isSome = true → s.mayRun (c / 128) g.fn = true →
       (∀ x ∈ s.cmds, x.2.stage = .done ∨ ∀ j, x.2.graph ≠ some (c, j)) → (∀ x ∈ g.regions, x.2 ≠ .live) →
       exec (.contextFree c) s = .next (s.freeCtx c)) ∧
     (∀ (s : State), mapGet (s.freeCtx c).contexts c = none ∧ ∀ d, d ≠ c → mapGet (s.freeCtx c).contexts d = mapGet s.contexts d)) ∧
  (∀ (r handle group lo hi : Nat), 0 < Machine.bits r 255 240 → lo ≤ hi →
     let t := Machine.bits r 255 240
     (groupTasks r handle group lo hi).length = (hi - lo + t - 1) / t ∧
     ∀ j, j < (hi - lo + t - 1) / t →
       let start := lo + t * j
       let count := min t (hi - start)
       (groupTasks r handle group lo hi)[j]? = some (taskRecord r handle group start count) ∧ 1 ≤ count ∧
       (j + 1 < (hi - lo + t - 1) / t → start + count = lo + t * (j + 1)) ∧
       (j + 1 = (hi - lo + t - 1) / t → start + count = hi))

/-! ### Group sends -/

namespace Sys2Proof.Rules

/-- A rise at the root: the sends parked there restart, behind those that wait to restart already (R373). -/
abbrev risen (g : Group) : Group := { g with restarts := g.restarts ++ g.parked.filter fun k => !g.restarts.contains k }

/-- An outcome is that of an instruction at once, or at the end of a wait in which nothing has changed. -/
def Comes (s : State) (i : Instr) (w : Wait) (act : Nat → Instr) (e : Host.Outcome State Fault Refusal) : Prop :=
  e = exec i s ∨ ∃ (r : State) (t : Nat), s = r.rerun t ∧ Waits r t w ∧ e = exec (act t) r

/-- The checks of R381 on n bytes at ea. -/
abbrev PayloadOk (c : Core) (ea n : Nat) : Prop := ea % 64 = 0 ∧ ea + n ≤ 0x300000 ∧ (c.m = 0 → 0x1000 ≤ ea)

/-- The group is installed on the core's device for its function (R371). -/
abbrev Installed (s : State) (n : Nat) (g : Group) : Prop := s.groupOn (deviceOf s.cur) (fnOf s.core.fn) n = some g

/-- The second source of a form A or B instruction of the groups. -/
abbrev Forms (s : State) (mkA : FormA → Instr) (mkB : FormB → Instr) (i : Instr) (sub : BitVec 3) (a d : BitVec 5) (x : Nat)
    (len : Nat) : Prop :=
  (∃ f : FormA, i = mkA f ∧ Holds s f.gn f.guard ∧ sub = f.sub ∧ a = f.a ∧ d = f.d ∧ x = (s.core.reg f.b).toNat ∧ len = 4) ∨
  (∃ f : FormB, i = mkB f ∧ Holds s f.gn f.guard ∧ sub = f.sub ∧ a = f.a ∧ d = f.d ∧ x = (f.imm16.signExtend 64).toNat ∧ len = 8)

end Sys2Proof.Rules

/-- R375, R378, R381, R388: a `gsend` or `gsendo` to an installed group, with its payload accessible and room for its send,
drains the core, gives the send a handle with the core's next sequence number, and writes that number to g[d]; a `gsend.x`
does so for the groups that its scores and the bias copy choose. A send that has waited for room comes to the same. -/
def Obligations.GroupSends : Prop :=
  (∀ (s : State) (i : Instr) (sub : BitVec 3) (a d : BitVec 5) (x len : Nat) (ordered : Bool) (g : Group)
      (e : Host.Outcome State Fault Refusal),
    ((Forms s .gsendA .gsendB i sub a d x len ∧ ordered = false) ∨ (Forms s .gsendoA .gsendoB i sub a d x len ∧ ordered = true)) →
    Comes s i (.gsend i) .gsendResume e → x < 2 ^ 9 → Installed s (x % 256) g →
    let ea := (s.core.reg a).toNat
    let fn := fnOf s.core.fn
    PayloadOk s.core ea 64 → s.loadAbsent ea 64 = false → s.installing fn (x % 256) = false →
    (s.sendsOf s.cur fn).length < 64 →
    let u := s.drainCore s.cur 4
    let q := s.core.sendSeq
    let send : Send :=
      { handle := q.toNat + s.cur % 160 * 2 ^ 16 + s.cur / 160 * 2 ^ 24 + x % 256 * 2 ^ 32 + (if ordered then 2 ^ 40 else 0)
        sender := s.cur, fn := fn, group := x % 256, set := none, ordered := ordered, ask := x.testBit 8
        payload := s.readLocal ea 64, state := .issued, tried := [], batch := 0 }
    e = done { u with sends := u.sends ++ [send] } ({ u.core with sendSeq := q + 1 }.setReg d (q.setWidth 64)) len) ∧
  (∀ (s : State) (i : Instr) (sub : BitVec 3) (a d : BitVec 5) (x len : Nat) (y : ExpertSet) (z : ExpertCore)
      (e : Host.Outcome State Fault Refusal),
    Forms s .gsendXA .gsendXB i sub a d x len → Comes s i (.gsend i) .gsendResume e → x < 2 ^ 9 → x / 2 ^ 4 % 16 = 0 →
    z = s.core.expert (x % 16) →
    let ea := (s.core.reg a).toNat
    let fn := fnOf s.core.fn
    let n := 8 + 4 * y.groups * y.experts
    s.expertSet (deviceOf s.cur) fn (x % 16) = some y →
    (∀ j, j < y.groups → (s.groupOn (deviceOf s.cur) fn (y.gbase + j)).isSome = true ∧ s.installing fn (y.gbase + j) = false) →
    PayloadOk s.core ea n → s.loadAbsent ea n = false → (s.sendsOf s.cur fn).length + min y.kg y.groups ≤ 64 →
    let bs := s.readLocal ea n
    let v := biasedScores (wordsAt bs 8 (y.groups * y.experts)) z.bias
    let out := (chooseGroups y v.1).map fun g => (y.gbase + g, expertPayload (bs.take 8) (scoreRow y v.1 g))
    let u := State.leave (some (x % 16)) false (x.testBit 8) z.batch
      ((s.withCore { s.core with flags := s.core.flags ||| v.2 }).drainCore s.cur 4) out
    e = done u (u.core.setReg d (s.core.sendSeq.setWidth 64)) len)

/-- R372, R376, R382 to R385, R390, R391: `grecv` takes the oldest message or gives −1, `gready` and `gunready` change the
core's readiness by what its queue admits, `gack` sends an acknowledgement of a message received, `gstat` reads, installs and
removes, closes a micro-batch, and `xmask` reads the members not struck, or, with `.exp`, the experts on their dies by their masks. A `gstat.drop` that has waited for
the group's sends comes to the same. -/
def Obligations.GroupInstructions : Prop :=
  (∀ (s : State) (i : Instr) (sub : BitVec 3) (a d : BitVec 5) (x len : Nat), Forms s .grecvA .grecvB i sub a d x len →
    x < 2 ^ 9 → (x.testBit 8 = false → ∃ g, Installed s (x % 256) g) →
    let c := s.core
    let ea := (c.reg a).toNat
    PayloadOk c ea 64 →
    ((∀ m ∈ c.received, x.testBit 8 = false ∧ m.group ≠ x % 256) → exec i s = done s (c.setReg d (-1)) len) ∧
    (∀ l m r, c.received = l ++ m :: r → (∀ k ∈ l, x.testBit 8 = false ∧ k.group ≠ x % 256 ∧ k ≠ m) →
      (x.testBit 8 = true ∨ m.group = x % 256) →
      let t := s.storeLocal ea m.payload
      let u := (t.withCore { t.core with received := l ++ r, toAck := m.handle :: c.toAck }).refreshCore s.cur 4
      exec i s = done u (u.core.setReg d (BitVec.ofNat 64 m.handle)) len)) ∧
  (∀ (s : State) (i : Instr) (sub : BitVec 3) (a d : BitVec 5) (x len : Nat) (more : Bool) (g : Group) (m : Nat),
    ((Forms s .greadyA .greadyB i sub a d x len ∧ more = true) ∨ (Forms s .gunreadyA .gunreadyB i sub a d x len ∧ more = false)) →
    x < 2 ^ 8 → (s.core.reg a).toNat < 2 ^ 32 → Installed s x g → g.memberOf s.cur = some m →
    let c := s.core
    let n := (c.reg a).toNat
    let r := c.readiness x
    let k := if more then min n (64 - (c.ready.foldl (fun n r => n + r.2) c.received.length)) else min n r
    let t := (s.withCore { c with ready := mapSet c.ready x (if more then r + k else r - k) }).tellReady
      (groupKey (fnOf c.fn) x) m g (if more then (k : Int) else -(k : Int))
    exec i s = done t (t.core.setReg d (BitVec.ofNat 64 k)) len) ∧
  (∀ (s : State) (f : FormA), Holds s f.gn f.guard →
    let h := (s.core.reg f.a).toNat
    (∀ x, s.sends.find? (fun x => x.handle = h && x.fn = fnOf s.core.fn) = some x → x.set = none → h ∈ s.core.toAck →
      let t := (s.drainCore s.cur 4).notify
        { send := x.key, ack := true, tile := s.cur, sender := x.sender, set := none, batch := x.batch, index := 0, chosen := 0 }
      exec (.gack f) s = done t t.core 4) ∧
    (∀ g, f.sub = 0 → h < 2 ^ 8 → Installed s h g → exec (.xmask f) s = done s (s.core.setReg f.d
      (BitVec.ofNat 64 ((g.records.filter g.isMember).foldl (fun n i => n ||| 2 ^ i) 0))) 4) ∧
    (∀ y g, f.sub ≠ 0 → h < 2 ^ 14 → h / 2 ^ 4 % 16 = 0 → s.expertSet (deviceOf s.cur) (fnOf s.core.fn) (h % 16) = some y →
      h / 2 ^ 8 < y.groups → Installed s (y.gbase + h / 2 ^ 8) g →
      let masks := (g.records.filter g.isMember).map fun i =>
        match s.expertSet (g.dev[i]?.getD 0) (fnOf s.core.fn) (h % 16) with
        | some z => z.masks[2 * (h / 2 ^ 8) + g.tile[i]?.getD 0 / 80]?.getD 0
        | none => 0
      exec (.xmask f) s = done s (s.core.setReg f.d ((masks.foldl (fun m x => m ||| x) 0).setWidth 64)) 4)) ∧
  (∀ (s : State) (i : Instr) (sub : BitVec 3) (a d : BitVec 5) (x len : Nat), Forms s .gstatA .gstatB i sub a d x len →
    let c := s.core
    let fn := fnOf c.fn
    (∀ g, x < 2 ^ 8 → Installed s x g →
      (sub = 0 → exec i s = done s (c.setReg d (BitVec.ofNat 64 (if (g.memberOf s.cur).isSome then c.readiness x else 0))) len) ∧
      (sub = 1 → exec i s = done s (c.setReg d (BitVec.ofNat 64 (c.received.filter fun m => m.group = x).length)) len) ∧
      (sub = 2 → let u := s.refreshCore s.cur 4
        exec i s = done u (u.core.setReg d (BitVec.ofNat 64 ((s.sendsOf s.cur fn).filter fun y => y.group = x).length)) len) ∧
      (sub = 3 → exec i s = done s (c.setReg d (BitVec.ofNat 64 g.parked.length)) len) ∧
      (∀ e, sub = 5 → c.m ≠ 0 → s.groupBusy fn x = false → Comes s i (.install i) .groupInstall e →
        e = done (s.installGroup fn x none) (s.installGroup fn x none).core len)) ∧
    (∀ g, sub = 4 → c.m ≠ 0 → x < 2 ^ 8 → s.groupBusy fn x = false →
      let ea := (c.reg a).toNat
      let n := 64 + 8 * s.loadLocal ea 1
      PayloadOk c ea n → s.loadAbsent ea n = false → s.parseGroup fn (deviceOf s.cur) (s.readLocal ea n) = some g →
      exec i s = done (s.installGroup fn x (some g)) (s.installGroup fn x (some g)).core len) ∧
    (∀ y, sub = 6 → x < 2 ^ 4 → s.expertSet (deviceOf s.cur) fn x = some y →
      let z := c.expert x
      let y' := mapSet c.experts x { z with batch := z.batch + 1, closed := z.closed ++ [z.batch] }
      exec i s = done s ({ c with experts := y' }.setReg d (BitVec.ofNat 64 z.batch)) len))

/-- R372 to R377, R379, R390: the acts of a send x, by its key k, in its group's tree g. It comes to the root; an ordered one
waits for those before it; where it stands it is taken by a member with readiness, goes down to the child of largest count,
bounces to the parent, or parks; parked sends restart after a rise, and a park that lasts too long removes the send. A readiness
change moves one record up; an acknowledgement that counts removes its send and posts GACKED where it was asked for; a notice
of a plain send is used up; a strike drops the sends of struck senders; the bias unit steps the biases of a closed batch. That
strikes are taken one by one from a list, that a restarted send comes to the root, that a member which a save has taken away
takes a send once it is back, and which copy engine the bias unit uses are the model's readings (log entry 40). -/
def Obligations.GroupSteering : Prop :=
  (∀ (s : State) (k : Nat) (x : Send) (g : Group), s.send k = some x →
    let key := groupKey x.fn x.group
    mapGet s.groups key = some g →
    let down (i : Nat) : Send := { x with state := .at i, tried := mapSet x.tried i [] }
    (x.state = .issued → s.noPath (deviceOf x.sender) (deviceOf (g.place g.root)) = false →
      exec (.sendAtRoot k) s = .next (s.setSend (if x.ordered then { x with state := .orderWait } else down g.root))) ∧
    (x.state = .orderWait → (∀ y ∈ s.sends.takeWhile (fun y => y.key ≠ k),
        ¬ (y.ordered = true ∧ y.sender = x.sender ∧ y.fn = x.fn ∧ y.group = x.group)) →
      exec (.orderwaitRelease k) s = .next (s.setSend (down g.root))) ∧
    (k ∈ g.restarts → exec (.sendSteer k) s = .next s) ∧
    (∀ i, x.state = .at i → k ∉ g.restarts →
      let t := g.place i
      let c := s.coreOf t
      let p := g.up i
      let here := s.present t x.fn = true ∧ mapGet s.away (homeKey x.fn t) = none
      let passed := g.isMember i = false ∨ s.readinessOf x.fn x.group t = 0
      (here → s.readinessOf x.fn x.group t = c.readiness x.group) ∧ (¬ passed → ¬ here → exec (.sendSteer k) s = .next s) ∧
      (g.isMember i = true → here → 0 < c.readiness x.group → x.set = none →
        let m : Message := { handle := x.handle, group := x.group, payload := x.payload }
        let u := (s.setCore t { c with received := c.received ++ [m]
                                       ready := mapSet c.ready x.group (c.readiness x.group - 1) }).setSend { x with state := .taken i }
        exec (.sendSteer k) s = .next ((u.post t 0x50 (x.sender % 160) (x.handle % 2 ^ 16 + x.group * 2 ^ 16)).notify
          { send := x.key, ack := false, tile := t, sender := x.sender, set := none, batch := x.batch, index := 0, chosen := 0 })) ∧
      (∀ d, passed → g.choose i (x.triedAt i) = some d → s.noPath (deviceOf t) (deviceOf (g.place d)) = false →
        exec (.sendSteer k) s = .next ((s.setGroup key (g.addCount d (-1))).setSend (down d))) ∧
      (passed → g.choose i (x.triedAt i) = none → i ≠ g.root → s.noPath (deviceOf t) (deviceOf (g.place p)) = false →
        let g' := if p = g.root then risen (g.addCount i 1) else g.addCount i 1
        exec (.sendSteer k) s =
          .next ((s.setGroup key g').setSend { x with state := .at p, tried := mapSet x.tried p (i :: x.triedAt p) })) ∧
      (passed → g.choose i (x.triedAt i) = none → i = g.root → exec (.sendSteer k) s =
        .next ((s.setGroup key { g with parked := g.parked ++ [x.key] }).setSend
          { x with state := .parked (s.device (g.dev[g.root]?.getD 0)).micros }))) ∧
    (x.ordered = true → (∃ y ∈ s.sends.takeWhile (fun y => y.key ≠ k),
        y.ordered = true ∧ y.sender = x.sender ∧ y.fn = x.fn ∧ y.group = x.group) →
      s.restart key k = s.setSend { x with state := .orderWait, tried := [] }) ∧
    exec (.parkedRestart key) s = .next (g.restarts.foldl (fun s k => s.restart key k)
      (s.setGroup key { g with parked := g.parked.filter fun k => !g.restarts.contains k, restarts := [] })) ∧
    (∀ since, x.state = .parked since → k ∉ g.restarts → since + g.plimit ≤ (s.device (g.dev[g.root]?.getD 0)).micros →
      s.present x.sender x.fn = true → exec (.groupParkTimeout k) s =
        .next (((s.setGroup key { g with parked := g.parked.filter (· ≠ k) }).dropSend k).impreciseTo x.fn x.sender 0x52 x.handle)) ∧
    (∀ n m j, mapGet s.notices n = some m → m.ack = true → m.send = k → x.state = .taken j → s.present x.sender x.fn = true →
      s.ackCounts x m.tile = true →
      let gone : State := { s with notices := mapErase s.notices n }
      let c := gone.homeCore x.fn m.tile
      let u := (gone.setHomeCore x.fn m.tile { c with toAck := c.toAck.filter (· ≠ x.handle) }).dropSend x.key
      exec (.ackArrive n) s = .next (if x.ask then
        u.postHome x.fn x.sender 0x51 (g.place j % 160) (x.handle % 2 ^ 16 + x.group * 2 ^ 16) else u))) ∧
  (∀ (s : State) (n : Nat) (m : ReadyMsg) (g : Group), mapGet s.readyMsgs n = some m → mapGet s.groups m.group = some g →
    s.readyBehind n m = false →
    let p := g.up m.node
    let g' := g.addCount m.node m.amount
    (p = g.root → exec (.readinessArrive n) s = .next (({ s with readyMsgs := mapErase s.readyMsgs n } : State).setGroup m.group
      (if 0 < m.amount then risen g' else g'))) ∧
    (p ≠ g.root → exec (.readinessArrive n) s =
      .next (({ s with readyMsgs := mapSet s.readyMsgs n { m with node := p } } : State).setGroup m.group g'))) ∧
  (∀ (s : State) (n : Nat) (m : Notice), mapGet s.notices n = some m → m.ack = false → m.set = none →
    s.present m.sender (m.send / 2 ^ 64) = true → exec (.takenNotice n) s = .next { s with notices := mapErase s.notices n }) ∧
  (∀ (s : State) (dev die fn : Nat), (dev, die, fn) ∈ s.strikes → ∃ t, exec (.struck dev die fn) s = .next t ∧
    t.strikes = s.strikes.erase (dev, die, fn) ∧ t.mem = s.mem ∧ ∀ x ∈ t.sends, struckTile dev die fn x.sender x.fn = false) ∧
  (∀ (s u : State) (t set n b : Nat) (r pas : List Nat) (e : ExpertCore) (x : ExpertSet),
    let fn := fnOf (s.coreOf t).fn
    let d := dieOf t
    mapGet (s.coreOf t).experts set = some e → s.expertSet (deviceOf t) fn set = some x → e.closed = b :: r →
    s.biasEngine d e = some n → s.present t fn = true → s.batchOver t fn set b = true → (s.age (copyAge d n)).stopped = none →
    State.reach (copyAge d n) d fn t 1 (4 * (x.groups * x.experts)) s (x.bias : Int) = .ok u pas →
    let old (i : Nat) : Word := BitVec.ofNat 32 (u.numOf ((pas.drop (4 * i)).take 4))
    let count (i : Nat) : Nat := (mapGet e.counts i).getD 0
    let all := List.range (x.groups * x.experts)
    let new := all.flatMap fun i => toBytes (stepBias x (all.foldl (fun n i => n + count i) 0) (count i) (old i)).toNat 4
    let v := u.writeCells (pas.zip new)
    let e' := { e with closed := r, stopped := none, counts := [] }
    exec (.biased t set) s =
      .next ((v.setCore t { v.coreOf t with experts := mapSet (v.coreOf t).experts set e' }).post t 0x52 set (b % 2 ^ 32))) ∧
  (∀ (x : ExpertSet) (total count : Nat) (b : Word), stepBias x total count b =
    if count * x.groups * x.experts < total then BitVec.ofNat 32 (rFadd rmRNE false 1 b x.step 0).bits
    else if total < count * x.groups * x.experts then BitVec.ofNat 32 (rFsub rmRNE false 1 b x.step 0).bits else b)

/-! ### Draft memory -/

namespace Sys2Proof.Rules

/-- The slot is one of the core's function on the core's die (R293). -/
abbrev Drafts (s : State) (n : Nat) : Prop := s.draftOk (dieOf s.cur) (fnOf s.core.fn) n = true

/-- The words of a draft area are accessible (R302, R303). -/
abbrev DraftArea (c : Core) (ea n : Nat) : Prop := ea + 4 * n ≤ 0x300000 ∧ (c.m = 0 → 0x1000 ≤ ea)

/-- The outcome is that of a draft instruction at once or at the end of its wait on a loading slot (R309). -/
abbrev DraftComes (s : State) (i : Instr) (e : Host.Outcome State Fault Refusal) : Prop := Comes s i (.draft i) .draftWaitEnd e

end Sys2Proof.Rules

/-- R293 to R309: the draft instructions complete on a slot that is not loading, with arguments in their ranges: `sdq` gives the
match of the window and stores the tokens behind it, `sdacc` appends tokens, `sdcap` sets cap and quota, `sdrst` clears slots,
`sdsave` and `sdload` start a command; one that has waited for a load comes to the same, and a load whose image is right is
installed in one step. After a draft step the slot holds at most its cap of the newest tokens; a query gives the longest run,
up to 255 tokens, that ends the window and ends at an earlier position too, the latest such position first; and the words of
a saved slot, in the 64-byte lines in which `sdsave` stores them, are the image that restores it, window and all. -/
def Obligations.DraftInstructions : Prop :=
  ((∀ (s : State) (f : FormA) (e : Host.Outcome State Fault Refusal), Holds s f.gn f.guard →
     let c := s.core
     let n := (c.reg f.a).toNat
     let x := (c.reg f.b).toNat
     let ea := 4 * (x % 2 ^ 20)
     let g := dieOf s.cur
     let d := s.die g
     let y := d.draftSlot n
     Drafts s n → y.loading = false →
     (DraftComes s (.sdq f) e → x < 2 ^ 31 → x / 2 ^ 26 % 32 ≠ 0 → x / 2 ^ 20 % 64 ≤ 32 →
       (x / 2 ^ 20 % 64 ≠ 0 → DraftArea c ea (x / 2 ^ 20 % 64)) →
       let q := draftQuery y.window
       let out := if x / 2 ^ 26 % 32 ≤ q.1 then (y.window.drop (q.2.getD 0 + 1)).take (x / 2 ^ 20 % 64) else []
       let t := if out = [] then s else s.storeLocal ea (out.flatMap fun t => toBytes t.toNat 4)
       e = done t (t.core.setReg f.d
         (BitVec.ofNat 64 (q.1 + 2 ^ 8 * out.length + 2 ^ 16 * (if 0 < q.1 then q.2.getD 0xFFFFF else 0xFFFFF)))) 4) ∧
     (DraftComes s (.sdacc f) e → x < 2 ^ 27 → 1 ≤ x / 2 ^ 20 % 128 → x / 2 ^ 20 % 128 ≤ 64 → DraftArea c ea (x / 2 ^ 20 % 128) →
       s.loadAbsent ea (4 * (x / 2 ^ 20 % 128)) = false →
       let ts := (List.range (x / 2 ^ 20 % 128)).map fun j => s.loadLocal (ea + 4 * j) 4
       (∀ t ∈ ts, t < 2 ^ 24) →
       let d' := d.draftStep n
         { y with window := y.window ++ ts.map (BitVec.ofNat 24), total := y.total + BitVec.ofNat 64 ts.length }
       e = done (s.setDie g d') ((s.setDie g d').core.setReg f.d (BitVec.ofNat 64 (d'.draftSlot n).window.length)) 4) ∧
     (∀ bar, (if f.sub.getLsbD 0 then bar = some (c.reg f.d) ∧ BarrierOk s (c.reg f.d) else bar = none) → x % 64 = 0 → x < 2 ^ 52 →
       let start (kind : CmdKind) (words : List Nat) : State :=
         let u := s.drainCore s.cur 4
         let cmd : Cmd := { (default : Cmd) with
           kind := kind, tile := s.cur, fn := fnOf c.fn, user := c.user, pc := c.pc, regs := [(1, c.reg f.b)], stage := .queued
           bar := bar, words := words, gen := 1 }
         { u with cmds := mapSet u.cmds u.nextCmd cmd, nextCmd := u.nextCmd + 1 }
       (DraftComes s (.sdsave f) e → e = done (start (.sdsave g n) (draftWords y)) (start (.sdsave g n) (draftWords y)).core 4) ∧
       (DraftComes s (.sdload f) e →
         let u := start (.sdload g n) []
         let t := u.setDie g ((u.die g).setDraft n { y with loading := true })
         e = done t t.core 4))) ∧
   (∀ (s : State) (i : Instr) (n cap quota len : Nat) (e : Host.Outcome State Fault Refusal),
     ((∃ f : FormA, i = .sdcapA f ∧ Holds s f.gn f.guard ∧ n = (s.core.reg f.a).toNat ∧
         (s.core.reg f.b).toNat = cap + quota * 2 ^ 32 ∧ cap < 2 ^ 21 ∧ quota < 2 ^ 21 ∧ len = 4) ∨
      (∃ f : FormB, i = .sdcapB f ∧ Holds s f.gn f.guard ∧ n = (s.core.reg f.a).toNat ∧ 0 ≤ f.imm16.toInt ∧
         cap = f.imm16.toNat ∧ quota = cap ∧ len = 8)) →
     let d := s.die (dieOf s.cur)
     let t := s.setDie (dieOf s.cur) (d.draftStep n { d.draftSlot n with cap := cap, quota := quota })
     Drafts s n → cap ≤ 2 ^ 20 → quota ≤ cap → d.quotasBut n + quota ≤ 2 ^ 26 → (d.draftSlot n).loading = false →
     DraftComes s i e → e = done t t.core len) ∧
   (∀ (s : State) (i : Instr) (n k len : Nat) (all : Bool) (e : Host.Outcome State Fault Refusal),
     ((∃ f : FormA, i = .sdrstA f ∧ Holds s f.gn f.guard ∧ all = f.sub.getLsbD 0 ∧ n = (s.core.reg f.a).toNat ∧
         k = (s.core.reg f.b).toNat ∧ len = 4) ∨
      (∃ f : FormB, i = .sdrstB f ∧ Holds s f.gn f.guard ∧ all = f.sub.getLsbD 0 ∧ n = (s.core.reg f.a).toNat ∧
         k = (f.imm16.signExtend 64).toNat ∧ len = 8)) →
     let d := s.die (dieOf s.cur)
     let clear (x : DraftSlot) : DraftSlot :=
       { x with window := [], total := 0, dropped := 0, cap := if all then 0 else x.cap, quota := if all then 0 else x.quota }
     let t := s.setDie (dieOf s.cur)
       { d with draft := d.draft.map fun x => if n ≤ x.1 ∧ x.1 < n + k then (x.1, clear x.2) else x }
     1 ≤ k → k ≤ 8192 → (∀ j, j < k → Drafts s (n + j)) → (∀ x ∈ d.draft, n ≤ x.1 → x.1 < n + k → x.2.loading = false) →
     DraftComes s i e → e = done t t.core len) ∧
   (∀ (s : State) (n g slot h : Nat) (c : Cmd), mapGet s.cmds n = some c → c.kind = .sdload g slot → mapGet c.staged 0 = some h →
     c.stage = .running → c.staged.length = loadLines h → s.cmdMay c = true → headerBad h = false →
     let lines := (c.staged.drop 1).map Prod.snd
     tokensBad (h / 2 ^ 32 % 2 ^ 21) lines = false → (s.die g).quotasBut slot + h / 2 ^ 96 % 2 ^ 21 ≤ 2 ^ 26 →
     exec (.sdloadInstall n) s = .next ((s.setDie g ((s.die g).setDraft slot (draftImage h lines)).evict).setCmd n
       { c with stage := .complete, bytes := 64 * loadLines h }))) ∧
  ((∀ (x : DraftSlot), x.drop.window = x.window.drop (x.window.length - x.cap) ∧ x.drop.window.length ≤ x.cap ∧
     x.drop.dropped = x.dropped + BitVec.ofNat 64 (x.window.length - x.cap) ∧ x.drop.total = x.total) ∧
   (∀ (w : List (BitVec 24)),
     let run (p : Nat) := commonRun 255 (w.take (p + 1)).reverse w.reverse
     (∀ p, p + 1 < w.length → run p ≤ (draftQuery w).1) ∧
     (0 < (draftQuery w).1 → ∃ q, (draftQuery w).2 = some q ∧ q + 1 < w.length ∧ run q = (draftQuery w).1 ∧
       ∀ p, p + 1 < w.length → run p = (draftQuery w).1 → p ≤ q) ∧
     ((draftQuery w).1 = 0 → (draftQuery w).2 = none)) ∧
   (∀ x : DraftSlot, x.window.length ≤ x.cap → x.cap ≤ 2 ^ 20 → x.quota ≤ x.cap →
     let h := draftHeader x
     headerBad h = false ∧ h / 2 ^ 32 % 2 ^ 21 = x.window.length ∧
     (draftImage h []).cap = x.cap ∧ (draftImage h []).quota = x.quota ∧ (draftImage h []).total = x.total ∧
     (draftImage h []).dropped = x.dropped ∧
     (let line (k : Nat) : Nat := ofBytes (padTo 64 ((((draftWords x).drop (16 * k)).take 16).flatMap fun w => toBytes w 4))
      let lines := (List.range ((x.window.length + 15) / 16)).map fun k => line (k + 1)
      line 0 = h ∧ tokensBad x.window.length lines = false ∧ draftImage h lines = { x with loading := false })))

/-! ### Row 0xA of the core -/

/-- R79 to R82, R343: `sget` reads and `sset` writes the register of an index, field by field: a read-only one keeps its value,
a mode of 11 or a rounding mode of 110 or 111 leaves its field, a seed of 0 stores 1, and `lost` is cleared by a 1. -/
def Obligations.SystemRegisters : Prop :=
  ∀ (s : State) (f : FormB), Holds s f.gn f.guard → f.imm16.toNat < 11 → (s.core.m = 0 → 3 ≤ f.imm16.toNat) →
    let c := s.core
    let x := s.tile s.cur
    let v := c.reg f.a
    let n := f.imm16.toNat
    let fpmode := c.rm.setWidth 64 ||| (if c.flush then 8#64 else 0#64) ||| c.flags.setWidth 64 <<< 4 ||| c.srgen.setWidth 64 <<< 32
    exec (.sget f) s = done s (c.setReg f.d
      ([c.cause.setWidth 64, c.fpc, c.fval, c.tenant.setWidth 64,
        c.m.setWidth 64 ||| c.pm.setWidth 64 <<< 2 ||| (if c.ih then 16#64 else 0#64), fpmode, BitVec.ofNat 64 (s.cycleRegister s.cur),
        c.vcycle, BitVec.ofNat 64 (s.cur % 160 + 256 * (s.cur % 160 / 80)),
        c.wake.setWidth 64 ||| (if c.lost then 1#64 <<< 63 else 0#64),
        BitVec.ofNat 64 ((x.live.bind (mapGet s.regions) |>.map Region.beat).getD 0)][n]?.getD 0)) 8 ∧
    (n = 0 → exec (.sset f) s = done s { c with cause := v.extractLsb' 0 7 } 8) ∧
    (n = 1 → exec (.sset f) s = done s { c with fpc := v } 8) ∧ (n = 2 → exec (.sset f) s = done s { c with fval := v } 8) ∧
    (n = 4 → c.m = 0 → exec (.sset f) s = done s c 8) ∧
    (n = 4 → c.m ≠ 0 → (c.m = 1 → v.extractLsb' 0 2 ≠ 2#2 ∧ v.extractLsb' 2 2 ≠ 2#2) →
      exec (.sset f) s = done s { c with
        m := if v.extractLsb' 0 2 = 3#2 then c.m else v.extractLsb' 0 2
        pm := if v.extractLsb' 2 2 = 3#2 then c.pm else v.extractLsb' 2 2, ih := v.getLsbD 4 } 8) ∧
    (n = 5 → exec (.sset f) s = done s { c with
      rm := if (v.extractLsb' 0 3).toNat < 6 then v.extractLsb' 0 3 else c.rm, flush := v.getLsbD 3, flags := v.extractLsb' 4 5
      srgen := if v.extractLsb' 32 32 = 0 then 1 else v.extractLsb' 32 32 } 8) ∧
    (n = 9 → exec (.sset f) s = done s { c with wake := v.extractLsb' 0 16, lost := c.lost && !v.getLsbD 63 } 8) ∧
    (n ∈ [3, 6, 7, 8, 10] → exec (.sset f) s = done s c 8)

/-- R327, R332 to R334, R343 to R345, R347, R407: `relatch` drains, sends its tokens and waits; it is done when they have
emerged, and after 2^22 fc enters the handler with the tenant it named frozen. `ctxsv` and `ctxld` whose checks pass start a
command of the tier engine; `tidw` and `tidr` move an entry of the tensor-ID tables; `pwr` reads the power status and sets
ceiling and tolerance; `cntr` and `cntc` read and clear counters. That the handler is entered before the freeze, in one step, is
the model's reading (DEDUCED, log entry 42), and so are the core's cause word (log entry 17) and that `tidr` stores the entry's
own bits (log entry 68). -/
def Obligations.SystemInstructions : Prop :=
  (∀ (s : State) (f : FormA), Holds s f.gn f.guard →
    let c := s.core
    let dev := deviceOf s.cur
    let die := dieOf s.cur
    let ra := c.reg f.a
    let rb := c.reg f.b
    (c.m ≠ 0 → (c.m = 2 → (c.reg f.d).toNat < 32) → ra.toNat % 2 ^ 16 = 0 → rb.toNat % 2 ^ 16 = 0 → ra.toNat + rb.toNat ≤ 2 ^ 52 →
      let fn := if c.m = 2 then fnOf ((c.reg f.d).setWidth 5) else fnOf c.fn
      let r := (s.drainCore s.cur 4).sendRelatch dev fn (namedDies dev f.sub) ra.toNat rb.toNat
      exec (.relatch f) s = .next (r.1.withCore { r.1.core with run := .waiting (.relatch r.2.toNat f.d fn 0) })) ∧
    (c.m ≠ 0 → (∀ b ∈ s.contextChecks true (f.sub.getLsbD 0) (f.sub.getLsbD 1) ra rb, b.1 = false) →
      (f.sub.getLsbD 2 = true → BarrierOk s (c.reg f.d)) →
      let t := s.issueContext (.ctxsv ra (f.sub.getLsbD 0) (f.sub.getLsbD 1)) rb
        (if f.sub.getLsbD 2 then some (c.reg f.d) else none)
      exec (.ctxsv f) s = done t t.core 4) ∧
    (c.m ≠ 0 → (∀ b ∈ s.contextChecks false false (f.sub.getLsbD 1) ra rb, b.1 = false) →
      (f.sub.getLsbD 2 = true → BarrierOk s (c.reg f.d)) →
      (s.drainCore s.cur 4).startCause ra (f.sub.getLsbD 1) = none →
      let t := s.issueContext (.ctxld ra (f.sub.getLsbD 1)) rb (if f.sub.getLsbD 2 then some (c.reg f.d) else none)
      exec (.ctxld f) s = done t t.core 4) ∧
    (Accessible c ra.toNat 64 → rb.toNat < 2 ^ 9 →
      let e := BitVec.ofNat 512 (s.loadLocal ra.toNat 64)
      let dies := if rb.getLsbD 8 then [2 * dev, 2 * dev + 1] else [die]
      let t := dies.foldl (fun (s : State) g => s.setTid g (fnOf c.fn) (rb.toNat % 256) e) s
      let v := s.storeLocal ra.toNat (toBytes (s.tid die (fnOf c.fn) (rb.toNat % 256)).toNat 64)
      (s.loadAbsent ra.toNat 64 = false → entBad e = false → exec (.tidw f) s = done t t.core 4) ∧
      exec (.tidr f) s = stored v 4) ∧
    (let d := s.die die
     (f.sub = 0 → exec (.pwrA f) s = done s (c.setReg f.d (BitVec.ofNat 64 (d.step % 16 + d.vnow % 256 * 2 ^ 8 +
       d.vfloor % 256 * 2 ^ 16 + d.ceiling % 16 * 2 ^ 24 + (if d.denied then 2 ^ 32 else 0) + (if d.throttled then 2 ^ 33 else 0)))) 4) ∧
     (f.sub = 1 → c.m = 2 → rb.toNat ≤ 10 → let t := s.setDie die { d with ceiling := rb.toNat }
       exec (.pwrA f) s = done t t.core 4) ∧
     (f.sub = 2 → c.m = 2 → rb.toNat < 2 ^ 32 → let t := s.setDie die { d with tolerance := rb.toNat }
       exec (.pwrA f) s = done t t.core 4))) ∧
  (∀ (s : State) (f : FormB), Holds s f.gn f.guard →
    let c := s.core
    let die := dieOf s.cur
    let d := s.die die
    let x := s.tenant (deviceOf s.cur) (fnOf c.fn)
    let n := f.imm16.toNat
    (f.sub = 1 → c.m = 2 → n ≤ 10 → let t := s.setDie die { d with ceiling := n }
      exec (.pwrB f) s = done t t.core 8) ∧
    (f.sub = 2 → c.m = 2 → n < 2 ^ 15 → let t := s.setDie die { d with tolerance := n }
      exec (.pwrB f) s = done t t.core 8) ∧
    (let reads (v : Dword) := exec (.cntr f) s = done s (c.setReg f.d v) 8
     let clears (t : State) := exec (.cntc f) s = done t t.core 8
     (n = 0 → reads (BitVec.ofNat 64 (s.device (deviceOf s.cur)).micros)) ∧
     (n = 0x100 → reads (c.retired - c.retiredBase) ∧ clears (s.withCore { c with retiredBase := c.retired })) ∧
     (n = 0x101 → reads c.waitFc ∧ clears (s.withCore { c with waitFc := 0 })) ∧
     (n = 0x102 → reads (s.tile s.cur).unitFirings ∧ clears (s.setTile s.cur { s.tile s.cur with unitFirings := 0 })) ∧
     (n = 0x103 → reads c.firings ∧ clears (s.withCore { c with firings := 0 })) ∧
     (0x200 ≤ n → n ≤ 0x207 → reads ((mapGet x.counters n).getD 0) ∧
       clears (s.setTenant (deviceOf s.cur) (fnOf c.fn) { x with counters := x.counters.filter fun k => k.1 ≠ n })) ∧
     (0x300 ≤ n → n ≤ 0x304 → fnOf c.fn = 16 → reads ((mapGet d.counters n).getD 0) ∧
       clears (s.setDie die { d with counters := d.counters.filter fun k => k.1 ≠ n })) ∧
     (0x300 ≤ n → n ≤ 0x304 → fnOf c.fn ≠ 16 → reads ((mapGet x.period (periodKey die n)).getD 0)))) ∧
  (∀ (s : State) (t q fn n : Nat) (d : BitVec 5), Waits s t (.relatch q d fn n) →
    let dev := deviceOf t
    let u : State := { s with relatches := s.relatches.filter fun r => !(r.dev = dev && r.seq = BitVec.ofNat 32 q), cur := t }
    let c := s.coreOf t
    let v := BitVec.ofNat 64 q
    ((∀ r ∈ s.relatches, r.dev = dev → r.seq = BitVec.ofNat 32 q → r.left = []) →
      exec (.relatchDone t) s = .next ((u.withCore (u.core.setReg d v)).resumed 4)) ∧
    (2 ^ 22 ≤ n → c.ih = false → exec (.relatchTimeout t) s = .next (({ u with cur := s.cur }.setCore t
      (c.enterHandler 0x24 (c.pc.setWidth 64 + 4) v)).freezeTenant dev fn 0x24 [coreCause t 0x24 v])))

/-! ### Stream commands and their engines -/

namespace Sys2Proof.Rules

/-- The stream commands and their codes (R35). -/
def streamRows : List (Instr × Nat) :=
  [(.sport, 0x00), (.ssink, 0x01), (.sfill, 0x02), (.sage, 0x03), (.sbound, 0x04), (.scfg, 0x05), (.sarg, 0x06), (.sldw, 0x07),
   (.sswap, 0x08), (.smat, 0x09), (.scopy, 0x0A), (.sgath, 0x0B), (.sscat, 0x0C), (.slay, 0x0D), (.sring, 0x0E), (.sbar, 0x0F),
   (.swo, 0x10), (.squant, 0x11), (.stier, 0x12), (.sxfer, 0x13), (.sclose, 0x14), (.smark, 0x15)]

/-- A command that an engine carries and that may act (R249). -/
abbrev Carried (s : State) (n : Nat) (c : Cmd) : Prop := mapGet s.cmds n = some c ∧ s.cmdMay c = true ∧ c.stage = .running

/-- The head record of an engine's completion queue is r, and u is the machine without it (R226). -/
abbrev HeadRecord (s : State) (d key : Nat) (r : Completion) (u : State) : Prop :=
  ∃ rest, mapGet (s.die d).cq key = some (r :: rest) ∧
    u = s.setDie d { s.die d with cq := if rest = [] then mapErase (s.die d).cq key else mapSet (s.die d).cq key rest }

end Sys2Proof.Rules

/-- R33 to R35, R85: a stream command whose entries, barrier and values pass their checks is captured and takes a place in the core's
queue behind a node-scope drain, and the core goes on; with 64 commands in the queue the core waits, and takes the place
later. One whose guard does not hold captures nothing, takes no place, and only advances (R85). What is captured: the issuer, its words, the registers that they name, and the tensor entries of A and B. -/
def Obligations.StreamCommands : Prop :=
  (∀ r ∈ streamRows, ∀ s : State, Holds s s.ir.gn s.ir.guard → s.issueAbsent r.2 = false →
    let code := r.2
    let c := s.capture s.coreIssuer code s.ir
    let n := s.nextCmd
    let u : State := { s with cmds := mapSet s.cmds n { c with stage := .stalled }, nextCmd := n + 1 }
    (usesA code = true → entBad c.entA = false) → (usesB code = true → entBad c.entB = false) →
    (∀ a, (if code = 0x0F then some c.r1 else c.bar) = some a → BarrierOk s a) →
    (code = 0x0F → 0 ≤ c.r2.toInt ∧ c.r2.toNat < 2 ^ 48) →
    (∀ b ∈ s.valueChecks s.coreIssuer c, b.1 = false) → c.hasFollow = false →
    (s.core.queue.length < 64 → exec r.1 s = done (u.placeCmd n) (u.placeCmd n).core 16) ∧
    (64 ≤ s.core.queue.length → exec r.1 s = .next (u.withCore { u.core with run := .waiting (.streamQueue n) }))) ∧
  (∀ r ∈ streamRows, ∀ s : State, s.core.guardHolds s.ir.gn s.ir.guard = false → exec r.1 s = done s s.core 16) ∧
  (∀ (s : State) (t n : Nat), Waits s t (.streamQueue n) → (s.coreOf t).queue.length < 64 →
    exec (.streamQueueAdmit t) s = .next ((({ s with cur := t } : State).placeCmd n).resumed 16)) ∧
  (∀ (s : State) (code : Nat), code < 64 →
    let w := s.ir
    let c := s.capture s.coreIssuer code w
    c.kind = .stream code ∧ c.tile = s.cur ∧ c.fn = fnOf s.core.fn ∧ c.user = s.core.user ∧ c.pc = s.core.pc ∧
    c.w1 = w.w1 ∧ c.w2 = w.w2 ∧ c.w3 = w.w3 ∧ c.a = w.a.toNat ∧ c.b = w.b.toNat ∧ c.sn = w.sn.toNat ∧
    c.r1 = s.core.reg (w.w1.setWidth 5) ∧ c.r2 = s.core.reg (w.w2.setWidth 5) ∧ c.r3 = s.core.reg (w.w3.setWidth 5) ∧
    c.bar = (if w.bar then some (s.core.reg (w.w3.setWidth 5)) else none) ∧
    (usesA code = true → c.entA = s.tid (dieOf s.cur) (fnOf s.core.fn) w.a.toNat) ∧
    (usesB code = true → c.entB = s.tid (dieOf s.cur) (fnOf s.core.fn) w.b.toNat))

/-- R230 to R232, R237, R238, R242, R249, R250, R185, R186, R217, R223, R224, R200: the command at the head of a queue goes to an engine that is free; an
engine reads an element of a copy into its buffer and writes its conversion; a command with every write in M appends its record
and leaves; a record updates its barrier, which waits where a save has taken it away, and one that fails is taken imprecisely; `sbar` arrives once every earlier report
has; a port command moves a token with its bytes: `sport` the elements of its rows, each row and the whole tensor ended, `ssink`
what it takes to its place, `sfill` its value; eight `sring` move their windows on, where a local store that a core still holds
enters the rotation or is overwritten, or expire; a byte seeps, and a page walk fills a latch. That a walk may come for any
generator and page is the model's choice (DESIGN CHOICE, log entry 45), and so is the data of an EOR or EOT that `sfill` places
(log entry 60). -/
def Obligations.EngineActs : Prop :=
  (∀ (s : State) (t eng n : Nat) (q : List Nat) (c : Cmd), (s.coreOf t).queue = n :: q → mapGet s.cmds n = some c →
    s.cmdMay c = true → c.stage = .queued → eng < 8 → c.onCopy = true → c.graph = none →
    let d := dieOf c.tile
    mapGet (s.die d).engines eng = none → (s.age (copyAge d eng)).stopped = none →
    let k := s.coreOf c.tile
    let u := (s.setCore c.tile { k with queue := k.queue.filter (· ≠ n) }).setCmd n
      { c with gen := engineSeed c eng, ageStop := none, stage := .running, engine := d * 16 + eng }
    let v := u.setAge (copyAge d eng) { Age.reset with stopped := c.ageStop }
    exec (.commandDispatch t eng) s = .next (v.setDie d { v.die d with engines := mapSet (v.die d).engines eng n })) ∧
  (∀ (s : State) (n k : Nat) (c : Cmd), Carried s n c → c.kind = .stream 0x0A → (s.age c.copyAgeNo).stopped = none →
    (c.words = [] ∧ k < entCount c.entA ∧ k < entCount c.entB ∧ k ∉ c.did) →
    (mapGet c.staged k = none → c.w1.getLsbD 5 = false → entScale c.entA = 0 →
      let bit := entOffset c.entA k * entWidth c.entA
      let pas := (List.range (elemBytes bit (entWidth c.entA))).map fun i => spBase c.tile + (c.r1.toNat + bit / 8) + i
      exec (.engineRead n k) s = .next ((s.engineBytes c false pas.length).setCmd n
        { c with staged := mapSet c.staged k (elemGet (ofBytes (pas.map s.mem.get)) bit (entWidth c.entA)) })) ∧
    (∀ v, mapGet c.staged k = some v → c.w2.getLsbD 5 = false →
      let bit := entOffset c.entB k * entWidth c.entB
      let pas := (List.range (elemBytes bit (entWidth c.entB))).map fun i => spBase c.tile + (c.r2.toNat + bit / 8) + i
      let r := c.copyPattern (v % 2 ^ 32) (v / 2 ^ 32)
      let c' := { c with
        did := k :: c.did, staged := mapErase c.staged k, flags := c.flags ||| r.flags, gen := r.gen, ranges := addBytes c.ranges pas }
      exec (.engineWrite n k) s =
        .next (((s.putElement pas bit (entWidth c.entB) r.bits).engineBytes c true pas.length).setCmd n c'.copyDone))) ∧
  (∀ (s : State) (n : Nat) (c : Cmd), mapGet s.cmds n = some c → s.cmdMay c = true → c.stage = .complete → c.follow = none →
    c.graph = none →
    let completes (u : State) : Prop :=
      exec (.engineComplete n) s = .next ((((u.pushReport n c c.bytes c.ranges).giveFlags c).cmdDone c).removeCmd n)
    (c.code ≠ 0x05 → completes s) ∧
    (∀ r, c.code = 0x05 → mapGet s.regions c.tile = some r → r.cmd = n → completes (s.refreshNodes r.tiles))) ∧
  (∀ (s u v : State) (eng : Nat) (r : Completion), HeadRecord s (cqPlace eng).1 (cqPlace eng).2 r u →
    let update := u.updateBarrier (deviceOf r.tile) r.bar
      { bytes := r.bytes, expect := r.expect, arrivals := r.arrivals, ranges := r.ranges }
    let d := s.die (cqPlace eng).1
    (d.lost = true ∨ d.stopped = true → exec (.engineReport eng) s = .next s) ∧
    (d.lost = false → d.stopped = false →
      (u.awayBarrier r = none →
        (update = .ok v → exec (.engineReport eng) s = .next v) ∧
        (∀ code, update = .error code → mapGet u.away (homeKey r.fn r.tile) = none →
          exec (.engineReport eng) s = .next (u.imprecise r.tile code r.bar.toNat))) ∧
      ((u.awayBarrier r).isSome = true → exec (.engineReport eng) s = .next { u with owed := u.owed ++ [r] }))) ∧
  (∀ (s v : State) (t n : Nat) (q : List Nat) (c : Cmd), (s.coreOf t).queue = n :: q → mapGet s.cmds n = some c →
    s.cmdMay c = true → c.kind = .stream 0x0F → s.allReported t n = true →
    ((s.removeCmd n).cmdDone c).updateBarrier (deviceOf t) c.r1 { bytes := 0, expect := c.r2.toNat, arrivals := 1, ranges := [] } = .ok v →
    exec (.sbarArrive t) s = .next v) ∧
  (∀ (s : State) (t n : Nat) (c : Cmd), Carried s n c → c.tile = t →
    let moves (u : State) : Prop :=
      (c.throughPortAge = true →
        s.cmds.find? (fun c => c.2.tile = t && c.2.stage = .running && c.2.throughPortAge) = some (n, c) →
        (s.tile t).portAge.stopped = none → exec (.portAgeStream t) s = .next u) ∧
      (c.throughPortAge = false → ∀ j, exec (.engineRead n j) s = .next u)
    let e := c.entB
    let w := entWidth e
    let d0 := entDim e 0
    let places (i : Nat) := entOffset e i * w
    (c.kind = .stream 0x00 → ((s.tile t).fiPort c.a).owners.head? = some n → ((s.tile t).fiPort c.a).room = true →
      let rows := if c.r2 = 0 then entRows e else c.r2.toNat
      let row := c.rd / (d0 + 1)
      let i0 := c.rd % (d0 + 1)
      let bit := places (row * d0 + i0)
      let goes (u : State) (k : Token) (c' : Cmd) : Prop :=
        let v := u.pushFi t c.a k
        moves (if c'.rd = rows * (d0 + 1) + (if c.r2 = 0 then 1 else 0) then v.portDone n c' (rangeBytes c'.ranges) else v.setCmd n c')
      (rows ≤ row → goes s eotTok { c with rd := c.rd + 1 }) ∧
      (row < rows → i0 = d0 → goes s eorTok { c with rd := c.rd + 1 }) ∧
      (∀ u pas, row < rows → i0 < d0 →
        s.reachElement c (portAgeNo t) c.virtual (tensorStart e c.r1 c.virtual) bit w 0 = .ok u pas →
        goes (u.engineBytes c false pas.length) (dataTok (BitVec.ofNat 32 (elemGet (ofBytes (pas.map u.mem.get)) bit w)))
          { c with rd := c.rd + 1, moved := c.moved + 1, ranges := addBytes c.ranges pas })) ∧
    (c.kind = .stream 0x01 → ∀ k, ((s.tile t).foPort c.a).owners.head? = some n → ((s.tile t).foPort c.a).q.head? = some k →
      let v := s.popFo t c.a
      let bit := places (c.rd * d0 + c.wr)
      (∀ u pas, k.isData = true → c.rd < entRows e → c.wr < d0 →
        s.reachElement c (portAgeNo t) c.virtual (tensorStart e c.r1 c.virtual) bit w 1 = .ok u pas →
        moves ((((u.putElement pas bit w k.data.toNat).engineBytes c true pas.length).popFo t c.a).setCmd n
          { c with wr := c.wr + 1, moved := c.moved + 1, ranges := addBytes c.ranges pas })) ∧
      (k.isData = true → ¬(c.rd < entRows e ∧ c.wr < d0) → moves (v.setCmd n { c with wr := c.wr + 1 })) ∧
      (k.kind = kEor →
        let c' := { c with rd := c.rd + 1, wr := 0 }
        moves (if c.r2 ≠ 0 ∧ c.r2.toNat ≤ c.rd + 1 then v.portDone n c' (rangeBytes c.ranges) else v.setCmd n c')) ∧
      (k.kind = kEot ∨ k.isErr = true → moves (v.portDone n c (rangeBytes c.ranges)))) ∧
    (c.kind = .stream 0x02 → ((s.tile t).fiPort c.a).owners.head? = some n → ((s.tile t).fiPort c.a).room = true →
      c.rd < c.r2.toNat →
      let v := s.pushFi t c.a { kind := BitVec.ofNat 3 c.b, data := c.r1.setWidth 32 }
      let c' := { c with rd := c.rd + 1 }
      moves (if c.rd + 1 = c.r2.toNat then v.portDone n c' (4 * (c.rd + 1)) else v.setCmd n c'))) ∧
  (∀ (s : State) (k : Nat) (n : Fin 8 → Nat) (c : Fin 8 → Cmd) (at' len : Dword) (since : Fin 8 → Nat),
    (∀ p : Fin 8, (s.tile (8 * k + p)).ring = some (n p, since p) ∧ mapGet s.cmds (n p) = some (c p) ∧ s.cmdMay (c p) = true ∧
      (c p).r1 = at' ∧ (c p).r2 = len) →
    let tiles := (List.range 8).map (8 * k + ·)
    let b := ringStores at'.toNat len.toNat true s tiles
    let window (p : Nat) := b.mem.read (spBase (8 * k + p) + at'.toNat) len.toNat
    let u := (List.range 8).foldl (fun (u : State) p => u.writeM (spBase (8 * k + p) + at'.toNat) (window ((p + 7) % 8))) b
    let v := ringStores at'.toNat len.toNat false u tiles
    exec (.ringRendezvous k) s = .next ((List.finRange 8).foldl (fun (u : State) (p : Fin 8) =>
      (u.setTile (8 * k + p) { u.tile (8 * k + p) with ring := none }).setCmd (n p)
        { c p with stage := .complete, bytes := len.toNat, ranges := [(spBase (8 * k + p) + at'.toNat, len.toNat)] })
      { v with tick := v.tick + 1 })) ∧
  (∀ (s : State) (t at' len : Nat) (before : Bool),
    let u := ringStore at' len before s t
    let outside (e : PbEntry) : Bool := !inRange (spBase t + at') len e.addr
    let held (s : State) := (s.coreOf t).view.pb
    let enters := (Config.freeDword s.tick).getLsbD (t % 8)
    (before = enters → held u = (held s).filter outside) ∧ (before ≠ enters → u = s) ∧ (before = false → u.mem = s.mem)) ∧
  (∀ (s : State) (t n since : Nat), (s.tile t).ring = some (n, since) → since + 1048576 ≤ (s.die (dieOf t)).cycle →
    (s.ringCmds (t / 8)).length ≠ 8 →
    exec (.ringTimeout t) s = .next (((s.ringCmds (t / 8)).map Prod.snd).foldl State.dropCmd (s.cmdFault n 0x19))) ∧
  (∀ (s : State) (t a : Nat), t < 2 ^ 20 →
    let c := s.coreOf t
    exec (.seep t a) s = .next (s.setCore t { c with view := { c.view with sv := c.view.sv.set a (s.mem.get a) } })) ∧
  (∀ (s u : State) (age va access fn tile pa : Nat) (g : Age) (l : Latch), s.ageUser age = some (fn, tile) → (s.namedAge age).stopped = none →
    (∀ x ∈ (s.namedAge age).latches, x.serves va access = false) →
    s.translate (dieOf tile) fn tile (s.namedAge age) va access = .ok u g pa l → exec (.pageWalk age va access) s = .next (u.setAge age g))

namespace Sys2Proof.Rules

/-- Layout engine e runs l for the command c, with w the fields at its program counter, which is not the last place. -/
abbrev Laid (s : State) (l : LayoutRun) (c : Cmd) (w : LayoutWord) : Prop :=
  mapGet (s.die (s.engine / 16)).layouts (s.engine % 16) = some l ∧ mapGet s.cmds l.cmd = some c ∧
  w = unpackLayout (l.prog[l.pc]?.getD 0) ∧ l.pc < 63

/-- The layout engine whose turn it is goes on with l at place pc. -/
abbrev laid (s : State) (l : LayoutRun) (pc : Nat) : State := s.setLayout s.engine { l with pc := pc, elem := 0 }

end Sys2Proof.Rules

/-- R268, R270, R271: what each layout instruction does to the engine's counters, cursors, stage, write mode and writes, and where
its program counter goes; `stop` ends the command and `mark` reports once every write is in M, and `sync` waits for them. A `rd`
or `wr` that an element stops keeps what it has moved and goes on from that element (R251). -/
def Obligations.LayoutInstructions : Prop :=
  ∀ (s : State) (l : LayoutRun) (c : Cmd) (w : LayoutWord), Laid s l c w →
    let x := w.x.toNat % 8
    let y := w.y.toNat
    let n := w.imm16.toNat
    let then' (i : Instr) (l : LayoutRun) : Prop := exec i s = .next (laid s l (l.pc + 1))
    let stages (i : Instr) (v : Nat → Val) : Prop := ∃ m, then' i { l with stage := m } ∧ ∀ i, i < 256 → stageAt m i = v i
    let old (i : Nat) := stageAt l.stage i
    let from' (i : Nat) := (i + 256 - y) % 256
    (l.pending = [] →
      exec .layoutStop s = .next (s.completeCmd l.cmd { c with bytes := rangeBytes l.ranges, ranges := l.ranges }) ∧
      exec .layoutMark s = .next (laid (s.pushReport l.cmd c (rangeBytes l.ranges) l.ranges) { l with ranges := [] } (l.pc + 1)) ∧
      then' .layoutSync l) ∧
    (l.pending ≠ [] → exec .layoutStop s = .next s ∧ exec .layoutMark s = .next s ∧ exec .layoutSync s = .next s) ∧
    then' .layoutFor { l with lc := l.lc.set! x 0, count := l.count.set! x (if n = 0 then entDim c.entA (y % 4) else n) } ∧
    (let l' := { l with lc := l.lc.set! x (counterAt l.lc x + 1) }
     (counterAt l.count x ≤ counterAt l.lc x + 1 → then' .layoutNext l') ∧
     (counterAt l.lc x + 1 < counterAt l.count x → n < 64 → exec .layoutNext s = .next (laid s l' n))) ∧
    (let start := y + (if w.x.toNat < 8 then n * counterAt l.lc w.x.toNat else 0)
     let moves (i : Instr) (access : Nat) (m : Moved) : Prop :=
       (∀ u l' c', m = .all u l' c' → l'.pc = l.pc ∧
         exec i s = .next ((u.setCmd l'.cmd c').setLayout s.engine { l' with pc := l.pc + 1, elem := 0 })) ∧
       (∀ u l' c' va f ix, m = .part u l' c' (some (va, f, ix)) →
         exec i s = .next (((u.setCmd l'.cmd c').setLayout s.engine l').stopLayout s.engine c' va access f ix))
     moves .layoutRd 0 (layoutRead s.engine start n (n - l.elem) s l c) ∧
     moves .layoutWr 1 (layoutWrite s.engine start n (n - l.elem) s l c)) ∧
    stages .layoutTr8 (fun i => if from' i < 64 then old (y + 8 * (from' i % 8) + from' i / 8) else old i) ∧
    (w.x.toNat ≤ 8 → n < 2 ^ w.x.toNat →
      stages .layoutSwz (fun i => if from' i < 2 ^ w.x.toNat then old (y + (from' i ^^^ n)) else old i)) ∧
    (n ≤ 256 → stages .layoutPad (fun i => if from' i < n then .zero false else old i)) ∧
    then' .layoutCvt { l with rm := if w.x = 6 then entRm c.entB else w.x.setWidth 3
                              flush := if y = 0 then entFlush c.entB else decide (y = 1) } ∧
    (let move (v : Vector Int 4) := moveCursor v (y % 4) (w.y.getLsbD 7) w.imm16.toInt
     then' .layoutAdv (if w.x = 0 then { l with sc := move l.sc } else { l with dc := move l.dc }))

/-- R261 to R267: the array starts the head of a stream's queue: `sswap` exchanges the planes, `sldw` begins its plane, and an `smat`
that may start keeps the active plane and takes the held buffer where it opens a matrix operation, and accumulates in it where it
goes on with one; a row, fed by the lanes or read from its tensor, goes through the plane into the held buffer, which ends the
command with its last row, or to the strip; and a row at the strip goes to its sixteen nodes. -/
def Obligations.MatrixActs : Prop :=
  (∀ (s : State) (t sn n : Nat) (q : List Nat) (c : Cmd), mapGet (s.tile t).array.queues sn = some (n :: q) → Carried s n c →
    let a := (s.tile t).array
    let starts (a' : Array128) : Prop := exec (.matrixCommandStart t sn) s = .next (s.setTile t { s.tile t with array := a' })
    (∀ r ∈ a.running, r.1 ≠ n) →
    (c.kind = .stream 0x08 → exec (.matrixCommandStart t sn) s =
      .next ((s.setTile t { s.tile t with array := { a with active := a.shadow, shadow := a.active } }).completeCmd n c)) ∧
    (c.kind = .stream 0x07 → starts { a with running := a.running ++ [(n, { depth := entDim c.entA 1, rows := [] })] }) ∧
    (c.kind = .stream 0x09 → entDim c.entA 0 = a.active.depth →
      (c.accum = false → c.hold = false → s.stripBusy a = false → starts { a with running := a.running ++ [(n, a.active)] }) ∧
      (c.accum = false → c.hold = true → c.sn = sn → a.owner = none →
        starts { a with running := a.running ++ [(n, a.active)], owner := some (sn, c.matrixRows) }) ∧
      (c.accum = true → a.owner = some (c.sn, c.matrixRows) → c.hold = true ∨ s.stripBusy a = false →
        starts { a with running := a.running ++ [(n, a.active)] }))) ∧
  (∀ (s : State) (t n : Nat) (p : Plane) (r : List (Nat × Plane)) (c : Cmd),
    (s.tile t).array.running = (n, p) :: r → Carried s n c → c.tile = t → c.kind = .stream 0x09 → c.rd < c.matrixRows →
    let m := c.rd
    let takes (u : State) (c : Cmd) (row : List DVal) : Prop :=
      let a := (u.tile t).array
      let from' (j : Nat) : Cst := if c.accum then (mapGet a.held (m * 128 + j)).getD freshCst else freshCst
      let out := (List.range 128).map fun j => columnCst (from' j) row p j
      let c' := { c with rd := m + 1 }
      (c.hold = false → (s.tile t).array.strip = none →
        exec (.smatRow t) s = .next ((u.setTile t { u.tile t with array := { a with strip := some (n, out) } }).setCmd n c')) ∧
      (c.hold = true →
        let held := out.zipIdx.foldl (fun h x => mapSet h (m * 128 + x.2) x.1) a.held
        exec (.smatRow t) s = .next ((u.setTile t { u.tile t with array := { a with held := held } }).setCmd n
          (if m + 1 = c.matrixRows then { c' with stage := .complete, bytes := rangeBytes c.ranges } else c')))
    (∀ u row, c.fed = true → s.feedRow c (entDim c.entA 0) = some (u, row) → takes u c row) ∧
    (let ks := (List.range (entDim c.entA 0)).map fun i => m * entDim c.entA 0 + i
     c.fed = false → (s.tile t).array.age.stopped = none → (∀ k ∈ ks, (mapGet c.staged k).isSome = true) →
      takes s { c with staged := ks.foldl mapErase c.staged }
        (ks.map fun k => let v := (mapGet c.staged k).getD 0; toD (elemValue c.entA false (v % 2 ^ 32) (v / 2 ^ 32))))) ∧
  (∀ (s : State) (t n : Nat) (row : List Cst) (c : Cmd), (s.tile t).array.strip = some (n, row) → mapGet s.cmds n = some c →
    s.cmdMay c = true → (∀ j, j < 16 → s.stripNode c j = true ∧ ((s.tile t).unitAt (296 + j)).buf = []) →
    let last := decide (c.wr + 1 = c.matrixRows)
    let u := (List.range 16).foldl (fun (u : State) j =>
      u.setUnit t (296 + j) { (u.tile t).unitAt (296 + j) with buf := stripTokens row j last }) s
    let a := (u.tile t).array
    let v := u.setTile t { u.tile t with array := { a with strip := none, owner := if last && c.accum then none else a.owner } }
    exec (.stripDeliver t) s = .next (v.setCmd n (if c.wr + 1 = c.matrixRows then
      { c with wr := c.wr + 1, stage := .complete, bytes := rangeBytes c.ranges } else { c with wr := c.wr + 1 })))

/-! ### Regions -/

namespace Sys2Proof.Rules

/-- The running region at its boundary: r, led by tile l, whose beat has expired (R172). -/
abbrev AtBoundary (s : State) (l : Nat) (r : Region) : Prop := mapGet s.regions l = some r ∧ s.atBoundary l r = true

/-- No hold is asked for, so that the next beat starts at the boundary (R172 step 8). -/
abbrev Unheld (r : Region) : Prop := r.holdAsked = false ∧ r.govHold = false ∧ r.parityHold = false ∧ r.preempt = none

/-- A beat length that the governor latches for the next boundary, and a new window (R180). -/
abbrev nextLength (r : Region) (v : Nat) : Region :=
  { r with nextBeat := if v = r.beat then none else some v, winBeats := 0, winGreens := 0, winSlips := 0 }

end Sys2Proof.Rules

/-- R164, R165, R318, R324, R341: a region load whose image passes its checks configures the region and leaves it held, with the
header's beat and the records' stations, a completion word of zero and the command complete; a load that fails its checks
configures nothing and is taken imprecisely; one that waits on residency goes on when the wait ends; a slot whose parity fails
asks for a hold and does not fire, and the token round rewrites it from the image or stops the region. That the dies of a region
on both are brought to one step as it goes live, that a hold for parity breaks a beat off at its boundary to go on behind its
first fc, and whether the parity of a rewritten word fails again are the model's choices (log entries 65, 64, 2). -/
def Obligations.RegionLoads : Prop :=
  (∀ (s : State) (n : Nat) (c : Cmd), Carried s n c → c.kind = .stream 0x05 → mapGet s.regions c.tile = none →
    s.loadWaits c.tile c.r1.toNat c.fn = false →
    let image := s.readImage (fun t => (s.tile t).live.isSome) c.tile c.r1.toNat
    let fails (e : LoadFault) : Prop := exec (.regionLoad n) s = .next ((s.imprecise c.tile e.1 e.2).removeCmd n)
    (∀ e, image = .error e → fails e) ∧
    (∀ im e, image = .ok im → s.imageFault c.tile c.fn im = some e → fails e) ∧
    (∀ im, image = .ok im → s.imageFault c.tile c.fn im = none →
      let r := s.regionOfImage n c.r1.toNat c.fn c.user none im
      let dev := deviceOf c.tile
      let u := ((r.tiles.foldl (fun (s : State) t => s.setTile t { s.tile t with live := some c.tile }) s).setRegion c.tile r).equalise dev
      let waits := u.residencyWaits dev c.fn ((u.tenant dev c.fn).governing c.tile)
      (waits = true → exec (.regionLoad n) s = .next (u.count dev c.fn 0x204 1)) ∧
      (waits = false → u.overTiles r c.tile = false → ∃ t q, exec (.regionLoad n) s = .next t ∧ mapGet t.regions c.tile = some q ∧
        q.phase = .held ∧ q.holdAsked = true ∧ q.beat = Machine.bits im.head 11 0 ∧ q.floor = Machine.bits im.head 23 12 ∧
        q.ceiling = Machine.bits im.head 35 24 ∧ q.mode = Machine.bits im.head 45 44 ∧ q.beats = 0 ∧
        q.tiles = im.tiles.map Prod.fst ∧ q.stations = im.recs.map stationOfRecord ∧
        t.mem = (s.writeM (spBase c.tile + Machine.bits im.head 149 128) (toBytes 0 8)).mem ∧
        mapGet t.cmds n = some { c with stage := .complete, bytes := im.size, ranges := [(spBase c.tile + c.r1.toNat, im.size)] }))) ∧
  (∀ (s : State) (n l : Nat) (r : Region), mapGet s.regions l = some r → r.phase = .waiting → s.lineMay l r = true →
    s.residencyWaits (deviceOf l) r.fn ((s.tenant (deviceOf l) r.fn).governing l) = false → s.overTiles r l = false →
    (∀ c, mapGet s.cmds n = some c → n < 2 ^ 32 → c.tile = l → r.cmd = n → r.graph = none →
      ∃ t, exec (.residencyWaitEnd n) s = .next t ∧ mapGet t.regions l = some { r with phase := .held, slots := [], holdAsked := true }) ∧
    (∀ g, r.graph = some g → r.govHold = false → r.parityHold = false → r.preempt = none → s.steady r.tiles = true →
      ∃ t q, exec (.residencyWaitEnd (2 ^ 32 + l)) s = .next t ∧ mapGet t.regions l = some q ∧ q.phase = .running ∧
        q.beats = r.beats + 1)) ∧
  (∀ (s : State) (t slot l : Nat) (r : Region), s.regionOf t = some (l, r) → r.phase ≠ .waiting → slot ≤ 426 →
    s.tileStops t = false → exec (.configParityError t slot) s = .next ((s.setTile t { s.tile t with
      parity := (slot :: (s.tile t).parity).eraseDups }).setRegion l { r with parityHold := true })) ∧
  (∀ (s : State) (t slot : Nat), (s.tile t).parity.contains slot = true → unitTodo t slot s = .idle s) ∧
  (∀ (s : State) (l t n : Nat) (r : Region), mapGet s.regions l = some r → r.parityHold = true → s.lineMay l r = true → s.failedSlots r = [(t, n)] →
    let failsAgain := (Config.freeDword s.tick).getLsbD 0
    let v : State := { s with tick := s.tick + 1 }
    let u := v.setTile t { (v.tile t).setSlot n (s.repairWord l r t n) with parity := [] }
    let repairs (q : Region) : Prop := exec (.configParityRepair l) s =
      .next (if failsAgain || !u.slotSound t n then u.stopRegion l 0x1D 0 else u.setRegion l q)
    (r.phase = .held → u.slotSound t n = false → exec (.configParityRepair l) s = .next (u.stopRegion l 0x1D 0)) ∧
    (r.phase = .held → r.paused = false → r.holdAsked = true → repairs { r with parityHold := false }) ∧
    (r.phase = .running → r.paused = true → repairs { r with
      parityHold := false, paused := false, beatStart := s.cycleAt l - 2
      stations := r.stations.map fun st => { st with gate := false } }) ∧
    (r.phase = .running → r.paused = false → exec (.configParityRepair l) s = .next s))

/-- R171 to R177, R180, R188: a source station takes a token into its item, and the first token gives the item its serial; an issue
gate closes when the beat's lead begins; at a boundary the items move on by a station and the next beat starts, a station whose
item has not finished sets it aside as green where a place is free and else slips, and an unfinished item of a station that is
not resumable stops the region, and a slot whose parity has failed breaks the beat off there (the model's choice, log entry 64); a
slip ends once its items (those of a source station by every port that it selects) have finished, but where every sink is to report the region retires instead; the auto governor lengthens, shortens or keeps the
beat at the end of a window; and a sink that is done reports, the last of them retiring the region with its completion word. -/
def Obligations.BeatActs : Prop :=
  (∀ (s : State) (l t p st : Nat) (r : Region) (k : Token) (rest : List Token), p < 64 → mapGet s.regions l = some r →
    r.tiles.contains t = true → s.lineMay l r = true → ((s.tile t).fiPort p).q = k :: rest →
    ((s.sourceStations r t p).find? fun st => s.mayAdmit l r t p st) = some st →
    let x := r.station st
    let key := queueKey t (256 + p) st
    let q := r.sourceQueue key
    let put (serial next : Nat) : Region := { r with
      stations := r.stations.set st { x with item := some serial }, serial := next
      source := mapSet r.source key { q with inlet := q.inlet ++ [(serial, k)], closed := k.closes, last := some (s.cycleAt l) } }
    (x.item = none → exec (.sourceItemAdmit l (t * 64 + p)) s =
      .next ((s.setRegion l (put r.serial ((r.serial + 1) % 4096))).takePort (put r.serial ((r.serial + 1) % 4096)) t p (512 + st))) ∧
    (∀ i, x.item = some i → exec (.sourceItemAdmit l (t * 64 + p)) s =
      .next ((s.setRegion l (put i r.serial)).takePort (put i r.serial) t p (512 + st)))) ∧
  (∀ (s : State) (l st : Nat) (r : Region), mapGet s.regions l = some r → r.phase = .running → st < r.stations.length →
    (r.station st).resumable = true → s.lineMay l r = true →
    (r.beatStart + r.beat - (r.station st).lead ≤ s.cycleAt l → exec (.issueGateClose l st) s =
      .next (s.setRegion l (r.setStation st { r.station st with gate := true }))) ∧
    (s.cycleAt l < r.beatStart + r.beat - (r.station st).lead → exec (.issueGateClose l st) s = .next s)) ∧
  (∀ (s : State) (r : Region) (st i k : Nat), (r.station st).item = some i → r.isSource s st = true → k ∈ s.sourceKeys r st →
    (∀ q, mapGet r.source k = some q → q.closed = false) → r.finished s st = false) ∧
  (∀ (s : State) (l : Nat) (r : Region), AtBoundary s l r → r.parityHold = true →
    exec (.beatBoundary l) s = .next (s.setRegion l { r with paused := true })) ∧
  (∀ (s : State) (l : Nat) (r : Region), AtBoundary s l r → r.parityHold = false → r.mode ≠ 2 →
    let n := r.stations.length
    (∀ st, st < n → (r.station st).resumable = false → r.finished s st = false →
      exec (.beatBoundary l) s = .next (s.stopRegion l 0x17 0)) ∧
    ((∀ st, st < n → r.finished s st = true ∧ (r.station st).loop = [] ∧ r.isSource s st = false) →
      ∃ t q, exec (.beatBoundary l) s = .next t ∧ mapGet t.regions l = some q ∧
        (∀ st, st < n → (q.station st).item = if st = 0 then none else (r.station (st - 1)).item) ∧
        (Unheld r → q.phase = .running ∧ q.beats = r.beats + 1 ∧ q.beatStart = s.cycleAt l) ∧
        (r.holdAsked = true → q.phase = .held ∧ q.beats = r.beats)) ∧
    (∀ st, st < n → (r.station st).resumable = true → r.finished s st = false → (r.station st).loop = [] →
      (∀ k, k < n → k ≠ st → r.finished s k = true ∧ (r.station k).loop = []) →
      (0 < (r.station st).places → Unheld r → ∃ t q g, exec (.beatBoundary l) s = .next t ∧ mapGet t.regions l = some q ∧
        (q.station st).loop = [g] ∧ some g.serial = (r.station st).item ∧ g.since = r.beats ∧
        g.closed = (r.station st).closed ∧ (q.station st).green = satWord ((r.station st).green.toNat + 1)) ∧
      ((r.station st).places = 0 → ∃ q, exec (.beatBoundary l) s = .next (s.setRegion l q) ∧
        q.phase = .slipping [st] (s.cycleAt l) ∧ q.beats = r.beats))) ∧
  (∀ (s : State) (l since : Nat) (sts : List Nat) (r : Region), mapGet s.regions l = some r → r.phase = .slipping sts since →
    s.ageStands r = false → s.lineMay l r = true → r.mode = 0 → r.slipceil = 0 → Unheld r →
    (r.sinks.all Sink.ready = true → exec (.slipEnd l) s = .next s) ∧
    ((∀ st ∈ sts, r.finished s st = true) → r.sinks.all Sink.ready = false → ∃ t q, exec (.slipEnd l) s = .next t ∧ mapGet t.regions l = some q ∧
      q.phase = .running ∧ q.rslip = satWord (r.rslip.toNat + 1) ∧ q.beats = r.beats + 1) ∧
    (∀ st ∈ sts, r.finished s st = false → exec (.slipEnd l) s = .next s)) ∧
  (∀ (s : State) (l : Nat) (r : Region), mapGet s.regions l = some r → r.mode = 2 → 64 ≤ r.winBeats → r.nextBeat = none →
    r.direct = none → r.evmask.getLsbD 1 = false → s.lineMay l r = true →
    let turns (q : Region) : Prop := exec (.governorWindow l) s = .next (s.setRegion l q)
    (0 < r.winSlips ∨ r.hyshi ≤ r.winGreens → turns (nextLength r (min r.ceiling (r.beat + r.step)))) ∧
    (r.winSlips = 0 → r.winGreens < r.hyshi → r.winGreens ≤ r.hyslo → turns (nextLength r (max r.floor (r.beat - r.step)))) ∧
    (r.winSlips = 0 → r.winGreens < r.hyshi → r.hyslo < r.winGreens → turns (nextLength r r.beat))) ∧
  (∀ (s : State) (l i : Nat) (r : Region) (k : Sink), mapGet s.regions l = some r → r.sinks[i]? = some k → k.reported = false →
    s.lineMay l r = true →
    let q := r.setSink i { k with reported := true }
    (k.eots ≤ k.seen ∨ k.err = true →
      (q.sinks.all Sink.reported = false → exec (.sinkReport l i) s = .next (s.setRegion l q)) ∧
      (q.sinks.all Sink.reported = true → ∃ t, exec (.sinkReport l i) s = .next t ∧ mapGet t.regions l = none ∧
        t.mem = (((s.setRegion l q).drainNodes r.tiles).writeM (spBase l + r.cword)
          (toBytes (completionWord r.beats (r.err.getD 0) r.err.isSome r.flags) 8)).mem)) ∧
    (k.seen < k.eots → k.err = false → exec (.sinkReport l i) s = .next s))

/-! ### Tiers, tenants, links and streams -/

/-- R207, R208, R212, R292, R316, R320, R323, R326, R340: a memory-write node whose EOT pair has drained emits DONE and EOT; a node
consumes a RELATCH token by a boundary of node scope, and a token emerges; a sample reads and clears accessed bits and shifts
histories; a page move marks and re-latches the page, then copies its bytes and rewrites its leaf; a quantum that ends goes on,
or asks the tenant's regions for a hold for the first-ranked tenant, which is then the one to start; a region that reaches no
token round in 65,536 fc is frozen hard; a grant that cannot read the tenant's tree or images makes it fatal; and so does its
hang limit. When in its interval a sample is taken is the model's choice (log entry 62), and so is the order in which READY
tenants that no expiry chose start (log entry 66). -/
def Obligations.TenantActs : Prop :=
  (∀ (s : State) (t m l : Nat) (r : Region), s.regionOf t = some (l, r) → r.acts = true → ((s.tile t).unitAt (slotM m)).drain = true →
    s.tileStops t = false → s.mayRun (deviceOf t) r.fn = true →
    let u := s.drainNode t (slotM m) 4
    let v := u.setUnit t (slotM m) { (u.tile t).unitAt (slotM m) with drain := false }
    exec (.mwrEotDrain t m) s = .next (State.deliver l t (slotM m) 2
      (v.emit t (slotM m) [{ kind := kDone, data := BitVec.ofNat 32 (t % 160 * 256 + m) }, eotTok]))) ∧
  (∀ (s : State) (t m l : Nat) (r : Region) (w : ElWord) (k : Token), s.regionOf t = some (l, r) → r.acts = true →
    (s.tile t).el (slotM m) = some w →
    let c : Ctx := { l := l, t := t, slot := slotM m, w := w, op := (s.tile t).elOp (slotM m), ent := 0 }
    s.peekIn c 0 = some k → k.kind = kRelatch → (s.unitOf c).drain = false → (s.tile t).isFence (slotM m) = false →
    s.tileStops t = false → s.mayRun (deviceOf t) r.fn = true →
    let u := ((s.takeIn c 0).drainNode t (slotM m) 4).refreshUnit t (slotM m) 4
    let duties := u.relatches.flatMap fun q =>
      if q.dev = deviceOf t ∧ q.seq = k.data then q.left.filter fun n => 2 ^ 60 ≤ n && n % 2 ^ 20 = t * 16 + m else []
    (duties = [] → exec (.relatchTokenConsume t m) s = .next u) ∧
    (∀ n rest, duties = n :: rest →
      exec (.relatchTokenConsume t m) s = .next (u.relatchStep (deviceOf t) k.data n []))) ∧
  (∀ (s : State) (age : Nat), exec (.relatchTokenEmerge age) s = .next { s with
    relatches := s.relatches.map fun q => if s.dutyMet age q.seq then { q with left := q.left.filter (· ≠ age) } else q }) ∧
  (∀ (s : State) (t a : Nat) (l : Nat) (r : Region) (seq : Word), a < 16 → t < 2 ^ 20 → s.regionOf t = some (l, r) →
    let age := fabricAge t a
    ((s.age age).relatch.any (fun q => q.1 = seq.toNat) = true ∨
      (∃ k ∈ s.pathTokens r t a, k.kind = kRelatch ∧ k.data = seq) → s.streamsToken age = true → s.dutyMet age seq = false)) ∧
  (∀ (s : State) (dev fn node : Nat) (p : WsPage) (l : Leaf), fn ≠ 16 → (s.tenant dev fn).ws = [(node, [p])] →
    ((s.tenant dev fn).state = .running ∨ (s.tenant dev fn).state = .ready) → (s.tenant dev fn).sampled = false → s.leavesOf dev fn p.va = [l] →
    let pte := s.mem.num l.addr 8
    let u := s.machineWrite l.addr (toBytes (if pte.testBit 5 then pte - 2 ^ 5 else pte) 8)
    let h := p.history <<< 1 ||| (if l.pte.testBit 5 then 1 else 0)
    let x := u.tenant dev fn
    let early := decide (x.sampleAge < sampleMicros x.desc)
    let v := u.setTenant dev fn { x with
      ws := [(node, if h = 0 then [] else [{ p with history := h }])]
      sampled := early, sampleAge := if early then x.sampleAge else 0 }
    exec (.wsSample dev fn) s = .next ((v.agesOf dev fn [2 * dev, 2 * dev + 1]).foldl (fun (s : State) a =>
      s.setAge a { s.age a with latches := (s.age a).latches.map fun l => { l with sampled := true } }) v)) ∧
  (∀ (s : State) (dev fn : Nat), (s.tenant dev fn).sampled = true ∨
      ((s.tenant dev fn).state ≠ .running ∧ (s.tenant dev fn).state ≠ .ready) →
    exec (.wsSample dev fn) s = .next s) ∧
  (∀ (s : State) (dev fn va frame : Nat) (l : Leaf), ((s.tenant dev fn).moving.find? fun m => m.va = va) = none →
    s.leafOf dev fn va = some l → l.page va = va → (s.device dev).frozen = false → l.tier dev ≠ some 0 → l.tier dev ≠ none →
    s.mayMoveUp dev fn va = true → s.mayTake dev fn (pageSize l.level) frame = true →
    let size := pageSize l.level
    let u := (s.sendRelatch dev fn [2 * dev, 2 * dev + 1] va size).1
    let seq := (s.sendRelatch dev fn [2 * dev, 2 * dev + 1] va size).2
    exec (.pageMove dev fn va frame) s = .next (u.setTenant dev fn { u.tenant dev fn with
      moving := (u.tenant dev fn).moving ++ [{ va := va, size := size, frame := frame, seq := seq }] })) ∧
  (∀ (s : State) (dev fn va frame : Nat) (m : TierMove), ((s.tenant dev fn).moving.find? fun m => m.va = va) = some m →
    let u := (s.setTenant dev fn { s.tenant dev fn with moving := (s.tenant dev fn).moving.filter (· ≠ m) }).endRelatch dev m.seq
    (s.emerged dev m.seq = false → exec (.pageMove dev fn va frame) s = .next s) ∧
    (∀ l, s.emerged dev m.seq = true → s.heldWrites = [] → u.leafOf dev fn m.va = some l →
      let v := ((u.count dev fn (if tierOf dev m.frame = some 0 then 0x202 else 0x203) 1).tierBytes dev m.size).writeM m.frame
        (u.mem.read l.frame m.size)
      (∀ k, v.leavesOf dev fn m.va = [k] → k.frame = l.frame →
        let pte := v.mem.num k.addr 8
        ∃ t, exec (.pageMove dev fn va frame) s = .next t ∧ m ∉ (t.tenant dev fn).moving ∧
          t.mem = (v.writeM k.addr (toBytes (pte - pteAddr pte + m.frame) 8)).mem))) ∧
  (∀ (s : State) (dev fn : Nat), (s.tenant dev fn).state = .running → fn ≠ 16 → (s.tenant dev fn).leaving = false →
    (s.tenant dev fn).quantumLeft = 0 →
    let x := s.tenant dev fn
    let cand := (s.others dev fn).filter fun o => (s.tenant dev o).state = .ready && s.readyRunnable dev o && s.conflict dev fn o
    (cand = [] → exec (.quantumExpiry dev fn) s = .next (s.newQuantum dev fn)) ∧
    (∀ b, cand = [b] →
      let y := s.tenant dev b
      (x.priority ≤ y.priority ∨ 15 ≤ y.passedOver →
        let u := (s.setTenant dev fn { x with leaving := true }).choose dev [b]
        exec (.quantumExpiry dev fn) s = .next (u.askHold (u.tilesOf dev fn))) ∧
      (y.priority < x.priority → y.passedOver < 15 → exec (.quantumExpiry dev fn) s =
        .next ((s.setTenant dev b { y with passedOver := y.passedOver + 1 }).newQuantum dev fn)))) ∧
  (∀ (s : State) (dev fn : Nat), let t := s.newQuantum dev fn
    (t.tenant dev fn).quantumLeft = (s.tenant dev fn).quantum ∧
    mapGet (t.tenant dev fn).counters 0x205 = some ((mapGet (s.tenant dev fn).counters 0x205).getD 0 + 1)) ∧
  (∀ (s : State) (dev fn : Nat), ∃ m, exec (.softPreemptTimeout dev fn) s = .next { s with regions := m } ∧
    ∀ l r, mapGet s.regions l = some r → ∃ q, mapGet m l = some q ∧
      (∀ since hard, deviceOf l = dev → r.fn = fn → r.phase ≠ .held → r.preempt = some (since, hard) →
        since + 65536 ≤ (s.die (dieOf l)).cycle → q = { r with preempt := some (since, true) }) ∧
      (deviceOf l ≠ dev ∨ r.fn ≠ fn ∨ r.phase = .held ∨ r.preempt = none ∨
        (∃ since hard, r.preempt = some (since, hard) ∧ (s.die (dieOf l)).cycle < since + 65536) → q = r)) ∧
  (∀ (s : State) (dev fn : Nat), (s.tenant dev fn).state = .ready → fn ≠ 16 → (s.device dev).frozen = false →
    s.steady (s.tilesOf dev fn) = true → s.mayStart dev fn = true → (∀ t ∈ s.tilesOf dev fn, s.ownerOn t = false) →
    (∀ u va f, s.loadTree dev fn = .fault u va f → exec (.quantumGrant dev fn) s = .next (u.fatal dev fn 0x47)) ∧
    (∀ u rcbs, s.loadTree dev fn = .ok u rcbs →
      let v := u.setTenant dev fn { u.tenant dev fn with rcbs := rcbs }
      let images := State.readRun (2 * dev) 16 none fn dev v (v.saveBase dev fn) (s.tilesOf dev fn)
      (∀ w va f, images = .fault w va f → exec (.quantumGrant dev fn) s = .next (w.fatal dev fn 0x23)) ∧
      (∀ w ims, images = .ok w ims → ∃ t, exec (.quantumGrant dev fn) s = .next t ∧ (t.tenant dev fn).away = none ∧
        (t.tenant dev fn).waited = 0 ∧ (t.tenant dev fn).passedOver = 0))) ∧
  (∀ (s : State) (dev fn : Nat), s.mayStart dev fn = false → exec (.quantumGrant dev fn) s = .next s) ∧
  (∀ (s : State) (dev fn : Nat), (s.tenant dev fn).state = .running → s.runnable dev fn = true →
    (s.hangLimit dev fn ≤ (s.tenant dev fn).idleMicros → exec (.hang dev fn) s = .next (s.fatal dev fn 0x44)) ∧
    ((s.tenant dev fn).idleMicros < s.hangLimit dev fn → exec (.hang dev fn) s = .next s))

/-- R355, R357 to R360, R363 to R369: two ends that name each other with one name and depth pair and report, and with two depths, or
where they are not of one tenant that holds both tiles, fail with 0x10; a stream's token leaves the fo port while fewer than
the depth are outstanding, and enters the fi port; the close mark unbinds a receive end whose `sclose` waits; a data frame
next in sequence is accepted and acknowledged, and one that fails or is out of sequence is discarded with a nak;
acknowledged frames are released in order, and a nak sends the others again; either wakes the die; a key renewal gives both ends the next key and
flips the sender's parity; a training keeps what the receiver had not accepted; a lane that fails retrains the port down to
four lanes; and a link goes down. The ack frame that answers each data frame, the waits and the numbering of a key renewal and
of a training, and which ports are joined are the model's reading (DEDUCED, log entry 47). -/
def Obligations.LinkActs : Prop :=
  (∀ (s : State) (t p u q : Nat) (a b : StreamEnd), p < 64 → q < 64 → s.streamEnd t p = some a → s.streamEnd u (64 + q) = some b →
    a.paired = false → b.paired = false → a.names u q = true → b.names t p = true → a.name = b.name →
    s.endMay t p a = true → s.endMay u (64 + q) b = true → s.noPath (deviceOf t) (deviceOf u) = false →
    (a.depth = b.depth → a.fn = b.fn → s.tileOfFn a.fn u = true → s.tileOfFn a.fn t = true →
      let v := (s.setEnd t p { a with paired := true, peer := b.cmd }).setEnd u (64 + q) { b with paired := true, peer := a.cmd }
      exec (.streamPair (t * 64 + p) (u * 64 + q)) s = .next ((v.pairReport a.cmd).pairReport b.cmd)) ∧
    (a.depth ≠ b.depth ∨ a.fn ≠ b.fn ∨ s.tileOfFn a.fn u = false ∨ s.tileOfFn a.fn t = false → exec (.streamPair (t * 64 + p) (u * 64 + q)) s =
      .next ((s.endFault t p 0x10).endFault u (64 + q) 0x10))) ∧
  (∀ (s : State) (t p : Nat) (a : StreamEnd) (k : Token) (r : List Token), p < 64 →
    (∀ x ∈ s.receivers t p, s.noPath (deviceOf t) (deviceOf x.1) = false ∧
      ∀ e, s.streamEnd x.1 x.2 = some e → s.inTransit e.cmd = []) →
    s.streamEnd t p = some a → a.paired = true → s.noPath (deviceOf t) (deviceOf a.farTile) = false → s.endMay t p a = true →
    ((s.tile t).foPort p).q = k :: r → a.closing = none → s.closer t p = none →
    let n := s.outstanding a
    (n < a.depth →
      let v := (s.popFo t p).carryToken t a.farTile
      exec (.streamTokenTransfer (t * 64 + p)) s = .next ((v.setTransit a.peer (v.inTransit a.peer ++ [k])).setEnd t p
        { a with out := n + 1, carried := a.carried + 1 })) ∧
    (a.depth ≤ n → exec (.streamTokenTransfer (t * 64 + p)) s = .next (s.setEnd t p { a with out := n }))) ∧
  (∀ (s : State) (t p u k : Nat) (e : StreamEnd) (w : Token) (r : List Token), p < 64 → s.receivers t p = [(u, k)] →
    s.noPath (deviceOf t) (deviceOf u) = false → s.streamEnd u k = some e → s.inTransit e.cmd = w :: r → w ≠ closeMark →
    e.paired = true → s.endMay u k e = true → ((s.tile u).fiPort (k - 64)).room = true →
    let v := ((s.pushFi u (k - 64) w).setEnd u k { e with carried := e.carried + 1 }).setTransit e.cmd r
    v.streamEnd t p = none → exec (.streamTokenTransfer (t * 64 + p)) s = .next v) ∧
  (∀ (s : State) (u q : Nat) (e : StreamEnd), q < 64 → s.streamEnd u (64 + q) = some e → e.paired = true →
    s.endMay u (64 + q) e = true → (s.inTransit e.cmd).head? = some closeMark →
    let v := (s.setTransit e.cmd []).setEnd u (64 + q) { e with marked := true }
    (v.closer u (64 + q) = none → exec (.streamCloseMark (u * 64 + q)) s = .next v) ∧
    (∀ n c, v.closer u (64 + q) = some (n, c) →
      exec (.streamCloseMark (u * 64 + q)) s = .next ((v.unbind u (64 + q) e).portDone n c (4 * e.carried)))) ∧
  (∀ (s : State) (port : Nat) (frame : List Word), s.portUp port = true →
    let bs := wordBytes frame
    let h := numAt bs 0 16
    let w := s.wakeDie (port / 8)
    let u := w.acknowledge port (h / 2 ^ 28 % 2 ^ 12)
    let l := w.link (linkIn port)
    let next := decide (h / 2 ^ 16 % 2 ^ 12 = l.accepted % 2 ^ 12)
    let receives (t : State) : Prop := exec (.frameReceive port frame) s = .next t
    (frameOk bs = false → receives (w.reply port 2)) ∧
    (frameOk bs = true →
      (∀ blocks, h % 256 = 0 → next = true → w.frameBlocks port bs = some blocks →
        let key := decide (h / 2 ^ 64 % 2 = 1)
        receives ((u.setLink (linkIn port) { l with
          accepted := l.accepted + 1, payload := l.payload ++ blocks, kep := key
          keys := if key = l.kep then l.keys else l.keys.filter fun k => k.1 = key.toNat }).reply port 1)) ∧
      (h % 256 = 0 → next = false → receives (u.reply port 2)) ∧
      (h % 256 = 0 → next = true → w.frameBlocks port bs = none → receives (w.reply port 2)) ∧
      (h % 256 = 2 → receives (u.replay port)) ∧ (h % 256 = 1 ∨ h % 256 = 3 → receives u))) ∧
  (∀ (s : State) (port ack : Nat), s.portUp port = true →
    let w := s.wakeDie (port / 8)
    let l := s.link (linkOut port)
    let released (k : Nat) : Link := ({ l with unacked := l.unacked.drop (k + 1), sentBase := l.sentBase + k + 1 } : Link).eraseKeys
    let answers (k : Nat) : Prop := (l.sentBase + k) % 2 ^ 12 = ack % 2 ^ 12
    (∀ k, k < l.unacked.length → answers k → (∀ j, j < k → ¬ answers j) →
      exec (.ackReceive port ack) s = .next (w.setLink (linkOut port) (released k)) ∧
      exec (.nakReceive port ack) s = .next ((w.setLink (linkOut port) (released k)).replay port)) ∧
    ((∀ k, k < l.unacked.length → ¬ answers k) → exec (.ackReceive port ack) s = .next w ∧
      exec (.nakReceive port ack) s = .next (w.replay port))) ∧
  (∀ n, n % 2 = 0 → senderOf n = some n) ∧
  (∀ (s : State) (n o : Nat), senderOf n = some o → (s.link o).down = false → (s.die (o / 16)).lost = false →
    s.keyless (o / 2) = false →
    let l := s.link o
    let u := s.freshKey.1
    let key := s.freshKey.2
    let held : Link := ({ l with keys := mapSet l.keys (!l.kep).toNat key, kep := !l.kep, used := 0 } : Link).eraseKeys
    ((∃ x ∈ l.unacked, x.1 ≠ l.kep) → exec (.keyRenewal n) s = .next s) ∧
    ((∀ x ∈ l.unacked, x.1 = l.kep) →
      (partnerPort (o / 2) = none → exec (.keyRenewal n) s = .next (u.setLink o held)) ∧
      (∀ q, partnerPort (o / 2) = some q →
        let r := u.link (linkIn q)
        exec (.keyRenewal n) s = .next ((u.setLink (linkIn q) { r with
          kep := l.kep, keys := mapSet (r.keys.filter fun k => k.1 = l.kep.toNat) (!l.kep).toNat key }).setLink o held)))) ∧
  (∀ (s : State) (o i : Nat), o ≠ i →
    let t := s.trainDirection o i
    (t.link o).sentBase = 0 ∧ (t.link i).accepted = 0 ∧ (t.link o).keys = (t.link i).keys ∧
    (t.link o).unacked.map Prod.snd = ((s.link o).unacked.drop ((s.link i).accepted - (s.link o).sentBase)).map Prod.snd) ∧
  (∀ (s : State) (n : Nat), (s.link n).down = false →
    let u := s.setLink n { s.link n with lanes := (s.link n).lanes - 1 }
    (4 < (s.link n).lanes → exec (.laneFailure n) s = .next (u.trainPort (n / 2))) ∧
    ((s.link n).lanes ≤ 4 → exec (.laneFailure n) s = .next (u.dropLink (n / 2)))) ∧
  (∀ (s : State) (port : Nat),
    let down (u : State) (p : Nat) : State :=
      let v := u.setLink (linkOut p) { u.link (linkOut p) with down := true }
      v.setLink (linkIn p) { v.link (linkIn p) with down := true }
    let drops (v : State) : Prop := v.lostEnds = [] → exec (.linkDown port) s = .next v
    (partnerPort port = none → drops (down s port)) ∧
    (∀ q, partnerPort port = some q → drops (down (down s port) q)))

/-! ### The platform -/

/-- R336, R342, R352, R396, R397, R402, R408: an uncorrectable memory error, a thermal trip, a lost die, a tile without a spare and a
level 2 alarm, which erases its key too, make the tenants that they hit fatal, and a level 1 alarm is logged; the host writes a
queue's tail and registers, and the device submits the next entry to a free context of the home tile's die, or stops the queue
at a malformed one. Where the entries of a queue lie, and what a lost die, a tripped one and a failed tile take with them, are
the model's reading (DEDUCED, log entries 48 and 49). -/
def Obligations.FaultsAndQueues : Prop :=
  (∀ (s : State) (dev fn : Nat),
    ((s.tenant dev fn).state ≠ .absent → exec (.eccUncorrectable dev fn) s = .next (s.fatal dev fn 0x53)) ∧
    ((s.tenant dev fn).state = .absent → exec (.eccUncorrectable dev fn) s = .next s)) ∧
  (∀ (s : State) (g : Nat),
    let stopped (u : State) : State := u.setDie g { u.die g with stopped := true }
    (s.tenantsOn g = [] → exec (.thermalTrip g) s = .next (stopped s)) ∧
    (∀ fn, s.tenantsOn g = [fn] → exec (.thermalTrip g) s = .next (stopped (s.fatal (g / 2) fn 0x55))) ∧
    ((∀ x ∈ s.regions, x.2.fn ≠ 16) →
      let lost (u : State) : State := { u.setDie g { u.die g with lost := true } with strikes := u.strikes ++ [(g / 2, g % 2, 16)] }
      (s.tenantsOn g = [] → exec (.dieLost g) s = .next (lost s)) ∧
      (∀ fn, s.tenantsOn g = [fn] → exec (.dieLost g) s = .next (lost (s.fatal (g / 2) fn 0x51)))) ∧
    (let u := s.free.1
     let t := g % 2 * 80 + s.free.2.toNat % 80
     let out (w : State) : State :=
       w.setDie g { w.die g with disabled := ((g / 2 * 160 + t) :: (w.die g).disabled).eraseDups }
     ((∀ fn ∈ s.others (g / 2) 16, s.ownsTile (g / 2) fn t = false) → exec (.spareExhausted g) s = .next (out u)) ∧
     (∀ fn, s.others (g / 2) 16 = [fn] → s.ownsTile (g / 2) fn t = true →
       exec (.spareExhausted g) s = .next (out (u.fatal (g / 2) fn 0x56))))) ∧
  (∀ (s : State) (dev fn : Nat),
    exec (.securityAlarm dev 1 fn) s = .next (s.setDevice dev { s.device dev with errorLog := (s.device dev).errorLog ++ [1] }) ∧
    ((s.tenant dev fn).state ≠ .absent → fn ≠ 16 → ∃ t, exec (.securityAlarm dev 2 fn) s = .next t ∧
      (t.tenant dev fn).key = none ∧ (t.tenant dev fn).state = .fatal) ∧
    (∃ t, exec (.securityAlarm dev 3 fn) s = .next t ∧ (t.device dev).frozen = true ∧ (t.device dev).ownerKey = none)) ∧
  (∀ (s : State) (dev fn q tail v : Nat), q < 8 →
    s.hostReaches dev = true →
    let x := s.subQueue dev fn q
    exec (.doorbell dev fn q tail) s = .next ((s.wakeDevice dev).setSubQueue dev fn q { x with tail := BitVec.ofNat 16 tail }) ∧
    exec (.queueRegisterWrite dev fn q 0 v) s = .next (s.setSubQueue dev fn q { x with qbase := BitVec.ofNat 64 (v / 4096 * 4096) }) ∧
    exec (.queueRegisterWrite dev fn q 8 v) s = .next (s.setSubQueue dev fn q { x with
      err := x.err && !v.testBit 9, enable := v.testBit 8 && decide (4 ≤ v % 32) && decide (v % 32 ≤ 16), qsize := BitVec.ofNat 5 v }) ∧
    exec (.queueRegisterWrite dev fn q 0x10 v) s =
      .next ((s.wakeDevice dev).setSubQueue dev fn q { x with tail := BitVec.ofNat 16 v })) ∧
  (∀ (s : State) (dev fn q : Nat),
    let x := s.subQueue dev fn q
    x.enable = true → x.head.toNat ≠ x.tail.toNat % 2 ^ x.qsize.toNat → s.mayRun dev fn = true → (s.device dev).frozen = false →
    s.hostReaches dev = true → s.dieStopped (2 * dev) = false →
    let v := s.mem.num (hostPa dev (x.qbase.toNat + 64 * (x.head.toNat % 2 ^ x.qsize.toNat))) 64
    let home := dev * 160 + bitsOf v 87 80
    let takes := s.takeCtx fn home (bitsOf v 51 0) (bitsOf v 79 64) (s.coreOf home).user
    (s.entryBad dev fn v = true → exec (.queueEntrySubmit dev fn q) s =
      .next (s.setSubQueue dev fn q { x with err := true, enable := false })) ∧
    (s.entryBad dev fn v = false → (takes.2 = none → exec (.queueEntrySubmit dev fn q) s = .next s) ∧
      (∀ n, takes.2 = some n → exec (.queueEntrySubmit dev fn q) s = .next (takes.1.setSubQueue dev fn q
        { x with head := BitVec.ofNat 16 ((x.head.toNat + 1) % 2 ^ x.qsize.toNat) })))) ∧
  (∀ (s : State) (dev fn q tail off v : Nat),
    (s.hostReaches dev = true → 8 ≤ q →
      exec (.doorbell dev fn q tail) s = .next (s.wakeDevice dev) ∧ exec (.queueRegisterWrite dev fn q off v) s =
        .next (if off = 0x10 then s.wakeDevice dev else s)) ∧
    (s.hostReaches dev = false →
      exec (.doorbell dev fn q tail) s = .next s ∧ exec (.queueRegisterWrite dev fn q off v) s = .next s ∧
      exec (.queueEntrySubmit dev fn q) s = .next s))

/-- R3, R86, R347, R395, R399, R400, R403, R404, R406, R408, R409: host reads and writes of an exposed HBM range, and the named
fault elsewhere; bring-up under a free device number and a tile reset; SPDM, management and debugging, which need the host port;
a step change that is denied, or that holds the regions, ramps, switches and releases them, and one step for both dies where a
region spans them; idle states; the end of a counter period; and a core that stands, whose waits do not end. The codes of SPDM, management and debugger messages, and what
takes part in a tile reset, are the model's choice (log entries 50 and 51), a step that is denied, the quiet die and when a
debugger has let go of a core its reading (log entries 52 and 71), and the fault of an access where no memory is placed is its
own (log entry 8). -/
def Obligations.PlatformActs : Prop :=
  (∀ (s : State) (dev addr write v : Nat), let a := addr / 64 * 64
    let w := s.wakeDevice dev
    (a + 64 ≤ hbmBytes → coveredBy ((s.device dev).hdm.take 2) a 64 = true → s.hostReaches dev = true →
      exec (.hostCxlMemAccess dev addr write v) s = .next (if write = 0 then w else w.writeM (dev * 2 ^ 50 + a) (toBytes v 64))) ∧
    (hbmBytes < a + 64 ∨ coveredBy ((s.device dev).hdm.take 2) a 64 = false ∨ s.hostReaches dev = false →
      exec (.hostCxlMemAccess dev addr write v) s = .fault (.unpopulated addr))) ∧
  (∀ (s : State) (dev strap base : Nat), let number := (s.device dev).nextNumber.getD strap
    (number < 64 → number ∉ s.node.filter (· ≠ dev) → ∃ t, exec (.powerOnReset dev strap base) s = .next t ∧
      number ∈ t.node ∧ (t.device number).number = number ∧ (t.device number).table = base) ∧
    (64 ≤ number ∨ number ∈ s.node.filter (· ≠ dev) → ∃ t, exec (.powerOnReset dev strap base) s = .next t ∧
      dev ∉ t.node ∧ (t.device dev).up = false ∧ (t.die (2 * dev)).stopped = true ∧ (t.die (2 * dev + 1)).stopped = true)) ∧
  (∀ (s : State) (t fn : Nat), ((s.resetTile t fn).coreOf t).run = .idle ∧ ((s.resetTile t fn).coreOf t).tenant = 0) ∧
  (∀ (s : State) (t : Nat), (∀ r ∈ s.regions, t ∉ r.2.tiles) →
    let u := (s.dropCmds fun _ c => c.tile = t).dropReports fun r => r.tile = t
    exec (.tileReset t) s = .next (u.resetTile t (fnOf (u.coreOf t).fn))) ∧
  (∀ (s : State) (dev v : Nat), let d := s.device dev
    (s.hostPort dev = true →
      (v ≠ 0 → exec (.spdmRequest dev v) s = .next s) ∧
      exec (.spdmRequest dev 0) s = .next (s.setDevice dev { d with errorLog := d.errorLog ++ [1] }) ∧
      (d.up = false → exec (.managementMessage dev 3 v) s = .next (s.setDevice dev { d with nextNumber := some (v % 64) })) ∧
      (∀ k, k ≠ 3 ∨ d.up = true → exec (.managementMessage dev k v) s = .next s) ∧
      exec (.jtagOpen dev v) s = .next (s.setDevice dev { d with measured := mapSet d.measured 4 v, debug := v, jtag := true })) ∧
    (s.hostPort dev = false → ∀ k, exec (.spdmRequest dev v) s = .next s ∧ exec (.managementMessage dev k v) s = .next s ∧
      exec (.jtagOpen dev v) s = .next s)) ∧
  (∀ (s : State) (t : Nat), let c := s.coreOf t
    (s.debuggable t = true → c.run = .running → exec (.debugHold t) s = .next (s.setCore t { c with held := true, attached := true })) ∧
    (s.debuggable t = true → (∀ w, c.run = .waiting w → (∀ n, w ≠ .streamQueue n) →
      exec (.debugHold t) s = .next (s.setCore t { c with run := c.run.saved, held := true, attached := true }))) ∧
    (s.debuggable t = false → exec (.debugHold t) s = .next s) ∧
    (c.held = true → exec (.debuggerRelease t) s = .next (s.setCore t { c with held := false })) ∧
    (c.held = false → exec (.debuggerRelease t) s = .next (s.setCore t { c with attached := false })) ∧
    (c.held = false ∨ s.debuggable t = false → ∀ what i w v, exec (.debuggerAccess t what i w v) s = .next s) ∧
    (c.held = true → s.debuggable t = true → ∀ i v w,
      (i < 32 → exec (.debuggerAccess t 0 i 1 v) s = .next (s.setCore t (c.setReg (BitVec.ofNat 5 i) (BitVec.ofNat 64 v)))) ∧
      exec (.debuggerAccess t 0 32 1 v) s = .next (s.setCore t { c with pc := BitVec.ofNat 48 v }) ∧
      exec (.debuggerAccess t 0 i 0 v) s = .next s ∧
      (i + 7 ≤ spLast → exec (.debuggerAccess t 1 i 0 v) s = .next s ∧
        (let drained := (drainView s (coreAgent t) c.view fun a => inRange (spBase t + i) 8 a).1
         ∃ u, exec (.debuggerAccess t 1 i 1 v) s = .next u ∧ u.mem = (drained.writeM (spBase t + i) (toBytes v 8)).mem)) ∧
      (spLast < i + 7 → exec (.debuggerAccess t 1 i w v) s = .fault (.unpopulated i)))) ∧
  (∀ (s : State) (dev a b : Nat), s.spans dev = true → (s.die (2 * dev)).stepState = .run → (s.die (2 * dev + 1)).stepState = .run →
    (s.die (2 * dev)).step = a → (s.die (2 * dev + 1)).step = b → a ≠ b →
    (s.die (2 * dev)).vfloor ≤ stepVoltage (max a b) → (s.die (2 * dev + 1)).vfloor ≤ stepVoltage (max a b) →
    ((s.equalise dev).die (2 * dev)).stepState = .holding (max a b) ∧
    ((s.equalise dev).die (2 * dev + 1)).stepState = .holding (max a b)) ∧
  (∀ (s : State) (g target : Nat), s.spans (g / 2) = false → s.stepDies g = [g] → s.stepping g = [g] →
    let d := s.die g
    (d.stepState = .run → target ≤ 10 → d.ceiling ≤ target → target ≠ d.step →
      (170 - 4 * target < d.vfloor → exec (.stepChangeRequest g target) s =
        .next (s.setDie g { d with denied := true, throttled := true })) ∧
      (d.vfloor ≤ 170 - 4 * target → s.regionsOfDies [g] = [] → exec (.stepChangeRequest g target) s =
        .next (s.setDie g { d with stepState := .holding target }))) ∧
    (10 < target ∨ target < d.ceiling ∨ d.stepState ≠ .run ∨ target = d.step → exec (.stepChangeRequest g target) s = .next s) ∧
    (d.stepState = .holding target →
      ((∀ r ∈ s.regionsOfDies [g], r.2.phase = .held ∨ r.2.phase = .waiting) →
        (target < d.step → exec (.stepHoldsDone g) s = .next (s.setDie g { d with vnow := 170 - 4 * target, stepState := .ramp target })) ∧
        (d.step ≤ target → exec (.stepHoldsDone g) s = .next (s.setDie g { d with step := target, stepState := .ramp target }))) ∧
      (∀ r ∈ s.regionsOfDies [g], r.2.phase = .running → exec (.stepHoldsDone g) s = .next s)) ∧
    (d.stepState = .ramp target →
      (d.step = target → exec (.stepRampDone g) s = .next (s.setDie g { d with vnow := 170 - 4 * target, stepState := .switch target })) ∧
      (d.step ≠ target → exec (.stepRampDone g) s = .next (s.setDie g { d with step := target, stepState := .switch target }))) ∧
    (d.stepState = .switch target → s.regionsOfDies [g] = [] →
      exec (.stepSwitchDone g) s = .next (s.setDie g { d with stepState := .run, denied := false, throttled := false }))) ∧
  (∀ (s : State) (g : Nat), let d := s.die g
    (∀ k, d.idle < k → s.dieQuiet g = true → d.stepState = .run →
      (k = 3 ∧ 1500 ≤ d.tolerance ∧ 5000 ≤ d.idleMicros) ∨
        (k = 2 ∧ 60 ≤ d.tolerance ∧ 200 ≤ d.idleMicros ∧ (d.tolerance < 1500 ∨ d.idleMicros < 5000)) ∨
        (k = 1 ∧ 2 ≤ d.tolerance ∧ 10 ≤ d.idleMicros ∧ (d.tolerance < 60 ∨ d.idleMicros < 200)) →
      exec (.idleEntry g) s = .next (s.setDie g { d with idle := k })) ∧
    (s.dieQuiet g = false ∨ d.tolerance < 2 ∨ d.idleMicros < 10 → exec (.idleEntry g) s = .next s) ∧
    (s.dieQuiet g = false → d.idle ≠ 0 → exec (.idleWake g) s = .next (s.setDie g { d with idle := 0, idleMicros := 0 })) ∧
    (s.dieQuiet g = true ∨ d.idle = 0 → exec (.idleWake g) s = .next s)) ∧
  (∀ (s : State) (dev fn : Nat), let x := s.tenant dev fn
    (x.periodAge < periodMicros x.desc → exec (.counterPeriodEnd dev fn) s = .next s) ∧
    (periodMicros x.desc ≤ x.periodAge → ∃ p, exec (.counterPeriodEnd dev fn) s =
        .next (s.setTenant dev fn { x with period := p, periodAge := 0 }) ∧
      ∀ x i, x < 2 → i < 5 → mapGet p (periodKey x (0x300 + i)) =
        some (BitVec.ofNat 64 (((mapGet (s.die (2 * dev + x)).counters (0x300 + i)).getD 0).toNat / 4096 * 4096)))) ∧
  (∀ (s : State) (t : Nat), s.coreStands t = true →
    ∀ i ∈ [Instr.fputResume t, .fgetResume t, .fgetTimeout t, .fcntResume t, .beatInsnResume t, .writeOnceReadResume t,
      .streamQueueAdmit t, .wfeWake t, .bwaitObserve t, .gsendResume t, .groupInstall t, .draftWaitEnd t, .relatchDone t,
      .relatchTimeout t, .actorFiring t], exec i s = .next s) ∧
  (∀ (s : State) (t : Nat), s.tileStops t = true ∨ (s.coreOf t).held = true → s.coreStands t = true)

/-! ### Steps, words and reset -/

namespace Sys2Proof.Rules

/-- The turn t is next, and u is the machine without it. -/
abbrev Turns (s : State) (t : Turn) (u : State) : Prop := ∃ rest, s.sched = t :: rest ∧ u = { s with sched := rest }

/-- The core of tile t takes its turn in u: it runs, no debugger holds it, its die's clock runs, no save waits for it, its tile is
not disabled, no RUNNING tenant holds the tile of the owner's, and no imprecise fault is left to take. -/
abbrev CoreTurn (u : State) (t : Nat) : Prop :=
  (u.coreOf t).run = .running ∧ (u.coreOf t).held = false ∧ u.dieStopped (dieOf t) = false ∧ u.standsForSave t = false ∧
  u.disabled t = false ∧ (fnOf (u.coreOf t).fn = 16 → u.tenantOn t = false) ∧ (u.coreOf t).imprecise = []

/-- The fields of form A of an instruction with the guard p0 and no modifier. -/
abbrev plainA (b a d : BitVec 5) : FormA := { sub := 0, gn := false, guard := 0, b := b, a := a, d := d }

end Sys2Proof.Rules

/-- R23, R24, R31, R126, R227, R268, R336: a step runs what the next turn names. A core's turn takes an imprecise fault first; else
it fetches the words at its pc, and when they decode to an instruction the step is `exec` of it, with the core's tile and the
words noted; words that do not decode raise their cause, and a fetch that fails raises its own. A unit's turn runs its slot's
word, a layout engine's turn the word at its place, and an act's turn the act. The schedule of turns, any turn where it lists
none, and turns by which time passes, no further than to the limit of an `fget` or to what a tenant's intervals make due, are the model's choice (log entry
1) and its reading of time (log entry 7). -/
def Obligations.StepRuns : Prop :=
  (∀ (s u : State) (t : Nat), Turns s (.core t) u → CoreTurn u t →
    (∀ w x y z i, u.fetch t = .words w x y z → decodeScalar w x y z = .ok i →
      step s = exec i { u with cur := t, ir := unpackStream w x y z }) ∧
    (∀ w x y z e, u.fetch t = .words w x y z → decodeScalar w x y z = .error e →
      step s = .next (u.takeTrap t (decodeCause e) (u.coreOf t).pc64 (w.setWidth 64))) ∧
    (∀ code fval, u.fetch t = .fails code fval → step s = .next (u.takeTrap t code (u.coreOf t).pc64 fval))) ∧
  (∀ (s u : State) (t : Nat) (code : BitVec 7) (fval : Dword) (r : List (BitVec 7 × Dword)), Turns s (.core t) u →
    CoreTurn (u.setCore t { u.coreOf t with imprecise := [] }) t → (u.coreOf t).imprecise = (code, fval) :: r →
    step s = .next ((u.setCore t { u.coreOf t with imprecise := r }).takeTrap t code (u.coreOf t).pc64 fval)) ∧
  (∀ (s u : State) (t slot l : Nat) (r : Region), Turns s (.unit t slot) u → u.regionOf t = some (l, r) → r.acts = true →
    (u.tile t).parity.contains slot = false → u.mayRun (deviceOf t) r.fn = true → u.dieStopped (dieOf t) = false →
    u.disabled t = false →
    let w := (u.tile t).slot slot
    (slot < 328 → (unpackEl w).enable = true → ∀ i, decodeEl w = .ok i → step s = exec i { u with cur := t, slot := slot }) ∧
    (328 ≤ slot → slot < 360 → (unpackRouter (w.setWidth 64)).enable = true → ∀ i, decodeRouter (w.setWidth 64) = .ok i →
      step s = exec i { u with cur := t, slot := slot })) ∧
  (∀ (s u : State) (e : Nat) (l : LayoutRun) (c : Cmd) (w : Word), Turns s (.layout e) u → u.layoutRun e = some l →
    mapGet u.cmds l.cmd = some c → (u.age (layoutAge (e / 16) (e % 16 - 8))).stopped = none → u.mayRun (e / 32) c.fn = true →
    u.dieStopped (e / 16) = false → l.prog[l.pc]? = some w → ∀ i, decodeLayout w = .ok i → step s = exec i { u with engine := e }) ∧
  (∀ (s u : State) (i : Instr), Turns s (.act i) u → step s = exec i u) ∧
  (∀ (s u : State) (g n : Nat), Turns s (.cycles g n) u → u.dieStopped g = false →
    ∃ v k, step s = .next v ∧ k ≤ n ∧ (v.die g).cycle = (u.die g).cycle + k ∧
    let limited (r : Nat → Prop) : Prop := ∀ t port since limit d before, dieOf t = g →
      Waits u t (.fget port d (some limit) since before) → r (since + limit)
    (limited (fun e => (u.die g).cycle + n ≤ e) → k = n) ∧ (0 < k → limited fun e => (u.die g).cycle + k ≤ e)) ∧
  (∀ (s u : State) (d n : Nat), Turns s (.micros d n) u → ∃ v k, step s = .next v ∧ k ≤ n ∧
    (v.device d).micros = (u.device d).micros + k ∧
    ((∀ x ∈ (u.device d).tenants, x.1 = 16 ∨ x.2.mayPass n = n) → k = n)) ∧
  (∀ s : State, s.sched = [] → step s = step { s with sched := [Config.sched s.tick], tick := s.tick + 1 })

/-- R23, R24, R31 steps 1 to 5, R36, R231: a fetch reads the words at the pc as the core sees the scratchpad, as many as the length
code of the first one says; an address that is not aligned raises 0x05, and the first address of a word beyond 0x2F_FFFF
raises 0x06. An op or a sub value that is not allocated is rejected as 0x01 before a form or a reserved field is looked at,
which are 0x02; a stream command's code and fields are rejected as 0x10, and only then its port as 0x11. -/
def Obligations.FetchAndDecode : Prop :=
  (∀ (s : State) (t : Nat),
     let pc := (s.coreOf t).pc.toNat
     let seen (a : Nat) : Word := BitVec.ofNat 32 (s.viewNum (s.coreOf t).view (spBase t + a) 4)
     (pc % 4 ≠ 0 → s.fetch t = .fails 0x05 (BitVec.ofNat 64 pc)) ∧
     (pc % 4 = 0 → 0x300000 ≤ pc → s.fetch t = .fails 0x06 (BitVec.ofNat 64 pc)) ∧
     (pc % 4 = 0 → pc + 4 * wordCount (seen pc) ≤ 0x300000 → s.fetch t = .words (seen pc) (seen (pc + 4)) (seen (pc + 8)) (seen (pc + 12))) ∧
     (pc % 4 = 0 → pc < 0x300000 → 0x300000 < pc + 4 * wordCount (seen pc) → s.fetch t = .fails 0x06 0x300000) ∧
     (∀ w : Word, wordCount w = w.toNat % 4 + 1)) ∧
  (∀ w x y z : Word,
     let op := w.toNat / 4 % 256
     let code := w.toNat / 4 % 64
     let c := unpackStream w x y z
     (w.toNat % 4 ≠ 3 →
       (opAllocated op = false → decodeScalar w x y z = .error .illegalOp) ∧
       (opAllocated op = true → subAllocated op (w.extractLsb' 29 3) = false → decodeScalar w x y z = .error .illegalOp) ∧
       (opAllocated op = true → subAllocated op (w.extractLsb' 29 3) = true →
         (w.toNat % 4 = 0 → fieldsOkA op (unpackA w) = false → decodeScalar w x y z = .error .illegalForm) ∧
         (w.toNat % 4 ≠ 0 → w.toNat / 2 ^ 20 % 32 ≠ 0 → decodeScalar w x y z = .error .illegalForm) ∧
         (w.toNat % 4 = 1 → fieldsOkB op (unpackB w x) = false → decodeScalar w x y z = .error .illegalForm) ∧
         (w.toNat % 4 = 2 → fieldsOkC op (unpackC w x y) = false → decodeScalar w x y z = .error .illegalForm))) ∧
     (w.toNat % 4 = 3 →
       (0x16 ≤ code → decodeScalar w x y z = .error .streamCmd) ∧
       (code < 0x16 → streamFieldsOk code c = false → decodeScalar w x y z = .error .streamCmd) ∧
       (code < 0x16 → streamFieldsOk code c = true → streamRangeOk code c = false → decodeScalar w x y z = .error .portRange)))

/-- Words that the manual writes out (R25 to R47), as instructions. -/
def Obligations.SampleWords : Prop :=
  decodeWords [0x00208C40] = .ok (.addA (plainA 2 1 3)) ∧
  decodeWords [0x00008C41, 0x0000000C] =
    .ok (.addB { sub := 0, gn := false, guard := 0, a := 1, d := 3, ext16 := 0, imm16 := 12 }) ∧
  decodeWords [0x403088C0] = .ok (.cmpA { plainA 3 1 2 with sub := 2 }) ∧
  decodeWords [0x52021505, 0x00000008] =
    .ok (.stB { sub := 2, gn := true, guard := 1, a := 4, d := 5, ext16 := 0, imm16 := 8 }) ∧
  decodeWords [0xA04118BC] = .ok (.addcpA { plainA 4 2 6 with sub := 5 }) ∧
  decodeWords [0x00D7C990] = .ok (.fmsA (plainA 13 15 18)) ∧
  decodeWords [0x0062154C] = .ok (.cas (plainA 6 4 5)) ∧
  decodeWords [0x40521954] = .ok (.barvA { plainA 5 4 6 with sub := 2 }) ∧
  decodeWords [0x000191C5, 0x00000040] =
    .ok (.fgetB { sub := 0, gn := false, guard := 0, a := 3, d := 4, ext16 := 0, imm16 := 64 }) ∧
  decodeWords [0x000011E0] = .ok (.bget (plainA 0 0 4)) ∧
  decodeWords [0x0000021C] = .ok (.yield (plainA 0 0 0)) ∧
  decodeWords [0x00521A60] = .ok (.sdq (plainA 5 4 6)) ∧
  decodeWords [0x60521A88] = .ok (.relatch { plainA 5 4 6 with sub := 3 }) ∧
  decodeWords [0x00001281, 0x00000005] =
    .ok (.sget { sub := 0, gn := false, guard := 0, a := 0, d := 4, ext16 := 0, imm16 := 5 }) ∧
  decodeWords [0x0903802B, 0x24, 0x25, 0x6] = .ok .scopy ∧
  decodeWords [0x0703000F, 0x24, 0xC5, 0] = .ok .sage ∧
  decodeWords [0x06040227, 0x24, 0x5, 0] = .ok .smat ∧
  decodeEl 0x00000000_40000000_00003FF4_0C0C0290 = .ok .elFadd ∧
  decodeWords [0x00000001] = .error .illegalForm

namespace Sys2Proof.Rules

/-- The instructions of form A (R25). -/
def scalarA : List (FormA → Instr) :=
  [.ret, .jr, .done, .wfe, .eret, .brk, .addA, .subA, .andA, .orA, .xorA, .andnA, .shlA, .shrA, .sarA, .rotlA, .minA, .maxA,
   .minuA, .maxuA, .selA, .movA, .mulA, .mulhA, .mulhuA, .divA, .divuA, .remA, .remuA, .clz, .ctz, .popc, .extA, .brev, .bswap,
   .addcpA, .cmpA, .pand, .por, .pxor, .pnot, .pget, .leaA, .ldA, .stA, .ldpA, .stpA, .gldA, .gstA, .amo, .cas, .phase, .barvA,
   .bwait, .bexpA, .tlook, .tinsA, .tevict, .faddA, .fsubA, .fmulA, .fmaA, .fmsA, .fnmaA, .fdivA, .fsqrt, .fminA, .fmaxA,
   .fcmpA, .fcvt, .fclass, .fsgnA, .frnd, .fputA, .fgetA, .fcntA, .acrd, .acclr, .cfglA, .argwA, .bsetA, .bget, .bhold, .bgo,
   .rfstA, .rfclA, .dqpush, .dqpop, .dqstealA, .armA, .evget, .gnodeA, .gsigA, .yield, .gsendA, .gsendXA, .gsendoA, .grecvA,
   .greadyA, .gunreadyA, .gack, .gstatA, .xmask, .sdq, .sdacc, .sdsave, .sdload, .sdcapA, .sdrstA, .relatch, .ctxsv, .ctxld,
   .tidw, .tidr, .pwrA]

/-- The instructions of form B (R26). -/
def scalarB : List (FormB → Instr) :=
  [.brB, .bpB, .callB, .loopB, .trapB, .addB, .subB, .andB, .orB, .xorB, .andnB, .shlB, .shrB, .sarB, .rotlB, .minB, .maxB,
   .minuB, .maxuB, .selB, .movB, .mulB, .mulhB, .mulhuB, .divB, .divuB, .remB, .remuB, .extB, .bfx, .bfi, .addcpB, .cmpB,
   .pset, .leaB, .pcrelB, .ldB, .stB, .ldpB, .stpB, .gldB, .gstB, .barvB, .bexpB, .tinsB, .fputB, .fgetB, .fcntB, .cfglB,
   .argwB, .bsetB, .rfstB, .rfclB, .dqstealB, .armB, .gnodeB, .gsigB, .gsendB, .gsendXB, .gsendoB, .grecvB, .greadyB,
   .gunreadyB, .gstatB, .sdcapB, .sdrstB, .sget, .sset, .pwrB, .cntr, .cntc]

/-- The instructions of form C (R27). -/
def scalarC : List (FormC → Instr) :=
  [.brC, .bpC, .callC, .loopC, .addC, .subC, .andC, .orC, .xorC, .andnC, .shlC, .shrC, .sarC, .rotlC, .minC, .maxC, .minuC,
   .maxuC, .selC, .movC, .mulC, .mulhC, .mulhuC, .divC, .divuC, .remC, .remuC, .addcpC, .cmpC, .leaC, .pcrelC, .ldC, .stC,
   .faddC, .fsubC, .fmulC, .fmaC, .fmsC, .fnmaC, .fdivC, .fminC, .fmaxC, .fcmpC, .fsgnC, .argwC]

/-- The word that a scalar instruction's encoding has at place n, zero beyond it. -/
abbrev wordAt (ws : List Word) (n : Nat) : Word := ws.getD n 0

end Sys2Proof.Rules

/-- R23 to R32: every well-formed scalar instruction has an encoding, whose first word's length code says how many words it has, and
decoding the encoding gives the instruction back, every field at every value it admits, whatever follows its words. -/
def Obligations.ScalarEncoding : Prop :=
  (∀ i ∈ scalarA, ∀ f, (i f).wf = true → ∃ w, encode (i f) = some [w]) ∧
  (∀ i ∈ scalarB, ∀ f, (i f).wf = true → ∃ w x, encode (i f) = some [w, x]) ∧
  (∀ i ∈ scalarC, ∀ f, (i f).wf = true → ∃ w x y, encode (i f) = some [w, x, y]) ∧
  (∀ (i : Instr) (ws : List Word), i.wf = true → encode i = some ws →
    ws.length = wordCount (wordAt ws 0) ∧ decodeWords ws = .ok i ∧ ∀ more, decodeWords (ws ++ more) = .ok i)

/-- R33, R37, R45, R47: a stream command, an element configuration word, a router operator word and a layout word with well-formed
fields decode to the instruction and to the very fields that were encoded. -/
def Obligations.WordEncodings : Prop :=
  (∀ (i : Instr) (c : StreamWord) (ws : List Word), StreamWord.wf i c = true → encodeStream i c = some ws →
    decodeWords ws = .ok i ∧ ws.length = 4 ∧ unpackStream (wordAt ws 0) (wordAt ws 1) (wordAt ws 2) (wordAt ws 3) = c) ∧
  (∀ (i : Instr) (c : ElWord) (w : Slot128), ElWord.wf i c = true → encodeEl i c = some w →
    decodeEl w = .ok i ∧ unpackEl w = c) ∧
  (∀ (i : Instr) (c : RouterWord) (w : BitVec 64), RouterWord.wf i c = true → encodeRouter i c = some w →
    decodeRouter w = .ok i ∧ unpackRouter w = c) ∧
  (∀ (i : Instr) (c : LayoutWord) (w : Word), LayoutWord.wf i c = true → encodeLayout i c = some w →
    decodeLayout w = .ok i ∧ unpackLayout w = c)

/-- R395, R409: every instruction and every act goes on to a next state from every state, and so does every step, an access of the
host or of a debugger too, but where there is no memory at its address: beyond the exposed ranges or without a host port, and
beyond the scratchpad. That alone stops, under the model's own name (log entry 8). -/
def Obligations.EveryStepGoesOn : Prop :=
  (∀ (i : Instr) (s : State), (∀ d a w v, i ≠ .hostCxlMemAccess d a w v) → (∀ t k n w v, i ≠ .debuggerAccess t k n w v) →
    ∃ t, exec i s = .next t) ∧
  (∀ (s : State) (dev addr write v : Nat), let a := addr / 64 * 64
    (a + 64 ≤ hbmBytes → coveredBy ((s.device dev).hdm.take 2) a 64 = true → s.hostReaches dev = true →
      ∃ t, exec (.hostCxlMemAccess dev addr write v) s = .next t) ∧
    (hbmBytes < a + 64 ∨ coveredBy ((s.device dev).hdm.take 2) a 64 = false ∨ s.hostReaches dev = false →
      exec (.hostCxlMemAccess dev addr write v) s = .fault (.unpopulated addr))) ∧
  (∀ (s : State) (t what i write v : Nat),
    ((s.coreOf t).held = false ∨ s.debuggable t = false ∨ what = 0 ∨ i + 7 ≤ spLast → ∃ u, exec (.debuggerAccess t what i write v) s = .next u) ∧
    ((s.coreOf t).held = true → s.debuggable t = true → what ≠ 0 → spLast < i + 7 → exec (.debuggerAccess t what i write v) s = .fault (.unpopulated i))) ∧
  ∀ s : State, (∃ t, step s = .next t) ∨ ∃ a, step s = .fault (.unpopulated a)

namespace Sys2Proof.Rules

/-- M and every snapshot of a core or a unit, each one value per byte (R226), are in the one form that equal memories share. -/
abbrev MemoryFormed (s : State) : Prop :=
  Memory.wf s.mem = true ∧ ∀ x ∈ s.tiles, Memory.wf x.2.core.view.sv = true ∧ ∀ u ∈ x.2.units, Memory.wf u.2.view.sv = true

end Sys2Proof.Rules

/-- R86, R122: right after reset every core is idle with g1 to g31 zero, p1 to p7 false and pc zero, every slot is zero but the
channel map's entries, which read unused, and M and every snapshot have the form of a memory; and every step that answers a
next state, from whatever state of that form, keeps the form (log entry 3). -/
def Obligations.ResetState : Prop :=
  let s := State.reset
  (∀ t, (s.coreOf t).run = .idle ∧ (s.coreOf t).pc = 0 ∧ (∀ r, (s.coreOf t).reg r = 0) ∧
    (∀ p : BitVec 3, (s.coreOf t).pred p = decide (p = 0)) ∧
    (∀ n, n < 427 → n < 360 ∨ 362 < n → (s.tile t).slot n = 0) ∧ (∀ c, c < 40 → (s.tile t).chanEntry c = 0x3F)) ∧
  MemoryFormed s ∧ ∀ u t : State, MemoryFormed u → step u = .next t → MemoryFormed t
end

