-- ==== Sys2Proof/Laws/Memory.lean ====
section
/-! SUPPORT. Memory and the sparse maps: read after write, and every memory operation keeps the canonical form. -/

namespace Sys2Proof.Machine

/-! ### Sparse maps -/

@[simp] theorem mapGet_mapSet_same {α : Type} (m : Map α) (k : Nat) (v : α) : mapGet (mapSet m k v) k = some v := by
  induction m with
  | nil => simp [mapSet, mapGet]
  | cons p r ih =>
    obtain ⟨j, u⟩ := p
    unfold mapSet
    split
    · simp [mapGet]
    · split
      · simp [mapGet]
      · have : j ≠ k := by omega
        simp [mapGet, this, ih]

theorem mapGet_mapSet_ne {α : Type} (m : Map α) (k j : Nat) (v : α) (h : j ≠ k) :
    mapGet (mapSet m k v) j = mapGet m j := by
  induction m with
  | nil => simp [mapSet, mapGet, Ne.symm h]
  | cons p r ih =>
    obtain ⟨i, u⟩ := p
    unfold mapSet
    split
    · simp [mapGet, Ne.symm h]
    · split
      · subst_vars; simp [mapGet, Ne.symm h]
      · simp only [mapGet, ih]

@[simp] theorem mapSet_mapSet_same {α : Type} (m : Map α) (k : Nat) (u v : α) :
    mapSet (mapSet m k u) k v = mapSet m k v := by
  induction m with
  | nil => simp [mapSet]
  | cons p r ih =>
    obtain ⟨i, w⟩ := p
    unfold mapSet
    by_cases h : k < i
    · simp [h, mapSet]
    · by_cases e : k = i
      · simp [e, mapSet]
      · simp [h, e, mapSet, ih]

/-! ### Bytes of memory -/

/-- The canonical form as two facts: addresses strictly rising, and no entry with the unlisted value. -/
theorem Memory.wf_iff (m : Memory) :
    Memory.wf m = true ↔ m.Pairwise (fun c d => c.1 < d.1) ∧ ∀ c ∈ m, c.2 ≠ unlisted := by
  induction m with
  | nil => simp [Memory.wf]
  | cons c r ih =>
    cases r with
    | nil => simp [Memory.wf]
    | cons d r =>
      simp only [Memory.wf, Bool.and_eq_true, decide_eq_true_eq, ih, List.pairwise_cons, List.mem_cons]
      constructor
      · rintro ⟨⟨hb, hlt⟩, ⟨hd, hr⟩, hv⟩
        refine ⟨⟨?_, hd, hr⟩, ?_⟩
        · rintro x (rfl | hx)
          · exact hlt
          · exact lt_trans hlt (hd x hx)
        · rintro x (rfl | hx)
          · exact hb
          · exact hv x hx
      · rintro ⟨⟨hc, hd, hr⟩, hv⟩
        exact ⟨⟨hv c (.inl rfl), hc d (.inl rfl)⟩, ⟨hd, hr⟩, fun x hx => hv x (.inr hx)⟩

theorem Memory.wf_tail {c : Host.Cell} {r : Memory} (h : Memory.wf (c :: r) = true) : Memory.wf r = true := by
  rw [Memory.wf_iff] at *
  exact ⟨(List.pairwise_cons.1 h.1).2, fun x hx => h.2 x (List.mem_cons_of_mem _ hx)⟩

/-- Reading below every listed address gives the unlisted value. -/
theorem Memory.get_below (m : Memory) (x : Nat) (h : ∀ c ∈ m, x < c.1) : m.get x = unlisted := by
  cases m with
  | nil => rfl
  | cons c r =>
    have := h c (by simp)
    simp [Memory.get, show c.1 ≠ x by omega, this]

/-- A read after a write to the same address gives the byte written. -/
theorem Memory.get_set_same (m : Memory) (x : Nat) (v : Byte) (h : Memory.wf m = true) : (m.set x v).get x = v := by
  induction m with
  | nil => by_cases hv : v = unlisted <;> simp [Memory.set, Memory.get, hv]
  | cons c r ih =>
    obtain ⟨a, b⟩ := c
    have hr := Memory.wf_tail h
    have hp := (Memory.wf_iff _).1 h
    unfold Memory.set
    split
    · split
      · subst_vars; simp [Memory.get, show a ≠ x by omega, *]
      · simp [Memory.get]
    · split
      · split
        · rename_i e hv
          rw [hv]
          exact Memory.get_below r x fun c hc => e ▸ (List.pairwise_cons.1 hp.1).1 c hc
        · simp [Memory.get]
      · simp [Memory.get, show a ≠ x by omega, show ¬ x < a by omega, ih hr]

/-- A write leaves every other address alone. -/
theorem Memory.get_set_ne (m : Memory) (x y : Nat) (v : Byte) (h : Memory.wf m = true) (hy : y ≠ x) :
    (m.set x v).get y = m.get y := by
  induction m with
  | nil =>
    by_cases hv : v = unlisted
    · simp [Memory.set, hv]
    · simp only [Memory.set, hv, if_false, Memory.get]; split <;> simp_all
  | cons c r ih =>
    obtain ⟨a, b⟩ := c
    have hp := (Memory.wf_iff _).1 h
    have ht := (List.pairwise_cons.1 hp.1).1
    unfold Memory.set
    split
    · split
      · rfl
      · simp only [Memory.get, Ne.symm hy, if_false]
        split
        · simp [show a ≠ y by omega, show y < a by omega]
        · rfl
    · split
      · rename_i e
        have ha : a ≠ y := by omega
        split
        · by_cases hlt : y < a
          · rw [Memory.get_below r y fun c hc => lt_trans hlt (ht c hc)]
            simp [Memory.get, ha, hlt]
          · simp [Memory.get, ha, hlt]
        · simp [Memory.get, ha, e]
      · simp only [Memory.get, ih (Memory.wf_tail h)]

/-- Every address that a write leaves listed was listed or is the address written. -/
theorem Memory.mem_set {m : Memory} {x : Nat} {v : Byte} {c : Host.Cell} (h : c ∈ m.set x v) :
    c ∈ m ∨ (c = (x, v) ∧ v ≠ unlisted) := by
  induction m with
  | nil =>
    unfold Memory.set at h
    split at h
    · simp at h
    · exact .inr ⟨by simpa using h, by assumption⟩
  | cons d r ih =>
    obtain ⟨a, b⟩ := d
    unfold Memory.set at h
    split at h
    · split at h
      · exact .inl h
      · rcases List.mem_cons.1 h with h | h
        · exact .inr ⟨h, by assumption⟩
        · exact .inl h
    · split at h
      · split at h
        · exact .inl (List.mem_cons_of_mem _ h)
        · rcases List.mem_cons.1 h with h | h
          · exact .inr ⟨h, by assumption⟩
          · exact .inl (List.mem_cons_of_mem _ h)
      · rcases List.mem_cons.1 h with h | h
        · exact .inl (by simp [h])
        · rcases ih h with h | h
          · exact .inl (List.mem_cons_of_mem _ h)
          · exact .inr h

/-- A write keeps the canonical form. -/
theorem Memory.set_wf (m : Memory) (x : Nat) (v : Byte) (h : Memory.wf m = true) : Memory.wf (m.set x v) = true := by
  rw [Memory.wf_iff] at *
  obtain ⟨hp, hv⟩ := h
  refine ⟨?_, fun c hc => ?_⟩
  · induction m with
    | nil => unfold Memory.set; split <;> simp
    | cons d r ih =>
      obtain ⟨a, b⟩ := d
      have ht := List.pairwise_cons.1 hp
      have hr := ih ht.2 fun c hc => hv c (List.mem_cons_of_mem _ hc)
      unfold Memory.set
      split
      · split
        · exact hp
        · refine List.pairwise_cons.2 ⟨fun c hc => ?_, hp⟩
          rcases List.mem_cons.1 hc with hc | hc
          · simpa [hc]
          · have := ht.1 c hc; simp at this ⊢; omega
      · split
        · split
          · exact ht.2
          · refine List.pairwise_cons.2 ⟨fun c hc => ?_, ht.2⟩
            have := ht.1 c hc; simp at this ⊢; omega
        · refine List.pairwise_cons.2 ⟨fun c hc => ?_, hr⟩
          rcases Memory.mem_set hc with hc | ⟨hc, -⟩
          · exact ht.1 c hc
          · simp [hc]; omega
  · rcases Memory.mem_set hc with hc | ⟨rfl, hc⟩
    · exact hv c hc
    · assumption

/-- Writing consecutive bytes keeps the canonical form. -/
theorem Memory.write_wf (bs : List Byte) (m : Memory) (a : Nat) (h : Memory.wf m = true) :
    Memory.wf (m.write a bs) = true := by
  induction bs generalizing m a with
  | nil => exact h
  | cons b r ih => exact ih _ _ (Memory.set_wf m a b h)

/-- Writing a list of cells keeps the canonical form. -/
theorem Memory.foldl_set_wf (cs : List Host.Cell) (m : Memory) (h : Memory.wf m = true) :
    Memory.wf (cs.foldl (fun m c => m.set c.1 c.2) m) = true := by
  induction cs generalizing m with
  | nil => exact h
  | cons c r ih => exact ih _ (Memory.set_wf m c.1 c.2 h)

/-- Dropping entries keeps the canonical form. -/
theorem Memory.filter_wf (p : Host.Cell → Bool) (m : Memory) (h : Memory.wf m = true) :
    Memory.wf (List.filter p m) = true := by
  rw [Memory.wf_iff] at *
  exact ⟨h.1.filter _, fun c hc => h.2 c (List.mem_of_mem_filter hc)⟩

/-- A refresh keeps the canonical form of a snapshot. -/
theorem Memory.over_wf (old m : Memory) (p : Nat → Bool) (h : Memory.wf old = true) :
    Memory.wf (Memory.over old m p) = true :=
  Memory.foldl_set_wf _ _ (Memory.filter_wf _ _ h)

/-- Bytes outside the range written read as before. -/
theorem Memory.get_write_outside (bs : List Byte) (m : Memory) (a x : Nat) (h : Memory.wf m = true)
    (hx : x < a ∨ a + bs.length ≤ x) : (m.write a bs).get x = m.get x := by
  induction bs generalizing m a with
  | nil => rfl
  | cons b r ih =>
    simp only [List.length_cons] at hx
    rw [Memory.write, ih _ _ (Memory.set_wf m a b h) (by omega), Memory.get_set_ne m a x b h (by omega)]

end Sys2Proof.Machine
end

