-- ==== Sys2Proof/Laws/State.lean ====
section
/-! SUPPORT. What each shared update of the state and of a core leaves as it was, one lemma per field, and what the reads
give after the writes. -/

namespace Sys2Proof.Machine

/-! ### The state's fields under the shared updates -/

@[simp] theorem State.setTile_sched (s : State) (t : Nat) (x : Tile) : (s.setTile t x).sched = s.sched := rfl
@[simp] theorem State.setTile_tick (s : State) (t : Nat) (x : Tile) : (s.setTile t x).tick = s.tick := rfl
@[simp] theorem State.setTile_cur (s : State) (t : Nat) (x : Tile) : (s.setTile t x).cur = s.cur := rfl
@[simp] theorem State.setTile_slot (s : State) (t : Nat) (x : Tile) : (s.setTile t x).slot = s.slot := rfl
@[simp] theorem State.setTile_engine (s : State) (t : Nat) (x : Tile) : (s.setTile t x).engine = s.engine := rfl
@[simp] theorem State.setTile_ir (s : State) (t : Nat) (x : Tile) : (s.setTile t x).ir = s.ir := rfl
@[simp] theorem State.setTile_mem (s : State) (t : Nat) (x : Tile) : (s.setTile t x).mem = s.mem := rfl
@[simp] theorem State.setTile_dies (s : State) (t : Nat) (x : Tile) : (s.setTile t x).dies = s.dies := rfl
@[simp] theorem State.setTile_devices (s : State) (t : Nat) (x : Tile) : (s.setTile t x).devices = s.devices := rfl
@[simp] theorem State.setTile_node (s : State) (t : Nat) (x : Tile) : (s.setTile t x).node = s.node := rfl
@[simp] theorem State.setTile_cmds (s : State) (t : Nat) (x : Tile) : (s.setTile t x).cmds = s.cmds := rfl
@[simp] theorem State.setTile_nextCmd (s : State) (t : Nat) (x : Tile) : (s.setTile t x).nextCmd = s.nextCmd := rfl
@[simp] theorem State.setTile_regions (s : State) (t : Nat) (x : Tile) : (s.setTile t x).regions = s.regions := rfl
@[simp] theorem State.setTile_contexts (s : State) (t : Nat) (x : Tile) : (s.setTile t x).contexts = s.contexts := rfl
@[simp] theorem State.setTile_barRanges (s : State) (t : Nat) (x : Tile) : (s.setTile t x).barRanges = s.barRanges := rfl
@[simp] theorem State.setTile_barFlipped (s : State) (t : Nat) (x : Tile) : (s.setTile t x).barFlipped = s.barFlipped := rfl
@[simp] theorem State.setTile_order (s : State) (t : Nat) (x : Tile) : (s.setTile t x).order = s.order := rfl
@[simp] theorem State.setTile_heldWrites (s : State) (t : Nat) (x : Tile) : (s.setTile t x).heldWrites = s.heldWrites := rfl
@[simp] theorem State.setTile_groups (s : State) (t : Nat) (x : Tile) : (s.setTile t x).groups = s.groups := rfl
@[simp] theorem State.setTile_experts (s : State) (t : Nat) (x : Tile) : (s.setTile t x).experts = s.experts := rfl
@[simp] theorem State.setTile_sends (s : State) (t : Nat) (x : Tile) : (s.setTile t x).sends = s.sends := rfl
@[simp] theorem State.setTile_readyMsgs (s : State) (t : Nat) (x : Tile) : (s.setTile t x).readyMsgs = s.readyMsgs := rfl
@[simp] theorem State.setTile_notices (s : State) (t : Nat) (x : Tile) : (s.setTile t x).notices = s.notices := rfl
@[simp] theorem State.setTile_nextMsg (s : State) (t : Nat) (x : Tile) : (s.setTile t x).nextMsg = s.nextMsg := rfl
@[simp] theorem State.setTile_strikes (s : State) (t : Nat) (x : Tile) : (s.setTile t x).strikes = s.strikes := rfl
@[simp] theorem State.setTile_links (s : State) (t : Nat) (x : Tile) : (s.setTile t x).links = s.links := rfl
@[simp] theorem State.setTile_relatches (s : State) (t : Nat) (x : Tile) : (s.setTile t x).relatches = s.relatches := rfl
@[simp] theorem State.setTile_transit (s : State) (t : Nat) (x : Tile) : (s.setTile t x).transit = s.transit := rfl
@[simp] theorem State.setTile_saved (s : State) (t : Nat) (x : Tile) : (s.setTile t x).saved = s.saved := rfl
@[simp] theorem State.setTile_nextSaved (s : State) (t : Nat) (x : Tile) : (s.setTile t x).nextSaved = s.nextSaved := rfl
@[simp] theorem State.setTile_savedDevices (s : State) (t : Nat) (x : Tile) : (s.setTile t x).savedDevices = s.savedDevices := rfl
@[simp] theorem State.setTile_away (s : State) (t : Nat) (x : Tile) : (s.setTile t x).away = s.away := rfl
@[simp] theorem State.setTile_owed (s : State) (t : Nat) (x : Tile) : (s.setTile t x).owed = s.owed := rfl

@[simp] theorem State.setCore_sched (s : State) (t : Nat) (c : Core) : (s.setCore t c).sched = s.sched := rfl
@[simp] theorem State.setCore_tick (s : State) (t : Nat) (c : Core) : (s.setCore t c).tick = s.tick := rfl
@[simp] theorem State.setCore_cur (s : State) (t : Nat) (c : Core) : (s.setCore t c).cur = s.cur := rfl
@[simp] theorem State.setCore_slot (s : State) (t : Nat) (c : Core) : (s.setCore t c).slot = s.slot := rfl
@[simp] theorem State.setCore_engine (s : State) (t : Nat) (c : Core) : (s.setCore t c).engine = s.engine := rfl
@[simp] theorem State.setCore_ir (s : State) (t : Nat) (c : Core) : (s.setCore t c).ir = s.ir := rfl
@[simp] theorem State.setCore_mem (s : State) (t : Nat) (c : Core) : (s.setCore t c).mem = s.mem := rfl
@[simp] theorem State.setCore_dies (s : State) (t : Nat) (c : Core) : (s.setCore t c).dies = s.dies := rfl
@[simp] theorem State.setCore_devices (s : State) (t : Nat) (c : Core) : (s.setCore t c).devices = s.devices := rfl
@[simp] theorem State.setCore_node (s : State) (t : Nat) (c : Core) : (s.setCore t c).node = s.node := rfl
@[simp] theorem State.setCore_cmds (s : State) (t : Nat) (c : Core) : (s.setCore t c).cmds = s.cmds := rfl
@[simp] theorem State.setCore_nextCmd (s : State) (t : Nat) (c : Core) : (s.setCore t c).nextCmd = s.nextCmd := rfl
@[simp] theorem State.setCore_regions (s : State) (t : Nat) (c : Core) : (s.setCore t c).regions = s.regions := rfl
@[simp] theorem State.setCore_contexts (s : State) (t : Nat) (c : Core) : (s.setCore t c).contexts = s.contexts := rfl
@[simp] theorem State.setCore_barRanges (s : State) (t : Nat) (c : Core) : (s.setCore t c).barRanges = s.barRanges := rfl
@[simp] theorem State.setCore_barFlipped (s : State) (t : Nat) (c : Core) : (s.setCore t c).barFlipped = s.barFlipped := rfl
@[simp] theorem State.setCore_order (s : State) (t : Nat) (c : Core) : (s.setCore t c).order = s.order := rfl
@[simp] theorem State.setCore_heldWrites (s : State) (t : Nat) (c : Core) : (s.setCore t c).heldWrites = s.heldWrites := rfl
@[simp] theorem State.setCore_groups (s : State) (t : Nat) (c : Core) : (s.setCore t c).groups = s.groups := rfl
@[simp] theorem State.setCore_experts (s : State) (t : Nat) (c : Core) : (s.setCore t c).experts = s.experts := rfl
@[simp] theorem State.setCore_sends (s : State) (t : Nat) (c : Core) : (s.setCore t c).sends = s.sends := rfl
@[simp] theorem State.setCore_readyMsgs (s : State) (t : Nat) (c : Core) : (s.setCore t c).readyMsgs = s.readyMsgs := rfl
@[simp] theorem State.setCore_notices (s : State) (t : Nat) (c : Core) : (s.setCore t c).notices = s.notices := rfl
@[simp] theorem State.setCore_nextMsg (s : State) (t : Nat) (c : Core) : (s.setCore t c).nextMsg = s.nextMsg := rfl
@[simp] theorem State.setCore_strikes (s : State) (t : Nat) (c : Core) : (s.setCore t c).strikes = s.strikes := rfl
@[simp] theorem State.setCore_links (s : State) (t : Nat) (c : Core) : (s.setCore t c).links = s.links := rfl
@[simp] theorem State.setCore_relatches (s : State) (t : Nat) (c : Core) : (s.setCore t c).relatches = s.relatches := rfl
@[simp] theorem State.setCore_transit (s : State) (t : Nat) (c : Core) : (s.setCore t c).transit = s.transit := rfl
@[simp] theorem State.setCore_saved (s : State) (t : Nat) (c : Core) : (s.setCore t c).saved = s.saved := rfl
@[simp] theorem State.setCore_nextSaved (s : State) (t : Nat) (c : Core) : (s.setCore t c).nextSaved = s.nextSaved := rfl
@[simp] theorem State.setCore_savedDevices (s : State) (t : Nat) (c : Core) : (s.setCore t c).savedDevices = s.savedDevices := rfl
@[simp] theorem State.setCore_away (s : State) (t : Nat) (c : Core) : (s.setCore t c).away = s.away := rfl
@[simp] theorem State.setCore_owed (s : State) (t : Nat) (c : Core) : (s.setCore t c).owed = s.owed := rfl

@[simp] theorem State.withCore_sched (s : State) (c : Core) : (s.withCore c).sched = s.sched := rfl
@[simp] theorem State.withCore_tick (s : State) (c : Core) : (s.withCore c).tick = s.tick := rfl
@[simp] theorem State.withCore_cur (s : State) (c : Core) : (s.withCore c).cur = s.cur := rfl
@[simp] theorem State.withCore_slot (s : State) (c : Core) : (s.withCore c).slot = s.slot := rfl
@[simp] theorem State.withCore_engine (s : State) (c : Core) : (s.withCore c).engine = s.engine := rfl
@[simp] theorem State.withCore_ir (s : State) (c : Core) : (s.withCore c).ir = s.ir := rfl
@[simp] theorem State.withCore_mem (s : State) (c : Core) : (s.withCore c).mem = s.mem := rfl
@[simp] theorem State.withCore_dies (s : State) (c : Core) : (s.withCore c).dies = s.dies := rfl
@[simp] theorem State.withCore_devices (s : State) (c : Core) : (s.withCore c).devices = s.devices := rfl
@[simp] theorem State.withCore_node (s : State) (c : Core) : (s.withCore c).node = s.node := rfl
@[simp] theorem State.withCore_cmds (s : State) (c : Core) : (s.withCore c).cmds = s.cmds := rfl
@[simp] theorem State.withCore_nextCmd (s : State) (c : Core) : (s.withCore c).nextCmd = s.nextCmd := rfl
@[simp] theorem State.withCore_regions (s : State) (c : Core) : (s.withCore c).regions = s.regions := rfl
@[simp] theorem State.withCore_contexts (s : State) (c : Core) : (s.withCore c).contexts = s.contexts := rfl
@[simp] theorem State.withCore_barRanges (s : State) (c : Core) : (s.withCore c).barRanges = s.barRanges := rfl
@[simp] theorem State.withCore_barFlipped (s : State) (c : Core) : (s.withCore c).barFlipped = s.barFlipped := rfl
@[simp] theorem State.withCore_order (s : State) (c : Core) : (s.withCore c).order = s.order := rfl
@[simp] theorem State.withCore_heldWrites (s : State) (c : Core) : (s.withCore c).heldWrites = s.heldWrites := rfl
@[simp] theorem State.withCore_groups (s : State) (c : Core) : (s.withCore c).groups = s.groups := rfl
@[simp] theorem State.withCore_experts (s : State) (c : Core) : (s.withCore c).experts = s.experts := rfl
@[simp] theorem State.withCore_sends (s : State) (c : Core) : (s.withCore c).sends = s.sends := rfl
@[simp] theorem State.withCore_readyMsgs (s : State) (c : Core) : (s.withCore c).readyMsgs = s.readyMsgs := rfl
@[simp] theorem State.withCore_notices (s : State) (c : Core) : (s.withCore c).notices = s.notices := rfl
@[simp] theorem State.withCore_nextMsg (s : State) (c : Core) : (s.withCore c).nextMsg = s.nextMsg := rfl
@[simp] theorem State.withCore_strikes (s : State) (c : Core) : (s.withCore c).strikes = s.strikes := rfl
@[simp] theorem State.withCore_links (s : State) (c : Core) : (s.withCore c).links = s.links := rfl
@[simp] theorem State.withCore_relatches (s : State) (c : Core) : (s.withCore c).relatches = s.relatches := rfl
@[simp] theorem State.withCore_transit (s : State) (c : Core) : (s.withCore c).transit = s.transit := rfl
@[simp] theorem State.withCore_saved (s : State) (c : Core) : (s.withCore c).saved = s.saved := rfl
@[simp] theorem State.withCore_nextSaved (s : State) (c : Core) : (s.withCore c).nextSaved = s.nextSaved := rfl
@[simp] theorem State.withCore_savedDevices (s : State) (c : Core) : (s.withCore c).savedDevices = s.savedDevices := rfl
@[simp] theorem State.withCore_away (s : State) (c : Core) : (s.withCore c).away = s.away := rfl
@[simp] theorem State.withCore_owed (s : State) (c : Core) : (s.withCore c).owed = s.owed := rfl

@[simp] theorem State.setDie_sched (s : State) (d : Nat) (x : Die) : (s.setDie d x).sched = s.sched := rfl
@[simp] theorem State.setDie_tick (s : State) (d : Nat) (x : Die) : (s.setDie d x).tick = s.tick := rfl
@[simp] theorem State.setDie_cur (s : State) (d : Nat) (x : Die) : (s.setDie d x).cur = s.cur := rfl
@[simp] theorem State.setDie_slot (s : State) (d : Nat) (x : Die) : (s.setDie d x).slot = s.slot := rfl
@[simp] theorem State.setDie_engine (s : State) (d : Nat) (x : Die) : (s.setDie d x).engine = s.engine := rfl
@[simp] theorem State.setDie_ir (s : State) (d : Nat) (x : Die) : (s.setDie d x).ir = s.ir := rfl
@[simp] theorem State.setDie_mem (s : State) (d : Nat) (x : Die) : (s.setDie d x).mem = s.mem := rfl
@[simp] theorem State.setDie_tiles (s : State) (d : Nat) (x : Die) : (s.setDie d x).tiles = s.tiles := rfl
@[simp] theorem State.setDie_devices (s : State) (d : Nat) (x : Die) : (s.setDie d x).devices = s.devices := rfl
@[simp] theorem State.setDie_node (s : State) (d : Nat) (x : Die) : (s.setDie d x).node = s.node := rfl
@[simp] theorem State.setDie_cmds (s : State) (d : Nat) (x : Die) : (s.setDie d x).cmds = s.cmds := rfl
@[simp] theorem State.setDie_nextCmd (s : State) (d : Nat) (x : Die) : (s.setDie d x).nextCmd = s.nextCmd := rfl
@[simp] theorem State.setDie_regions (s : State) (d : Nat) (x : Die) : (s.setDie d x).regions = s.regions := rfl
@[simp] theorem State.setDie_contexts (s : State) (d : Nat) (x : Die) : (s.setDie d x).contexts = s.contexts := rfl
@[simp] theorem State.setDie_barRanges (s : State) (d : Nat) (x : Die) : (s.setDie d x).barRanges = s.barRanges := rfl
@[simp] theorem State.setDie_barFlipped (s : State) (d : Nat) (x : Die) : (s.setDie d x).barFlipped = s.barFlipped := rfl
@[simp] theorem State.setDie_order (s : State) (d : Nat) (x : Die) : (s.setDie d x).order = s.order := rfl
@[simp] theorem State.setDie_heldWrites (s : State) (d : Nat) (x : Die) : (s.setDie d x).heldWrites = s.heldWrites := rfl
@[simp] theorem State.setDie_groups (s : State) (d : Nat) (x : Die) : (s.setDie d x).groups = s.groups := rfl
@[simp] theorem State.setDie_experts (s : State) (d : Nat) (x : Die) : (s.setDie d x).experts = s.experts := rfl
@[simp] theorem State.setDie_sends (s : State) (d : Nat) (x : Die) : (s.setDie d x).sends = s.sends := rfl
@[simp] theorem State.setDie_readyMsgs (s : State) (d : Nat) (x : Die) : (s.setDie d x).readyMsgs = s.readyMsgs := rfl
@[simp] theorem State.setDie_notices (s : State) (d : Nat) (x : Die) : (s.setDie d x).notices = s.notices := rfl
@[simp] theorem State.setDie_nextMsg (s : State) (d : Nat) (x : Die) : (s.setDie d x).nextMsg = s.nextMsg := rfl
@[simp] theorem State.setDie_strikes (s : State) (d : Nat) (x : Die) : (s.setDie d x).strikes = s.strikes := rfl
@[simp] theorem State.setDie_links (s : State) (d : Nat) (x : Die) : (s.setDie d x).links = s.links := rfl
@[simp] theorem State.setDie_relatches (s : State) (d : Nat) (x : Die) : (s.setDie d x).relatches = s.relatches := rfl
@[simp] theorem State.setDie_transit (s : State) (d : Nat) (x : Die) : (s.setDie d x).transit = s.transit := rfl
@[simp] theorem State.setDie_saved (s : State) (d : Nat) (x : Die) : (s.setDie d x).saved = s.saved := rfl
@[simp] theorem State.setDie_nextSaved (s : State) (d : Nat) (x : Die) : (s.setDie d x).nextSaved = s.nextSaved := rfl
@[simp] theorem State.setDie_savedDevices (s : State) (d : Nat) (x : Die) : (s.setDie d x).savedDevices = s.savedDevices := rfl
@[simp] theorem State.setDie_away (s : State) (d : Nat) (x : Die) : (s.setDie d x).away = s.away := rfl
@[simp] theorem State.setDie_owed (s : State) (d : Nat) (x : Die) : (s.setDie d x).owed = s.owed := rfl

@[simp] theorem State.setDevice_sched (s : State) (d : Nat) (x : Device) : (s.setDevice d x).sched = s.sched := rfl
@[simp] theorem State.setDevice_tick (s : State) (d : Nat) (x : Device) : (s.setDevice d x).tick = s.tick := rfl
@[simp] theorem State.setDevice_cur (s : State) (d : Nat) (x : Device) : (s.setDevice d x).cur = s.cur := rfl
@[simp] theorem State.setDevice_slot (s : State) (d : Nat) (x : Device) : (s.setDevice d x).slot = s.slot := rfl
@[simp] theorem State.setDevice_engine (s : State) (d : Nat) (x : Device) : (s.setDevice d x).engine = s.engine := rfl
@[simp] theorem State.setDevice_ir (s : State) (d : Nat) (x : Device) : (s.setDevice d x).ir = s.ir := rfl
@[simp] theorem State.setDevice_mem (s : State) (d : Nat) (x : Device) : (s.setDevice d x).mem = s.mem := rfl
@[simp] theorem State.setDevice_tiles (s : State) (d : Nat) (x : Device) : (s.setDevice d x).tiles = s.tiles := rfl
@[simp] theorem State.setDevice_dies (s : State) (d : Nat) (x : Device) : (s.setDevice d x).dies = s.dies := rfl
@[simp] theorem State.setDevice_node (s : State) (d : Nat) (x : Device) : (s.setDevice d x).node = s.node := rfl
@[simp] theorem State.setDevice_cmds (s : State) (d : Nat) (x : Device) : (s.setDevice d x).cmds = s.cmds := rfl
@[simp] theorem State.setDevice_nextCmd (s : State) (d : Nat) (x : Device) : (s.setDevice d x).nextCmd = s.nextCmd := rfl
@[simp] theorem State.setDevice_regions (s : State) (d : Nat) (x : Device) : (s.setDevice d x).regions = s.regions := rfl
@[simp] theorem State.setDevice_contexts (s : State) (d : Nat) (x : Device) : (s.setDevice d x).contexts = s.contexts := rfl
@[simp] theorem State.setDevice_barRanges (s : State) (d : Nat) (x : Device) : (s.setDevice d x).barRanges = s.barRanges := rfl
@[simp] theorem State.setDevice_barFlipped (s : State) (d : Nat) (x : Device) : (s.setDevice d x).barFlipped = s.barFlipped := rfl
@[simp] theorem State.setDevice_order (s : State) (d : Nat) (x : Device) : (s.setDevice d x).order = s.order := rfl
@[simp] theorem State.setDevice_heldWrites (s : State) (d : Nat) (x : Device) : (s.setDevice d x).heldWrites = s.heldWrites := rfl
@[simp] theorem State.setDevice_groups (s : State) (d : Nat) (x : Device) : (s.setDevice d x).groups = s.groups := rfl
@[simp] theorem State.setDevice_experts (s : State) (d : Nat) (x : Device) : (s.setDevice d x).experts = s.experts := rfl
@[simp] theorem State.setDevice_sends (s : State) (d : Nat) (x : Device) : (s.setDevice d x).sends = s.sends := rfl
@[simp] theorem State.setDevice_readyMsgs (s : State) (d : Nat) (x : Device) : (s.setDevice d x).readyMsgs = s.readyMsgs := rfl
@[simp] theorem State.setDevice_notices (s : State) (d : Nat) (x : Device) : (s.setDevice d x).notices = s.notices := rfl
@[simp] theorem State.setDevice_nextMsg (s : State) (d : Nat) (x : Device) : (s.setDevice d x).nextMsg = s.nextMsg := rfl
@[simp] theorem State.setDevice_strikes (s : State) (d : Nat) (x : Device) : (s.setDevice d x).strikes = s.strikes := rfl
@[simp] theorem State.setDevice_links (s : State) (d : Nat) (x : Device) : (s.setDevice d x).links = s.links := rfl
@[simp] theorem State.setDevice_relatches (s : State) (d : Nat) (x : Device) : (s.setDevice d x).relatches = s.relatches := rfl
@[simp] theorem State.setDevice_transit (s : State) (d : Nat) (x : Device) : (s.setDevice d x).transit = s.transit := rfl
@[simp] theorem State.setDevice_saved (s : State) (d : Nat) (x : Device) : (s.setDevice d x).saved = s.saved := rfl
@[simp] theorem State.setDevice_nextSaved (s : State) (d : Nat) (x : Device) : (s.setDevice d x).nextSaved = s.nextSaved := rfl
@[simp] theorem State.setDevice_savedDevices (s : State) (d : Nat) (x : Device) : (s.setDevice d x).savedDevices = s.savedDevices := rfl
@[simp] theorem State.setDevice_away (s : State) (d : Nat) (x : Device) : (s.setDevice d x).away = s.away := rfl
@[simp] theorem State.setDevice_owed (s : State) (d : Nat) (x : Device) : (s.setDevice d x).owed = s.owed := rfl

@[simp] theorem State.setCmd_sched (s : State) (n : Nat) (c : Cmd) : (s.setCmd n c).sched = s.sched := rfl
@[simp] theorem State.setCmd_tick (s : State) (n : Nat) (c : Cmd) : (s.setCmd n c).tick = s.tick := rfl
@[simp] theorem State.setCmd_cur (s : State) (n : Nat) (c : Cmd) : (s.setCmd n c).cur = s.cur := rfl
@[simp] theorem State.setCmd_slot (s : State) (n : Nat) (c : Cmd) : (s.setCmd n c).slot = s.slot := rfl
@[simp] theorem State.setCmd_engine (s : State) (n : Nat) (c : Cmd) : (s.setCmd n c).engine = s.engine := rfl
@[simp] theorem State.setCmd_ir (s : State) (n : Nat) (c : Cmd) : (s.setCmd n c).ir = s.ir := rfl
@[simp] theorem State.setCmd_mem (s : State) (n : Nat) (c : Cmd) : (s.setCmd n c).mem = s.mem := rfl
@[simp] theorem State.setCmd_tiles (s : State) (n : Nat) (c : Cmd) : (s.setCmd n c).tiles = s.tiles := rfl
@[simp] theorem State.setCmd_dies (s : State) (n : Nat) (c : Cmd) : (s.setCmd n c).dies = s.dies := rfl
@[simp] theorem State.setCmd_devices (s : State) (n : Nat) (c : Cmd) : (s.setCmd n c).devices = s.devices := rfl
@[simp] theorem State.setCmd_node (s : State) (n : Nat) (c : Cmd) : (s.setCmd n c).node = s.node := rfl
@[simp] theorem State.setCmd_nextCmd (s : State) (n : Nat) (c : Cmd) : (s.setCmd n c).nextCmd = s.nextCmd := rfl
@[simp] theorem State.setCmd_regions (s : State) (n : Nat) (c : Cmd) : (s.setCmd n c).regions = s.regions := rfl
@[simp] theorem State.setCmd_contexts (s : State) (n : Nat) (c : Cmd) : (s.setCmd n c).contexts = s.contexts := rfl
@[simp] theorem State.setCmd_barRanges (s : State) (n : Nat) (c : Cmd) : (s.setCmd n c).barRanges = s.barRanges := rfl
@[simp] theorem State.setCmd_barFlipped (s : State) (n : Nat) (c : Cmd) : (s.setCmd n c).barFlipped = s.barFlipped := rfl
@[simp] theorem State.setCmd_order (s : State) (n : Nat) (c : Cmd) : (s.setCmd n c).order = s.order := rfl
@[simp] theorem State.setCmd_heldWrites (s : State) (n : Nat) (c : Cmd) : (s.setCmd n c).heldWrites = s.heldWrites := rfl
@[simp] theorem State.setCmd_groups (s : State) (n : Nat) (c : Cmd) : (s.setCmd n c).groups = s.groups := rfl
@[simp] theorem State.setCmd_experts (s : State) (n : Nat) (c : Cmd) : (s.setCmd n c).experts = s.experts := rfl
@[simp] theorem State.setCmd_sends (s : State) (n : Nat) (c : Cmd) : (s.setCmd n c).sends = s.sends := rfl
@[simp] theorem State.setCmd_readyMsgs (s : State) (n : Nat) (c : Cmd) : (s.setCmd n c).readyMsgs = s.readyMsgs := rfl
@[simp] theorem State.setCmd_notices (s : State) (n : Nat) (c : Cmd) : (s.setCmd n c).notices = s.notices := rfl
@[simp] theorem State.setCmd_nextMsg (s : State) (n : Nat) (c : Cmd) : (s.setCmd n c).nextMsg = s.nextMsg := rfl
@[simp] theorem State.setCmd_strikes (s : State) (n : Nat) (c : Cmd) : (s.setCmd n c).strikes = s.strikes := rfl
@[simp] theorem State.setCmd_links (s : State) (n : Nat) (c : Cmd) : (s.setCmd n c).links = s.links := rfl
@[simp] theorem State.setCmd_relatches (s : State) (n : Nat) (c : Cmd) : (s.setCmd n c).relatches = s.relatches := rfl
@[simp] theorem State.setCmd_transit (s : State) (n : Nat) (c : Cmd) : (s.setCmd n c).transit = s.transit := rfl
@[simp] theorem State.setCmd_saved (s : State) (n : Nat) (c : Cmd) : (s.setCmd n c).saved = s.saved := rfl
@[simp] theorem State.setCmd_nextSaved (s : State) (n : Nat) (c : Cmd) : (s.setCmd n c).nextSaved = s.nextSaved := rfl
@[simp] theorem State.setCmd_savedDevices (s : State) (n : Nat) (c : Cmd) : (s.setCmd n c).savedDevices = s.savedDevices := rfl
@[simp] theorem State.setCmd_away (s : State) (n : Nat) (c : Cmd) : (s.setCmd n c).away = s.away := rfl
@[simp] theorem State.setCmd_owed (s : State) (n : Nat) (c : Cmd) : (s.setCmd n c).owed = s.owed := rfl

@[simp] theorem State.setRegion_sched (s : State) (l : Nat) (r : Region) : (s.setRegion l r).sched = s.sched := rfl
@[simp] theorem State.setRegion_tick (s : State) (l : Nat) (r : Region) : (s.setRegion l r).tick = s.tick := rfl
@[simp] theorem State.setRegion_cur (s : State) (l : Nat) (r : Region) : (s.setRegion l r).cur = s.cur := rfl
@[simp] theorem State.setRegion_slot (s : State) (l : Nat) (r : Region) : (s.setRegion l r).slot = s.slot := rfl
@[simp] theorem State.setRegion_engine (s : State) (l : Nat) (r : Region) : (s.setRegion l r).engine = s.engine := rfl
@[simp] theorem State.setRegion_ir (s : State) (l : Nat) (r : Region) : (s.setRegion l r).ir = s.ir := rfl
@[simp] theorem State.setRegion_mem (s : State) (l : Nat) (r : Region) : (s.setRegion l r).mem = s.mem := rfl
@[simp] theorem State.setRegion_tiles (s : State) (l : Nat) (r : Region) : (s.setRegion l r).tiles = s.tiles := rfl
@[simp] theorem State.setRegion_dies (s : State) (l : Nat) (r : Region) : (s.setRegion l r).dies = s.dies := rfl
@[simp] theorem State.setRegion_devices (s : State) (l : Nat) (r : Region) : (s.setRegion l r).devices = s.devices := rfl
@[simp] theorem State.setRegion_node (s : State) (l : Nat) (r : Region) : (s.setRegion l r).node = s.node := rfl
@[simp] theorem State.setRegion_cmds (s : State) (l : Nat) (r : Region) : (s.setRegion l r).cmds = s.cmds := rfl
@[simp] theorem State.setRegion_nextCmd (s : State) (l : Nat) (r : Region) : (s.setRegion l r).nextCmd = s.nextCmd := rfl
@[simp] theorem State.setRegion_contexts (s : State) (l : Nat) (r : Region) : (s.setRegion l r).contexts = s.contexts := rfl
@[simp] theorem State.setRegion_barRanges (s : State) (l : Nat) (r : Region) : (s.setRegion l r).barRanges = s.barRanges := rfl
@[simp] theorem State.setRegion_barFlipped (s : State) (l : Nat) (r : Region) : (s.setRegion l r).barFlipped = s.barFlipped := rfl
@[simp] theorem State.setRegion_order (s : State) (l : Nat) (r : Region) : (s.setRegion l r).order = s.order := rfl
@[simp] theorem State.setRegion_heldWrites (s : State) (l : Nat) (r : Region) : (s.setRegion l r).heldWrites = s.heldWrites := rfl
@[simp] theorem State.setRegion_groups (s : State) (l : Nat) (r : Region) : (s.setRegion l r).groups = s.groups := rfl
@[simp] theorem State.setRegion_experts (s : State) (l : Nat) (r : Region) : (s.setRegion l r).experts = s.experts := rfl
@[simp] theorem State.setRegion_sends (s : State) (l : Nat) (r : Region) : (s.setRegion l r).sends = s.sends := rfl
@[simp] theorem State.setRegion_readyMsgs (s : State) (l : Nat) (r : Region) : (s.setRegion l r).readyMsgs = s.readyMsgs := rfl
@[simp] theorem State.setRegion_notices (s : State) (l : Nat) (r : Region) : (s.setRegion l r).notices = s.notices := rfl
@[simp] theorem State.setRegion_nextMsg (s : State) (l : Nat) (r : Region) : (s.setRegion l r).nextMsg = s.nextMsg := rfl
@[simp] theorem State.setRegion_strikes (s : State) (l : Nat) (r : Region) : (s.setRegion l r).strikes = s.strikes := rfl
@[simp] theorem State.setRegion_links (s : State) (l : Nat) (r : Region) : (s.setRegion l r).links = s.links := rfl
@[simp] theorem State.setRegion_relatches (s : State) (l : Nat) (r : Region) : (s.setRegion l r).relatches = s.relatches := rfl
@[simp] theorem State.setRegion_transit (s : State) (l : Nat) (r : Region) : (s.setRegion l r).transit = s.transit := rfl
@[simp] theorem State.setRegion_saved (s : State) (l : Nat) (r : Region) : (s.setRegion l r).saved = s.saved := rfl
@[simp] theorem State.setRegion_nextSaved (s : State) (l : Nat) (r : Region) : (s.setRegion l r).nextSaved = s.nextSaved := rfl
@[simp] theorem State.setRegion_savedDevices (s : State) (l : Nat) (r : Region) : (s.setRegion l r).savedDevices = s.savedDevices := rfl
@[simp] theorem State.setRegion_away (s : State) (l : Nat) (r : Region) : (s.setRegion l r).away = s.away := rfl
@[simp] theorem State.setRegion_owed (s : State) (l : Nat) (r : Region) : (s.setRegion l r).owed = s.owed := rfl

/-! ### A core's fields under the shared updates -/

@[simp] theorem Core.setReg_p (c : Core) (r : BitVec 5) (v : Dword) : (c.setReg r v).p = c.p := by
  unfold Core.setReg; split <;> rfl
@[simp] theorem Core.setReg_pc (c : Core) (r : BitVec 5) (v : Dword) : (c.setReg r v).pc = c.pc := by
  unfold Core.setReg; split <;> rfl
@[simp] theorem Core.setReg_cause (c : Core) (r : BitVec 5) (v : Dword) : (c.setReg r v).cause = c.cause := by
  unfold Core.setReg; split <;> rfl
@[simp] theorem Core.setReg_fpc (c : Core) (r : BitVec 5) (v : Dword) : (c.setReg r v).fpc = c.fpc := by
  unfold Core.setReg; split <;> rfl
@[simp] theorem Core.setReg_fval (c : Core) (r : BitVec 5) (v : Dword) : (c.setReg r v).fval = c.fval := by
  unfold Core.setReg; split <;> rfl
@[simp] theorem Core.setReg_m (c : Core) (r : BitVec 5) (v : Dword) : (c.setReg r v).m = c.m := by
  unfold Core.setReg; split <;> rfl
@[simp] theorem Core.setReg_pm (c : Core) (r : BitVec 5) (v : Dword) : (c.setReg r v).pm = c.pm := by
  unfold Core.setReg; split <;> rfl
@[simp] theorem Core.setReg_ih (c : Core) (r : BitVec 5) (v : Dword) : (c.setReg r v).ih = c.ih := by
  unfold Core.setReg; split <;> rfl
@[simp] theorem Core.setReg_rm (c : Core) (r : BitVec 5) (v : Dword) : (c.setReg r v).rm = c.rm := by
  unfold Core.setReg; split <;> rfl
@[simp] theorem Core.setReg_flush (c : Core) (r : BitVec 5) (v : Dword) : (c.setReg r v).flush = c.flush := by
  unfold Core.setReg; split <;> rfl
@[simp] theorem Core.setReg_flags (c : Core) (r : BitVec 5) (v : Dword) : (c.setReg r v).flags = c.flags := by
  unfold Core.setReg; split <;> rfl
@[simp] theorem Core.setReg_srgen (c : Core) (r : BitVec 5) (v : Dword) : (c.setReg r v).srgen = c.srgen := by
  unfold Core.setReg; split <;> rfl
@[simp] theorem Core.setReg_wake (c : Core) (r : BitVec 5) (v : Dword) : (c.setReg r v).wake = c.wake := by
  unfold Core.setReg; split <;> rfl
@[simp] theorem Core.setReg_lost (c : Core) (r : BitVec 5) (v : Dword) : (c.setReg r v).lost = c.lost := by
  unfold Core.setReg; split <;> rfl
@[simp] theorem Core.setReg_vcycle (c : Core) (r : BitVec 5) (v : Dword) : (c.setReg r v).vcycle = c.vcycle := by
  unfold Core.setReg; split <;> rfl
@[simp] theorem Core.setReg_tenant (c : Core) (r : BitVec 5) (v : Dword) : (c.setReg r v).tenant = c.tenant := by
  unfold Core.setReg; split <;> rfl
@[simp] theorem Core.setReg_fn (c : Core) (r : BitVec 5) (v : Dword) : (c.setReg r v).fn = c.fn := by
  unfold Core.setReg; split <;> rfl
@[simp] theorem Core.setReg_run (c : Core) (r : BitVec 5) (v : Dword) : (c.setReg r v).run = c.run := by
  unfold Core.setReg; split <;> rfl
@[simp] theorem Core.setReg_actor (c : Core) (r : BitVec 5) (v : Dword) : (c.setReg r v).actor = c.actor := by
  unfold Core.setReg; split <;> rfl
@[simp] theorem Core.setReg_yielding (c : Core) (r : BitVec 5) (v : Dword) : (c.setReg r v).yielding = c.yielding := by
  unfold Core.setReg; split <;> rfl
@[simp] theorem Core.setReg_actors (c : Core) (r : BitVec 5) (v : Dword) : (c.setReg r v).actors = c.actors := by
  unfold Core.setReg; split <;> rfl
@[simp] theorem Core.setReg_rearm (c : Core) (r : BitVec 5) (v : Dword) : (c.setReg r v).rearm = c.rearm := by
  unfold Core.setReg; split <;> rfl
@[simp] theorem Core.setReg_lastFired (c : Core) (r : BitVec 5) (v : Dword) : (c.setReg r v).lastFired = c.lastFired := by
  unfold Core.setReg; split <;> rfl
@[simp] theorem Core.setReg_events (c : Core) (r : BitVec 5) (v : Dword) : (c.setReg r v).events = c.events := by
  unfold Core.setReg; split <;> rfl
@[simp] theorem Core.setReg_deque (c : Core) (r : BitVec 5) (v : Dword) : (c.setReg r v).deque = c.deque := by
  unfold Core.setReg; split <;> rfl
@[simp] theorem Core.setReg_queue (c : Core) (r : BitVec 5) (v : Dword) : (c.setReg r v).queue = c.queue := by
  unfold Core.setReg; split <;> rfl
@[simp] theorem Core.setReg_unreported (c : Core) (r : BitVec 5) (v : Dword) : (c.setReg r v).unreported = c.unreported := by
  unfold Core.setReg; split <;> rfl
@[simp] theorem Core.setReg_imprecise (c : Core) (r : BitVec 5) (v : Dword) : (c.setReg r v).imprecise = c.imprecise := by
  unfold Core.setReg; split <;> rfl
@[simp] theorem Core.setReg_view (c : Core) (r : BitVec 5) (v : Dword) : (c.setReg r v).view = c.view := by
  unfold Core.setReg; split <;> rfl
@[simp] theorem Core.setReg_age (c : Core) (r : BitVec 5) (v : Dword) : (c.setReg r v).age = c.age := by
  unfold Core.setReg; split <;> rfl
@[simp] theorem Core.setReg_sendSeq (c : Core) (r : BitVec 5) (v : Dword) : (c.setReg r v).sendSeq = c.sendSeq := by
  unfold Core.setReg; split <;> rfl
@[simp] theorem Core.setReg_ready (c : Core) (r : BitVec 5) (v : Dword) : (c.setReg r v).ready = c.ready := by
  unfold Core.setReg; split <;> rfl
@[simp] theorem Core.setReg_received (c : Core) (r : BitVec 5) (v : Dword) : (c.setReg r v).received = c.received := by
  unfold Core.setReg; split <;> rfl
@[simp] theorem Core.setReg_toAck (c : Core) (r : BitVec 5) (v : Dword) : (c.setReg r v).toAck = c.toAck := by
  unfold Core.setReg; split <;> rfl
@[simp] theorem Core.setReg_experts (c : Core) (r : BitVec 5) (v : Dword) : (c.setReg r v).experts = c.experts := by
  unfold Core.setReg; split <;> rfl
@[simp] theorem Core.setReg_retired (c : Core) (r : BitVec 5) (v : Dword) : (c.setReg r v).retired = c.retired := by
  unfold Core.setReg; split <;> rfl
@[simp] theorem Core.setReg_waitFc (c : Core) (r : BitVec 5) (v : Dword) : (c.setReg r v).waitFc = c.waitFc := by
  unfold Core.setReg; split <;> rfl
@[simp] theorem Core.setReg_firings (c : Core) (r : BitVec 5) (v : Dword) : (c.setReg r v).firings = c.firings := by
  unfold Core.setReg; split <;> rfl
@[simp] theorem Core.setReg_retiredBase (c : Core) (r : BitVec 5) (v : Dword) : (c.setReg r v).retiredBase = c.retiredBase := by
  unfold Core.setReg; split <;> rfl
@[simp] theorem Core.setReg_held (c : Core) (r : BitVec 5) (v : Dword) : (c.setReg r v).held = c.held := by
  unfold Core.setReg; split <;> rfl
@[simp] theorem Core.setReg_attached (c : Core) (r : BitVec 5) (v : Dword) : (c.setReg r v).attached = c.attached := by
  unfold Core.setReg; split <;> rfl

@[simp] theorem Core.setPred_g (c : Core) (i : BitVec 3) (v : Bool) : (c.setPred i v).g = c.g := by
  unfold Core.setPred; split <;> rfl
@[simp] theorem Core.setPred_pc (c : Core) (i : BitVec 3) (v : Bool) : (c.setPred i v).pc = c.pc := by
  unfold Core.setPred; split <;> rfl
@[simp] theorem Core.setPred_cause (c : Core) (i : BitVec 3) (v : Bool) : (c.setPred i v).cause = c.cause := by
  unfold Core.setPred; split <;> rfl
@[simp] theorem Core.setPred_fpc (c : Core) (i : BitVec 3) (v : Bool) : (c.setPred i v).fpc = c.fpc := by
  unfold Core.setPred; split <;> rfl
@[simp] theorem Core.setPred_fval (c : Core) (i : BitVec 3) (v : Bool) : (c.setPred i v).fval = c.fval := by
  unfold Core.setPred; split <;> rfl
@[simp] theorem Core.setPred_m (c : Core) (i : BitVec 3) (v : Bool) : (c.setPred i v).m = c.m := by
  unfold Core.setPred; split <;> rfl
@[simp] theorem Core.setPred_pm (c : Core) (i : BitVec 3) (v : Bool) : (c.setPred i v).pm = c.pm := by
  unfold Core.setPred; split <;> rfl
@[simp] theorem Core.setPred_ih (c : Core) (i : BitVec 3) (v : Bool) : (c.setPred i v).ih = c.ih := by
  unfold Core.setPred; split <;> rfl
@[simp] theorem Core.setPred_rm (c : Core) (i : BitVec 3) (v : Bool) : (c.setPred i v).rm = c.rm := by
  unfold Core.setPred; split <;> rfl
@[simp] theorem Core.setPred_flush (c : Core) (i : BitVec 3) (v : Bool) : (c.setPred i v).flush = c.flush := by
  unfold Core.setPred; split <;> rfl
@[simp] theorem Core.setPred_flags (c : Core) (i : BitVec 3) (v : Bool) : (c.setPred i v).flags = c.flags := by
  unfold Core.setPred; split <;> rfl
@[simp] theorem Core.setPred_srgen (c : Core) (i : BitVec 3) (v : Bool) : (c.setPred i v).srgen = c.srgen := by
  unfold Core.setPred; split <;> rfl
@[simp] theorem Core.setPred_wake (c : Core) (i : BitVec 3) (v : Bool) : (c.setPred i v).wake = c.wake := by
  unfold Core.setPred; split <;> rfl
@[simp] theorem Core.setPred_lost (c : Core) (i : BitVec 3) (v : Bool) : (c.setPred i v).lost = c.lost := by
  unfold Core.setPred; split <;> rfl
@[simp] theorem Core.setPred_vcycle (c : Core) (i : BitVec 3) (v : Bool) : (c.setPred i v).vcycle = c.vcycle := by
  unfold Core.setPred; split <;> rfl
@[simp] theorem Core.setPred_tenant (c : Core) (i : BitVec 3) (v : Bool) : (c.setPred i v).tenant = c.tenant := by
  unfold Core.setPred; split <;> rfl
@[simp] theorem Core.setPred_fn (c : Core) (i : BitVec 3) (v : Bool) : (c.setPred i v).fn = c.fn := by
  unfold Core.setPred; split <;> rfl
@[simp] theorem Core.setPred_run (c : Core) (i : BitVec 3) (v : Bool) : (c.setPred i v).run = c.run := by
  unfold Core.setPred; split <;> rfl
@[simp] theorem Core.setPred_actor (c : Core) (i : BitVec 3) (v : Bool) : (c.setPred i v).actor = c.actor := by
  unfold Core.setPred; split <;> rfl
@[simp] theorem Core.setPred_yielding (c : Core) (i : BitVec 3) (v : Bool) : (c.setPred i v).yielding = c.yielding := by
  unfold Core.setPred; split <;> rfl
@[simp] theorem Core.setPred_actors (c : Core) (i : BitVec 3) (v : Bool) : (c.setPred i v).actors = c.actors := by
  unfold Core.setPred; split <;> rfl
@[simp] theorem Core.setPred_rearm (c : Core) (i : BitVec 3) (v : Bool) : (c.setPred i v).rearm = c.rearm := by
  unfold Core.setPred; split <;> rfl
@[simp] theorem Core.setPred_lastFired (c : Core) (i : BitVec 3) (v : Bool) : (c.setPred i v).lastFired = c.lastFired := by
  unfold Core.setPred; split <;> rfl
@[simp] theorem Core.setPred_events (c : Core) (i : BitVec 3) (v : Bool) : (c.setPred i v).events = c.events := by
  unfold Core.setPred; split <;> rfl
@[simp] theorem Core.setPred_deque (c : Core) (i : BitVec 3) (v : Bool) : (c.setPred i v).deque = c.deque := by
  unfold Core.setPred; split <;> rfl
@[simp] theorem Core.setPred_queue (c : Core) (i : BitVec 3) (v : Bool) : (c.setPred i v).queue = c.queue := by
  unfold Core.setPred; split <;> rfl
@[simp] theorem Core.setPred_unreported (c : Core) (i : BitVec 3) (v : Bool) : (c.setPred i v).unreported = c.unreported := by
  unfold Core.setPred; split <;> rfl
@[simp] theorem Core.setPred_imprecise (c : Core) (i : BitVec 3) (v : Bool) : (c.setPred i v).imprecise = c.imprecise := by
  unfold Core.setPred; split <;> rfl
@[simp] theorem Core.setPred_view (c : Core) (i : BitVec 3) (v : Bool) : (c.setPred i v).view = c.view := by
  unfold Core.setPred; split <;> rfl
@[simp] theorem Core.setPred_age (c : Core) (i : BitVec 3) (v : Bool) : (c.setPred i v).age = c.age := by
  unfold Core.setPred; split <;> rfl
@[simp] theorem Core.setPred_sendSeq (c : Core) (i : BitVec 3) (v : Bool) : (c.setPred i v).sendSeq = c.sendSeq := by
  unfold Core.setPred; split <;> rfl
@[simp] theorem Core.setPred_ready (c : Core) (i : BitVec 3) (v : Bool) : (c.setPred i v).ready = c.ready := by
  unfold Core.setPred; split <;> rfl
@[simp] theorem Core.setPred_received (c : Core) (i : BitVec 3) (v : Bool) : (c.setPred i v).received = c.received := by
  unfold Core.setPred; split <;> rfl
@[simp] theorem Core.setPred_toAck (c : Core) (i : BitVec 3) (v : Bool) : (c.setPred i v).toAck = c.toAck := by
  unfold Core.setPred; split <;> rfl
@[simp] theorem Core.setPred_experts (c : Core) (i : BitVec 3) (v : Bool) : (c.setPred i v).experts = c.experts := by
  unfold Core.setPred; split <;> rfl
@[simp] theorem Core.setPred_retired (c : Core) (i : BitVec 3) (v : Bool) : (c.setPred i v).retired = c.retired := by
  unfold Core.setPred; split <;> rfl
@[simp] theorem Core.setPred_waitFc (c : Core) (i : BitVec 3) (v : Bool) : (c.setPred i v).waitFc = c.waitFc := by
  unfold Core.setPred; split <;> rfl
@[simp] theorem Core.setPred_firings (c : Core) (i : BitVec 3) (v : Bool) : (c.setPred i v).firings = c.firings := by
  unfold Core.setPred; split <;> rfl
@[simp] theorem Core.setPred_retiredBase (c : Core) (i : BitVec 3) (v : Bool) : (c.setPred i v).retiredBase = c.retiredBase := by
  unfold Core.setPred; split <;> rfl
@[simp] theorem Core.setPred_held (c : Core) (i : BitVec 3) (v : Bool) : (c.setPred i v).held = c.held := by
  unfold Core.setPred; split <;> rfl
@[simp] theorem Core.setPred_attached (c : Core) (i : BitVec 3) (v : Bool) : (c.setPred i v).attached = c.attached := by
  unfold Core.setPred; split <;> rfl

@[simp] theorem Core.advance_g (c : Core) (n : Nat) : (c.advance n).g = c.g := rfl
@[simp] theorem Core.advance_p (c : Core) (n : Nat) : (c.advance n).p = c.p := rfl
@[simp] theorem Core.advance_cause (c : Core) (n : Nat) : (c.advance n).cause = c.cause := rfl
@[simp] theorem Core.advance_fpc (c : Core) (n : Nat) : (c.advance n).fpc = c.fpc := rfl
@[simp] theorem Core.advance_fval (c : Core) (n : Nat) : (c.advance n).fval = c.fval := rfl
@[simp] theorem Core.advance_m (c : Core) (n : Nat) : (c.advance n).m = c.m := rfl
@[simp] theorem Core.advance_pm (c : Core) (n : Nat) : (c.advance n).pm = c.pm := rfl
@[simp] theorem Core.advance_ih (c : Core) (n : Nat) : (c.advance n).ih = c.ih := rfl
@[simp] theorem Core.advance_rm (c : Core) (n : Nat) : (c.advance n).rm = c.rm := rfl
@[simp] theorem Core.advance_flush (c : Core) (n : Nat) : (c.advance n).flush = c.flush := rfl
@[simp] theorem Core.advance_flags (c : Core) (n : Nat) : (c.advance n).flags = c.flags := rfl
@[simp] theorem Core.advance_srgen (c : Core) (n : Nat) : (c.advance n).srgen = c.srgen := rfl
@[simp] theorem Core.advance_wake (c : Core) (n : Nat) : (c.advance n).wake = c.wake := rfl
@[simp] theorem Core.advance_lost (c : Core) (n : Nat) : (c.advance n).lost = c.lost := rfl
@[simp] theorem Core.advance_vcycle (c : Core) (n : Nat) : (c.advance n).vcycle = c.vcycle := rfl
@[simp] theorem Core.advance_tenant (c : Core) (n : Nat) : (c.advance n).tenant = c.tenant := rfl
@[simp] theorem Core.advance_fn (c : Core) (n : Nat) : (c.advance n).fn = c.fn := rfl
@[simp] theorem Core.advance_run (c : Core) (n : Nat) : (c.advance n).run = c.run := rfl
@[simp] theorem Core.advance_actor (c : Core) (n : Nat) : (c.advance n).actor = c.actor := rfl
@[simp] theorem Core.advance_yielding (c : Core) (n : Nat) : (c.advance n).yielding = c.yielding := rfl
@[simp] theorem Core.advance_actors (c : Core) (n : Nat) : (c.advance n).actors = c.actors := rfl
@[simp] theorem Core.advance_rearm (c : Core) (n : Nat) : (c.advance n).rearm = c.rearm := rfl
@[simp] theorem Core.advance_lastFired (c : Core) (n : Nat) : (c.advance n).lastFired = c.lastFired := rfl
@[simp] theorem Core.advance_events (c : Core) (n : Nat) : (c.advance n).events = c.events := rfl
@[simp] theorem Core.advance_deque (c : Core) (n : Nat) : (c.advance n).deque = c.deque := rfl
@[simp] theorem Core.advance_queue (c : Core) (n : Nat) : (c.advance n).queue = c.queue := rfl
@[simp] theorem Core.advance_unreported (c : Core) (n : Nat) : (c.advance n).unreported = c.unreported := rfl
@[simp] theorem Core.advance_imprecise (c : Core) (n : Nat) : (c.advance n).imprecise = c.imprecise := rfl
@[simp] theorem Core.advance_view (c : Core) (n : Nat) : (c.advance n).view = c.view := rfl
@[simp] theorem Core.advance_age (c : Core) (n : Nat) : (c.advance n).age = c.age := rfl
@[simp] theorem Core.advance_sendSeq (c : Core) (n : Nat) : (c.advance n).sendSeq = c.sendSeq := rfl
@[simp] theorem Core.advance_ready (c : Core) (n : Nat) : (c.advance n).ready = c.ready := rfl
@[simp] theorem Core.advance_received (c : Core) (n : Nat) : (c.advance n).received = c.received := rfl
@[simp] theorem Core.advance_toAck (c : Core) (n : Nat) : (c.advance n).toAck = c.toAck := rfl
@[simp] theorem Core.advance_experts (c : Core) (n : Nat) : (c.advance n).experts = c.experts := rfl
@[simp] theorem Core.advance_waitFc (c : Core) (n : Nat) : (c.advance n).waitFc = c.waitFc := rfl
@[simp] theorem Core.advance_firings (c : Core) (n : Nat) : (c.advance n).firings = c.firings := rfl
@[simp] theorem Core.advance_retiredBase (c : Core) (n : Nat) : (c.advance n).retiredBase = c.retiredBase := rfl
@[simp] theorem Core.advance_held (c : Core) (n : Nat) : (c.advance n).held = c.held := rfl
@[simp] theorem Core.advance_attached (c : Core) (n : Nat) : (c.advance n).attached = c.attached := rfl

@[simp] theorem Core.jump_g (c : Core) (x : BitVec 48) : (c.jump x).g = c.g := rfl
@[simp] theorem Core.jump_p (c : Core) (x : BitVec 48) : (c.jump x).p = c.p := rfl
@[simp] theorem Core.jump_cause (c : Core) (x : BitVec 48) : (c.jump x).cause = c.cause := rfl
@[simp] theorem Core.jump_fpc (c : Core) (x : BitVec 48) : (c.jump x).fpc = c.fpc := rfl
@[simp] theorem Core.jump_fval (c : Core) (x : BitVec 48) : (c.jump x).fval = c.fval := rfl
@[simp] theorem Core.jump_m (c : Core) (x : BitVec 48) : (c.jump x).m = c.m := rfl
@[simp] theorem Core.jump_pm (c : Core) (x : BitVec 48) : (c.jump x).pm = c.pm := rfl
@[simp] theorem Core.jump_ih (c : Core) (x : BitVec 48) : (c.jump x).ih = c.ih := rfl
@[simp] theorem Core.jump_rm (c : Core) (x : BitVec 48) : (c.jump x).rm = c.rm := rfl
@[simp] theorem Core.jump_flush (c : Core) (x : BitVec 48) : (c.jump x).flush = c.flush := rfl
@[simp] theorem Core.jump_flags (c : Core) (x : BitVec 48) : (c.jump x).flags = c.flags := rfl
@[simp] theorem Core.jump_srgen (c : Core) (x : BitVec 48) : (c.jump x).srgen = c.srgen := rfl
@[simp] theorem Core.jump_wake (c : Core) (x : BitVec 48) : (c.jump x).wake = c.wake := rfl
@[simp] theorem Core.jump_lost (c : Core) (x : BitVec 48) : (c.jump x).lost = c.lost := rfl
@[simp] theorem Core.jump_vcycle (c : Core) (x : BitVec 48) : (c.jump x).vcycle = c.vcycle := rfl
@[simp] theorem Core.jump_tenant (c : Core) (x : BitVec 48) : (c.jump x).tenant = c.tenant := rfl
@[simp] theorem Core.jump_fn (c : Core) (x : BitVec 48) : (c.jump x).fn = c.fn := rfl
@[simp] theorem Core.jump_run (c : Core) (x : BitVec 48) : (c.jump x).run = c.run := rfl
@[simp] theorem Core.jump_actor (c : Core) (x : BitVec 48) : (c.jump x).actor = c.actor := rfl
@[simp] theorem Core.jump_yielding (c : Core) (x : BitVec 48) : (c.jump x).yielding = c.yielding := rfl
@[simp] theorem Core.jump_actors (c : Core) (x : BitVec 48) : (c.jump x).actors = c.actors := rfl
@[simp] theorem Core.jump_rearm (c : Core) (x : BitVec 48) : (c.jump x).rearm = c.rearm := rfl
@[simp] theorem Core.jump_lastFired (c : Core) (x : BitVec 48) : (c.jump x).lastFired = c.lastFired := rfl
@[simp] theorem Core.jump_events (c : Core) (x : BitVec 48) : (c.jump x).events = c.events := rfl
@[simp] theorem Core.jump_deque (c : Core) (x : BitVec 48) : (c.jump x).deque = c.deque := rfl
@[simp] theorem Core.jump_queue (c : Core) (x : BitVec 48) : (c.jump x).queue = c.queue := rfl
@[simp] theorem Core.jump_unreported (c : Core) (x : BitVec 48) : (c.jump x).unreported = c.unreported := rfl
@[simp] theorem Core.jump_imprecise (c : Core) (x : BitVec 48) : (c.jump x).imprecise = c.imprecise := rfl
@[simp] theorem Core.jump_view (c : Core) (x : BitVec 48) : (c.jump x).view = c.view := rfl
@[simp] theorem Core.jump_age (c : Core) (x : BitVec 48) : (c.jump x).age = c.age := rfl
@[simp] theorem Core.jump_sendSeq (c : Core) (x : BitVec 48) : (c.jump x).sendSeq = c.sendSeq := rfl
@[simp] theorem Core.jump_ready (c : Core) (x : BitVec 48) : (c.jump x).ready = c.ready := rfl
@[simp] theorem Core.jump_received (c : Core) (x : BitVec 48) : (c.jump x).received = c.received := rfl
@[simp] theorem Core.jump_toAck (c : Core) (x : BitVec 48) : (c.jump x).toAck = c.toAck := rfl
@[simp] theorem Core.jump_experts (c : Core) (x : BitVec 48) : (c.jump x).experts = c.experts := rfl
@[simp] theorem Core.jump_waitFc (c : Core) (x : BitVec 48) : (c.jump x).waitFc = c.waitFc := rfl
@[simp] theorem Core.jump_firings (c : Core) (x : BitVec 48) : (c.jump x).firings = c.firings := rfl
@[simp] theorem Core.jump_retiredBase (c : Core) (x : BitVec 48) : (c.jump x).retiredBase = c.retiredBase := rfl
@[simp] theorem Core.jump_held (c : Core) (x : BitVec 48) : (c.jump x).held = c.held := rfl
@[simp] theorem Core.jump_attached (c : Core) (x : BitVec 48) : (c.jump x).attached = c.attached := rfl

@[simp] theorem Core.advance_pc (c : Core) (n : Nat) : (c.advance n).pc = c.pc + BitVec.ofNat 48 n := rfl
@[simp] theorem Core.advance_retired (c : Core) (n : Nat) : (c.advance n).retired = c.retired + 1 := rfl
@[simp] theorem Core.jump_pc (c : Core) (x : BitVec 48) : (c.jump x).pc = x := rfl
@[simp] theorem Core.jump_retired (c : Core) (x : BitVec 48) : (c.jump x).retired = c.retired + 1 := rfl

/-! ### Reads after writes -/

@[simp] theorem State.tile_setTile_same (s : State) (t : Nat) (x : Tile) : (s.setTile t x).tile t = x := by
  simp [State.tile, State.setTile]

theorem State.tile_setTile_ne (s : State) (t u : Nat) (x : Tile) (h : u ≠ t) : (s.setTile t x).tile u = s.tile u := by
  simp [State.tile, State.setTile, mapGet_mapSet_ne _ _ _ _ h]

@[simp] theorem State.setTile_setTile (s : State) (t : Nat) (x y : Tile) : (s.setTile t x).setTile t y = s.setTile t y := by
  simp [State.setTile]

@[simp] theorem State.coreOf_setCore_same (s : State) (t : Nat) (c : Core) : (s.setCore t c).coreOf t = c := by
  simp [State.coreOf, State.setCore]

theorem State.coreOf_setCore_ne (s : State) (t u : Nat) (c : Core) (h : u ≠ t) : (s.setCore t c).coreOf u = s.coreOf u := by
  simp [State.coreOf, State.setCore, State.tile_setTile_ne _ _ _ _ h]

theorem State.tile_setCore_ne (s : State) (t u : Nat) (c : Core) (h : u ≠ t) : (s.setCore t c).tile u = s.tile u := by
  simp [State.setCore, State.tile_setTile_ne _ _ _ _ h]

@[simp] theorem State.tile_setCore_same (s : State) (t : Nat) (c : Core) :
    (s.setCore t c).tile t = { s.tile t with core := c } := by
  simp [State.setCore]

@[simp] theorem State.setCore_setCore (s : State) (t : Nat) (c d : Core) : (s.setCore t c).setCore t d = s.setCore t d := by
  simp [State.setCore]

@[simp] theorem State.core_withCore (s : State) (c : Core) : (s.withCore c).core = c := by
  simp [State.core, State.withCore]

@[simp] theorem State.withCore_withCore (s : State) (c d : Core) : (s.withCore c).withCore d = s.withCore d := by
  simp [State.withCore]

@[simp] theorem State.advance_withCore (s : State) (c : Core) (n : Nat) :
    (s.withCore c).advance n = s.withCore (c.advance n) := by
  simp [State.advance]

@[simp] theorem State.die_setDie_same (s : State) (d : Nat) (x : Die) : (s.setDie d x).die d = x := by
  simp [State.die, State.setDie]

theorem State.die_setDie_ne (s : State) (d e : Nat) (x : Die) (h : e ≠ d) : (s.setDie d x).die e = s.die e := by
  simp [State.die, State.setDie, mapGet_mapSet_ne _ _ _ _ h]

@[simp] theorem State.device_setDevice_same (s : State) (d : Nat) (x : Device) : (s.setDevice d x).device d = x := by
  simp [State.device, State.setDevice]

theorem State.device_setDevice_ne (s : State) (d e : Nat) (x : Device) (h : e ≠ d) :
    (s.setDevice d x).device e = s.device e := by
  simp [State.device, State.setDevice, mapGet_mapSet_ne _ _ _ _ h]

@[simp] theorem State.tenant_setTenant_same (s : State) (d fn : Nat) (x : Tenant) :
    (s.setTenant d fn x).tenant d fn = x := by
  simp [State.tenant, State.setTenant]

/-! ### Registers -/

/-- g0 reads zero (R76). -/
@[simp] theorem Core.reg_zero (c : Core) : c.reg 0#5 = 0#64 := by simp [Core.reg]

/-- A write to g0 has no effect (R76). -/
@[simp] theorem Core.setReg_zero (c : Core) (v : Dword) : c.setReg 0#5 v = c := by simp [Core.setReg]

/-- A register reads what was written to it, and g0 zero. -/
theorem Core.reg_setReg (c : Core) (r q : BitVec 5) (v : Dword) :
    (c.setReg r v).reg q = if q = r ∧ q ≠ 0 then v else c.reg q := by
  by_cases hr : r = 0
  · subst hr; by_cases hq : q = 0 <;> simp [hq]
  · by_cases hq : q = 0
    · simp [hq]
    · have hn : (r.toNat = q.toNat) ↔ q = r := by
        constructor
        · intro h; exact (BitVec.eq_of_toNat_eq h).symm
        · rintro rfl; rfl
      simp only [Core.reg, Core.setReg, hr, hq, if_false, ne_eq, not_false_eq_true, and_true]
      rw [Vector.getElem_set]
      simp only [hn]

/-- p0 reads true (R77). -/
@[simp] theorem Core.pred_zero (c : Core) : c.pred 0#3 = true := by simp [Core.pred]

/-- A write to p0 has no effect (R77). -/
@[simp] theorem Core.setPred_zero (c : Core) (v : Bool) : c.setPred 0#3 v = c := by simp [Core.setPred]

/-- A predicate reads what was written to it, and p0 true. -/
theorem Core.pred_setPred (c : Core) (i j : BitVec 3) (v : Bool) :
    (c.setPred i v).pred j = if j = i ∧ j ≠ 0 then v else c.pred j := by
  by_cases hi : i = 0
  · subst hi; by_cases hj : j = 0 <;> simp [hj]
  · by_cases hj : j = 0
    · simp [hj]
    · simp only [Core.pred, Core.setPred, hi, hj, if_false, decide_false, Bool.false_or, ne_eq, not_false_eq_true, and_true]
      have hj8 : j.toNat < 8 := j.isLt
      have h1 : (1#8 <<< i.toNat).getLsbD j.toNat = decide (j = i) := by
        by_cases e : j = i
        · subst e; simp [hj8]
        · have : j.toNat ≠ i.toNat := fun h => e (BitVec.eq_of_toNat_eq h)
          simp only [BitVec.getLsbD_shiftLeft, BitVec.getLsbD_one, e, decide_false]
          by_cases hlt : j.toNat < i.toNat
          · simp [hlt]
          · simp [show j.toNat - i.toNat ≠ 0 by omega]
      have hz : (0#8).getLsbD j.toNat = false := by simp
      have hb : ((if v then 1#8 <<< i.toNat else 0#8)).getLsbD j.toNat = (v && decide (j = i)) := by
        cases v
        · exact hz
        · exact h1
      rw [BitVec.getLsbD_or, BitVec.getLsbD_and, BitVec.getLsbD_not, h1, hb]
      by_cases e : j = i <;> simp [e, hj8]

end Sys2Proof.Machine
end

