-- ==== Sys2Proof/Laws/Ops.lean ====
section
/-! SUPPORT. What each shared operation of the scalar instructions can do: the guard, the checks, the traps, the waits, the
return, the local memory accesses, the way of an access, what writes, drains and refreshes keep, and the wake of a die. -/

namespace Sys2Proof.Machine

/-! ### Guard, checks and mode -/

theorem guarded_true {gn : Bool} {g : BitVec 3} {s : State} (n : Nat) (go : State → Out)
    (h : s.core.guardHolds gn g = true) : guarded gn g n s go = go s := by
  simp [guarded, h]

theorem guarded_false {gn : Bool} {g : BitVec 3} {s : State} (n : Nat) (go : State → Out)
    (h : s.core.guardHolds gn g = false) : guarded gn g n s go = finish s n := by
  simp [guarded, h]

/-- Checks that all pass go on. -/
theorem checks_pass {l : List (Bool × BitVec 7 × Dword)} {s : State} (go : State → Out) (h : ∀ c ∈ l, c.1 = false) :
    checks s l go = go s := by
  induction l with
  | nil => rfl
  | cons c r ih =>
    obtain ⟨b, code, fval⟩ := c
    have hb : b = false := h (b, code, fval) (by simp)
    simp [checks, hb, ih fun x hx => h x (List.mem_cons_of_mem _ hx)]

/-- Checks either all pass, or the first that fails raises its code. -/
theorem checks_cases (l : List (Bool × BitVec 7 × Dword)) (s : State) (go : State → Out) :
    checks s l go = go s ∨ ∃ c ∈ l, c.1 = true ∧ checks s l go = raise s c.2.1 c.2.2 := by
  induction l with
  | nil => exact .inl rfl
  | cons c r ih =>
    obtain ⟨b, code, fval⟩ := c
    cases b with
    | true => exact .inr ⟨(true, code, fval), List.mem_cons_self, rfl, by simp [checks]⟩
    | false =>
      rcases ih with h | ⟨x, hx, hb, he⟩
      · exact .inl (by simp [checks, h])
      · exact .inr ⟨x, List.mem_cons_of_mem _ hx, hb, by simp [checks, he]⟩

theorem privileged_pass {s : State} (w : Word) (go : State → Out) (h : s.core.m ≠ 0) : privileged w s go = go s := by
  have h' : ¬ s.core.m = 0#2 := h
  simp [privileged, Core.user, h']

@[simp] theorem finish_eq (s : State) (n : Nat) : finish s n = .next (s.withCore (s.core.advance n)) := rfl

@[simp] theorem writeReg_eq (s : State) (d : BitVec 5) (v : Dword) (n : Nat) :
    writeReg s d v n = .next (s.withCore ((s.core.setReg d v).advance n)) := by
  simp [writeReg]

@[simp] theorem writePred_eq (s : State) (i : BitVec 3) (v : Bool) (n : Nat) :
    writePred s i v n = .next (s.withCore ((s.core.setPred i v).advance n)) := by
  simp [writePred]

/-! ### What a core waits in -/

/-- A wait may end just where the core waits and does not stand. -/
theorem State.waitOf_some {s : State} {t : Nat} {w : Wait} :
    s.waitOf t = some w ↔ s.coreStands t = false ∧ (s.coreOf t).run = .waiting w := by
  cases hc : s.coreStands t <;> cases hr : (s.coreOf t).run <;> simp [State.waitOf, hc, hr]

theorem State.waitOf_stands {s : State} {t : Nat} (h : s.coreStands t = true) : s.waitOf t = none := by
  simp [State.waitOf, h]

/-! ### Exceptions -/

/-- A code of class Resume with ss.mode.ih 0 enters the handler (R87). -/
theorem State.takeTrap_resume {s : State} {t : Nat} {code : BitVec 7} (fpc fval : Dword) (h : (s.coreOf t).ih = false)
    (hc : causeClass code = .resume) :
    s.takeTrap t code fpc fval = s.setCore t ((s.coreOf t).enterHandler code fpc fval) := by
  simp [State.takeTrap, h, hc]

theorem raise_resume {s : State} {code : BitVec 7} (fval : Dword) (h : s.core.ih = false) (hc : causeClass code = .resume) :
    raise s code fval = .next (s.withCore (s.core.enterHandler code s.core.pc64 fval)) := by
  have h' : (s.coreOf s.cur).ih = false := h
  simp only [raise, State.takeTrap_resume _ _ h' hc]; rfl

@[simp] theorem Core.enterHandler_g (c : Core) (code : BitVec 7) (a b : Dword) : (c.enterHandler code a b).g = c.g := rfl
@[simp] theorem Core.enterHandler_p (c : Core) (code : BitVec 7) (a b : Dword) : (c.enterHandler code a b).p = c.p := rfl
@[simp] theorem Core.enterHandler_pc (c : Core) (code : BitVec 7) (a b : Dword) : (c.enterHandler code a b).pc = 0 := rfl
@[simp] theorem Core.enterHandler_pm (c : Core) (code : BitVec 7) (a b : Dword) : (c.enterHandler code a b).pm = c.m := rfl
@[simp] theorem Core.enterHandler_fpc (c : Core) (code : BitVec 7) (a b : Dword) : (c.enterHandler code a b).fpc = a := rfl
@[simp] theorem Core.enterHandler_fval (c : Core) (code : BitVec 7) (a b : Dword) : (c.enterHandler code a b).fval = b := rfl
@[simp] theorem Core.enterHandler_ih (c : Core) (code : BitVec 7) (a b : Dword) : (c.enterHandler code a b).ih = true := rfl
@[simp] theorem Core.enterHandler_view (c : Core) (code : BitVec 7) (a b : Dword) :
    (c.enterHandler code a b).view = c.view := rfl

/-! ### Phase buffers -/

theorem lastEntry_append (p q : List PbEntry) (a : Nat) :
    lastEntry (p ++ q) a = (lastEntry q a).or (lastEntry p a) := by
  unfold lastEntry
  rw [List.foldl_append]
  generalize List.foldl _ none p = x
  induction q generalizing x with
  | nil => simp
  | cons e r ih =>
    simp only [List.foldl_cons]
    rw [ih, ih (if e.addr = a then some e.byte else none)]
    by_cases h : e.addr = a
    · simp [h]
    · simp [h]

/-- The latest entry for an address among the bytes of one store. -/
theorem lastEntry_mapIdx (n a : Nat) (bs : List Byte) (x : Nat) :
    lastEntry (bs.mapIdx fun i b => { store := n, addr := a + i, byte := b }) x =
      if a ≤ x then bs[x - a]? else none := by
  induction bs using List.reverseRecOn with
  | nil => simp [lastEntry]
  | append_singleton r b ih =>
    rw [List.mapIdx_append, lastEntry_append, ih]
    simp only [List.mapIdx_cons, List.mapIdx_nil, Nat.zero_add, lastEntry, List.foldl_cons, List.foldl_nil]
    by_cases h : a + r.length = x
    · subst h; simp
    · by_cases hle : a ≤ x
      · have : x - a ≠ r.length := by omega
        simp only [h, hle, if_true, if_false, Option.none_or]
        rw [List.getElem?_append]
        split
        · rfl
        · rename_i hn
          rw [List.getElem?_eq_none (by omega), List.getElem?_eq_none (by simp; omega)]
      · simp [h, hle]

/-- What an agent sees after a store of its own: the bytes stored, and elsewhere what it saw before (R227). -/
theorem State.viewByte_store (s : State) (v : View) (a : Nat) (bs : List Byte) (x : Nat) :
    s.viewByte (v.store a bs) x = if a ≤ x ∧ x - a < bs.length then bs.getD (x - a) 0 else s.viewByte v x := by
  unfold State.viewByte View.store
  rw [lastEntry_append, lastEntry_mapIdx]
  by_cases h : a ≤ x
  · by_cases hl : x - a < bs.length
    · simp [h, hl]
    · simp [h, hl]
  · simp [h]

/-! ### Writes, drains and refreshes keep the form of memory -/

/-- A local store where no `sring` moves the tile's bytes appends to the core's buffer, and does nothing else (R110, R224, R227). -/
theorem State.storeLocal_still {s : State} (a : Nat) (bs : List Byte) (h : s.ringFlux s.cur = none) :
    s.storeLocal a bs = s.withCore { s.core with view := s.core.view.store (spBase s.cur + a) bs } := by
  simp [State.storeLocal, h]

/-- Where no die is lost and no link is down, every access has its way (R2, R355). -/
theorem State.noWay_whole {s : State} (lost : ∀ n, (s.die n).lost = false) (down : s.downLinks = []) (dev pa : Nat) :
    s.noWay dev pa = false := by
  simp [State.noWay, State.noPath, State.portLost, lost, down]

@[simp] theorem State.woMark_mem (s : State) (a : Nat) : (s.woMark a).mem = s.mem := by
  unfold State.woMark
  split
  · rfl
  · simp only []
    repeat' split
    all_goals rfl

theorem State.foldl_woMark_mem (cs : List Host.Cell) (s : State) : (cs.foldl (fun s c => s.woMark c.1) s).mem = s.mem := by
  induction cs generalizing s with
  | nil => rfl
  | cons c r ih => simp [ih]

/-- A write keeps the canonical form of M. -/
theorem State.writeCells_wf (s : State) (cs : List Host.Cell) (h : Memory.wf s.mem = true) :
    Memory.wf (s.writeCells cs).mem = true := by
  simp only [State.writeCells, State.foldl_woMark_mem]
  exact Memory.foldl_set_wf _ _ h

theorem State.writeM_wf (s : State) (a : Nat) (bs : List Byte) (h : Memory.wf s.mem = true) :
    Memory.wf (s.writeM a bs).mem = true := s.writeCells_wf _ h

theorem State.foldl_writeCells_wf (css : List (List Host.Cell)) (s : State) (h : Memory.wf s.mem = true) :
    Memory.wf (css.foldl (fun s cs => s.writeCells cs) s).mem = true := by
  induction css generalizing s with
  | nil => exact h
  | cons c r ih => exact ih _ (s.writeCells_wf c h)

theorem foldl_sv_wf (m : Memory) (es : List PbEntry) (sv : Memory) (h : Memory.wf sv = true) :
    Memory.wf (es.foldl (fun sv e => sv.set e.addr (m.get e.addr)) sv) = true := by
  induction es generalizing sv with
  | nil => exact h
  | cons e r ih => exact ih _ (Memory.set_wf _ _ _ h)

/-- A drain keeps the canonical form of M and of the agent's snapshot. -/
theorem drainView_wf (s : State) (who : Nat) (v : View) (p : Nat → Bool) (h : Memory.wf s.mem = true)
    (hv : Memory.wf v.sv = true) :
    Memory.wf (drainView s who v p).1.mem = true ∧ Memory.wf (drainView s who v p).2.sv = true :=
  ⟨State.foldl_writeCells_wf _ _ h, foldl_sv_wf _ _ _ hv⟩

/-- A refresh keeps the canonical form of the agent's snapshot. -/
theorem refreshView_wf (m : Memory) (v : View) (p : Nat → Bool) (hv : Memory.wf v.sv = true) :
    Memory.wf (refreshView m v p).sv = true := Memory.over_wf _ _ _ hv

/-! ### Waking a die -/

/-- A wake changes at most the idle state of its die. -/
theorem State.wakeDie_cases (s : State) (g : Nat) :
    s.wakeDie g = s ∨ s.wakeDie g = s.setDie g { s.die g with idle := 0, idleMicros := 0 } := by
  unfold State.wakeDie; split
  · exact .inl rfl
  · exact .inr rfl

@[simp] theorem State.wakeDie_mem (s : State) (g : Nat) : (s.wakeDie g).mem = s.mem := by
  unfold State.wakeDie; split <;> rfl
@[simp] theorem State.wakeDie_tiles (s : State) (g : Nat) : (s.wakeDie g).tiles = s.tiles := by
  unfold State.wakeDie; split <;> rfl
@[simp] theorem State.wakeDie_regions (s : State) (g : Nat) : (s.wakeDie g).regions = s.regions := by
  unfold State.wakeDie; split <;> rfl
@[simp] theorem State.wakeDie_cmds (s : State) (g : Nat) : (s.wakeDie g).cmds = s.cmds := by
  unfold State.wakeDie; split <;> rfl
@[simp] theorem State.wakeDie_idle (s : State) (g : Nat) : ((s.wakeDie g).die g).idle = 0 := by
  unfold State.wakeDie; split <;> simp [*]
@[simp] theorem State.wakeDie_wakeDie (s : State) (g : Nat) : (s.wakeDie g).wakeDie g = s.wakeDie g := by
  rw [State.wakeDie, if_pos (s.wakeDie_idle g)]

end Sys2Proof.Machine
end

