-- ==== Sys2Proof/Tests/Slice0.lean ====
section
/-! SUPPORT. Tests: words written out from the manual's encodings, ill-formed terms that each check refuses, steps whose results
the manual or hand calculation from it gives, and, for each statement with hypotheses, a state that meets them. -/

namespace Sys2Proof.Tests

open Sys2Proof Sys2Proof.Machine Sys2Proof.Rules

set_option Elab.async false

/-! ### Small states -/

/-- A form A instruction under p0 without modifiers. -/
def fA : FormA := { sub := 0, gn := false, guard := 0, b := 0, a := 0, d := 0 }
/-- A form B instruction under p0 without modifiers. -/
def fB : FormB := { sub := 0, gn := false, guard := 0, a := 0, d := 0, ext16 := 0, imm16 := 0 }
/-- A form C instruction under p0 without modifiers. -/
def fC : FormC := { sub := 0, gn := false, guard := 0, a := 0, d := 0, ext32 := 0, lit32 := 0 }

/-- The machine with one tile that has been touched. -/
def onTile (x : Tile) : State := { State.reset with tiles := [(0, x)] }
/-- The machine with a core on tile 0. -/
def onCore (c : Core) : State := onTile { Tile.reset with core := c }
/-- A core that runs with some general registers set. -/
def regs (rs : List (BitVec 5 × Dword)) : Core :=
  rs.foldl (fun c r => c.setReg r.1 r.2) { Core.reset with run := .running }
/-- The core after a step, of tile 0. -/
def after (o : Host.Outcome State Fault Refusal) : Core :=
  match o with
  | .next s => s.coreOf 0
  | .fault _ => Core.reset
  | .refused _ => Core.reset
/-- The machine after a step. -/
def next (o : Host.Outcome State Fault Refusal) : State :=
  match o with
  | .next s => s
  | .fault _ => State.reset
  | .refused _ => State.reset

/-! ### Words from the manual -/

/-- R25, the example at R32: 0x00208C40. -/
theorem test_decode_add : decodeWords [0x00208C40] = .ok (.addA { fA with b := 2, a := 1, d := 3 }) := by rfl
/-- R26: `st.w [g4 + #8] := g5 if !p1`. -/
theorem test_decode_st : decodeWords [0x52021505, 8] =
    .ok (.stB { fB with sub := 2, gn := true, guard := 1, a := 4, d := 5, imm16 := 8 }) := by rfl
/-- R27: op 0x13 `or`, form C, a = 0, d = 1: bits 0001_0011 at [9:2], 10 at [1:0], d at [14:10]; lit32 the third word. -/
theorem test_decode_or_c : decodeWords [0x0000044E, 0, 0x9ABCDEF0] = .ok (.orC { fC with d := 1, lit32 := 0x9ABCDEF0 }) := by rfl
/-- R30: `cmp.lt.s64 p2 := g1, g3`. -/
theorem test_decode_cmp : decodeWords [0x403088C0] = .ok (.cmpA { fA with sub := 2, b := 3, a := 1, d := 2 }) := by rfl
/-- R92. -/
theorem test_decode_nop : decodeWords [0] = .ok .nop := by rfl
/-- R33: `sport` of tn3 into fi5 from the address in g4. -/
theorem test_decode_sport : decodeWords [0x03050003, 4, 0, 0] = .ok .sport := by rfl
/-- R264: `sswap.sn2`. -/
theorem test_decode_sswap : decodeWords [0x00000223, 0, 0, 0] = .ok .sswap := by rfl
/-- R37: `.el e40 fadd e12, fi3` in station S2. -/
theorem test_decode_fadd_el : decodeEl 0x00000000_40000000_00003FF4_0C0C0290 = .ok .elFadd := by rfl
/-- R37: its fields. -/
theorem test_fields_fadd_el : unpackEl 0x00000000_40000000_00003FF4_0C0C0290 =
    { refire := 0, route := 0, sub := 0, lat := 4, tn := 0, flush := false, rm := 0, k := 0, in2 := 1023, in1 := 259, in0 := 12
      station := 2, enable := true } := by rfl
/-- R45: merge (1), enable, station 3, inA 1, inB 2, ctl 63, out0 32, out1 63: fields at bits 4, 10, 16, 22, 28 and 34. -/
theorem test_decode_router :
    decodeRouter (BitVec.ofNat 64 (1 + 8 + 3 * 2 ^ 4 + 1 * 2 ^ 10 + 2 * 2 ^ 16 + 63 * 2 ^ 22 + 32 * 2 ^ 28 + 63 * 2 ^ 34)) = .ok .merge := by
  rfl
/-- R47: `rd` (code 3) with x = 8, y = 2 and imm16 = 64: fields at bits 0, 4, 8 and 16. -/
theorem test_decode_layout : decodeLayout 0x00400283 = .ok .layoutRd := by rfl
/-- R380: sub[0] of 0x90 makes it `gsend.x`. -/
theorem test_decode_gsend_x : decodeWords [0x20000240] = .ok (.gsendXA { fA with sub := 1 }) := by rfl
/-- R343: `sget g4 := ss.fpmode`. -/
theorem test_decode_sget : decodeWords [0x00001281, 5] = .ok (.sget { fB with d := 4, imm16 := 5 }) := by rfl

/-! ### Ill-formed terms -/

/-- R31 step 4: sub 7 of `ld` is not allocated. -/
theorem test_ill_sub : (Instr.ldA { fA with sub := 7 }).wf = false := by decide
/-- R31 step 5: b of `clz` is reserved. -/
theorem test_ill_reserved_a : (Instr.clz { fA with b := 1 }).wf = false := by decide
/-- R26: ext16 of `add` is reserved. -/
theorem test_ill_reserved_b : (Instr.addB { fB with ext16 := 1 }).wf = false := by decide
/-- R27: ext32 of `add` is reserved. -/
theorem test_ill_reserved_c : (Instr.addC { fC with ext32 := 1 }).wf = false := by decide
/-- R380: sub[0] tells `gsend` and `gsend.x` apart. -/
theorem test_ill_send : (Instr.gsendA { fA with sub := 1 }).wf = false := by decide
/-- The fields of a stream word that are all zero. -/
def noFields : StreamWord := { b := 0, a := 0, bar := false, gn := false, guard := 0, sn := 0, w1 := 0, w2 := 0, w3 := 0 }
/-- R36: sn of `scopy` without a follow-on is reserved. -/
theorem test_ill_stream : StreamWord.wf .scopy { noFields with sn := 1 } = false := by decide
/-- R36: `sport` of port 64. -/
theorem test_ill_port : StreamWord.wf .sport { noFields with a := 64 } = false := by decide
/-- The fields of an enabled element word that are otherwise zero. -/
def elFields : ElWord :=
  { refire := 0, route := 0, sub := 0, lat := 0, tn := 0, flush := false, rm := 0, k := 0, in2 := 1023, in1 := 1023, in0 := 1023
    station := 0, enable := true }
/-- R38: selector 376 does not exist. -/
theorem test_ill_selector : ElWord.wf .elFadd { elFields with in0 := 376 } = false := by decide
/-- R39: route 0x01 does not exist. -/
theorem test_ill_route : ElWord.wf .elFadd { elFields with route := 1 } = false := by decide
/-- R37: rounding mode 7 of an element. -/
theorem test_ill_rm : ElWord.wf .elFadd { elFields with rm := 7 } = false := by decide
/-- R202, R42: in1 of `agen` is reserved, and may hold no selector, not even k. -/
theorem test_ill_agen : ElWord.wf .elAgen { elFields with in1 := 1023, in2 := 0 } = false ∧ ElWord.wf .elAgen { elFields with in1 := 0, in2 := 0 } = true := by
  decide
/-- R138: a delay of depth 0. -/
theorem test_ill_delay : ElWord.wf .elDelayIntake elFields = false := by decide
/-- R46: an unused channel field of `fork` must hold 63. -/
theorem test_ill_router : RouterWord.wf .fork { out1 := 1, out0 := 2, ctl := 0, inB := 63, inA := 3, station := 0, enable := true }
    = false := by decide
/-- R48: `next` to place 64. -/
theorem test_ill_layout : LayoutWord.wf .layoutNext { imm16 := 64, y := 0, x := 0 } = false := by decide
/-- Well-formed terms pass the same checks. -/
theorem test_well_formed : (Instr.ldA { fA with sub := 6 }).wf = true ∧ (Instr.gsendXA { fA with sub := 1 }).wf = true ∧
    StreamWord.wf .sport { noFields with a := 63 } = true ∧ ElWord.wf .elFadd { elFields with in0 := 375 } = true ∧
    RouterWord.wf .fork { out1 := 1, out0 := 2, ctl := 63, inB := 63, inA := 3, station := 0, enable := true } = true ∧
    LayoutWord.wf .layoutNext { imm16 := 63, y := 0, x := 0 } = true := by decide

/-! ### The core: results that the manual gives -/

/-- R89, the example: `add.u32 g1, g1, -1` subtracts 1 modulo 2^32. -/
theorem test_add_u32 : (after (exec (.addB { fB with sub := 3, a := 1, d := 1, imm16 := 0xFFFF }) (onCore (regs [(1, 5)])))).reg 1 = 4 := by
  decide
/-- R89, the example: with `.sat` the same line gives 0xFFFF_FFFF. -/
theorem test_add_u32_sat :
    (after (exec (.addB { fB with sub := 7, a := 1, d := 1, imm16 := 0xFFFF }) (onCore (regs [(1, 5)])))).reg 1 = 0xFFFFFFFF := by
  decide
/-- R28: the literal of `or` is zero-extended. -/
theorem test_or_literal : (after (exec (.orC { fC with d := 1, lit32 := 0x9ABCDEF0 }) (onCore (regs [])))).reg 1 = 0x9ABCDEF0 := by decide
/-- R100, rows 9 and 10 of the worked program: division by zero of −4 gives −2^63, and the remainder the dividend. -/
theorem test_div_zero : (after (exec (.divA { fA with a := 1, d := 2 }) (onCore (regs [(1, -4)])))).reg 2 = 0x8000000000000000 := by decide
theorem test_rem_zero : (after (exec (.remA { fA with a := 1, d := 2 }) (onCore (regs [(1, -4)])))).reg 2 = 0xFFFFFFFFFFFFFFFC := by decide
/-- R104, the worked program: (2^64 − 1) + 1 gives 0 and carry 1 in p5. -/
theorem test_addcp : let c := after (exec (.addcpA { fA with sub := 5, b := 2, a := 1, d := 3 }) (onCore (regs [(1, -1), (2, 1)])))
    c.reg 3 = 0 ∧ c.pred 5 = true := by decide
/-- R105: −1 is below 1 in the signed reading and above it in the unsigned one. -/
theorem test_cmp_signs : let c := regs [(1, -1), (2, 1)]
    (after (exec (.cmpA { fA with sub := 2, b := 2, a := 1, d := 3 }) (onCore c))).pred 3 = true ∧
    (after (exec (.cmpA { fA with sub := 4, b := 2, a := 1, d := 3 }) (onCore c))).pred 3 = false := by decide
/-- R96: `trap 5` at pc 0x100 enters the handler with code 0x07, ss.fpc = pc + 8 and ss.fval = 5. -/
theorem test_trap : let c := after (exec (.trapB { fB with imm16 := 5 }) (onCore { regs [] with pc := 0x100 }))
    (c.cause, c.fpc, c.fval, c.pc, c.ih) = (0x07, 0x108, 5, 0, true) := by decide
/-- R91: a `loop` over 0 wraps and branches back by its literal. -/
theorem test_loop_wraps : let c := after (exec (.loopB { fB with d := 1, imm16 := 0xFFFF }) (onCore { regs [] with pc := 0x100 }))
    (c.reg 1, c.pc) = (-1, 0xFC) := by decide
/-- R112: a store of a halfword and a signed byte load of its high byte, little-endian. -/
theorem test_store_load : let s := next (exec (.stB { fB with sub := 1, a := 0, d := 1, imm16 := 0x2000 }) (onCore (regs [(1, 0x80FF)])))
    (after (exec (.ldB { fB with sub := 0, a := 0, d := 2, imm16 := 0x2001 }) s)).reg 2 = 0xFFFFFFFFFFFFFF80 := by decide
/-- R114: `fadd` of 1 and 2^−24, half a unit in the last place, rounds to even, and is inexact. -/
theorem test_fadd_even : let c := after (exec (.faddA { fA with sub := 1, b := 2, a := 1, d := 3 }) (onCore (regs [(1, 0x3F800000), (2, 0x33800000)])))
    (c.reg 3, c.flags) = (0x3F800000, 0x01) := by decide
/-- R102: `ext` of 8 bits of 0x80, signed and unsigned. -/
theorem test_ext : extValue 0 0x80 8 = 0xFFFFFFFFFFFFFF80 ∧ extValue 2 0x80 8 = 0x80 := by decide
/-- R118: −0 is class 3. -/
theorem test_fclass : (after (exec (.fclass { fA with a := 1, d := 2 }) (onCore (regs [(1, 0x80000000)])))).reg 2 = 8 := by decide
/-- R97: `brk` enters the handler behind itself. -/
theorem test_brk : let c := after (exec (.brk fA) (onCore { regs [] with pc := 0x10 }))
    (c.cause, c.fpc) = (0x08, 0x14) := by decide

/-! ### Hypotheses that can be met: the core -/

/-- The guard p0 holds on every core, and !p0 on none. -/
theorem test_meets_guard : Holds (onCore (regs [])) false 0 ∧ (onCore (regs [])).core.guardHolds true 0 = false := by decide
/-- Sizes without and with `.sat`, signed and unsigned. -/
theorem test_meets_IntegerResults : sizeSat 0 = false ∧ sizeSat 4 = true ∧ sizeSigned 4 = true ∧ sizeSigned 6 = false := by decide
/-- A core outside and inside its handler, and a code of each class. -/
theorem test_meets_TakingACode : (onCore (regs [])).core.ih = false ∧ causeClass 0x07 = .resume ∧ causeClass 0x50 = .region ∧
    causeClass 0x24 = .tenant ∧ (onCore { regs [] with ih := true }).core.ih = true := by decide
/-- `trap` and then `eret` both go on. -/
theorem test_meets_TrapsAndReturn : ∃ t u, exec (.trapB fB) (onCore (regs [])) = .next t ∧ exec (.eret fA) t = .next u ∧
    (onCore (regs [])).core.ih = false ∧ (onCore (regs [])).core.held = false ∧ (onCore (regs [])).core.m ≠ 0 ∧
    (onCore { regs [] with held := true }).core.held = true := ⟨_, _, rfl, rfl, by decide⟩
/-- A core without and with a debugger, and one with a woken record and one without. -/
theorem test_meets_TrapsAndReturn_waits : (onCore (regs [])).core.attached = false ∧
    (onCore { regs [] with attached := true }).core.attached = true ∧ (regs []).woken = false ∧
    ({ regs [] with wake := 8, events := [0x30] } : Core).woken = true := by decide
/-- A core in user mode, and instructions of each form under a guard that does not hold, privileged ones in mode 10. -/
theorem test_meets_GuardAndPrivilege : (onCore { regs [] with m := 0 }).core.m = 0 ∧
    asFormA (.addA { fA with gn := true }) = some (0x10, { fA with gn := true }) ∧ (0x10 : Nat) ∉ [0x0A, 0x96, 0xA2, 0xA3, 0xA4, 0xA7] ∧
    asFormA (.relatch { fA with gn := true }) = some (0xA2, { fA with gn := true }) ∧ (onCore (regs [])).core.m = 2 ∧
    asFormB (.addB { fB with gn := true }) = some (0x10, { fB with gn := true }) ∧
    asFormC (.addC { fC with gn := true }) = some (0x10, { fC with gn := true }) ∧
    (onCore (regs [])).core.guardHolds true 0 = false := ⟨rfl, rfl, by decide, rfl, rfl, rfl, rfl, by decide⟩
/-- Accesses at both ends of what user mode may reach, no write-once word in the way. -/
theorem test_meets_LocalAccess : Accessible (regs []) 0x2FFFF8 8 ∧ Accessible { regs [] with m := 0 } 0x1000 8 ∧ Accessible (regs []) 0 16 ∧
    (onCore (regs [])).loadAbsent 0x2FFFF8 8 = false ∧ (onCore (regs [])).loadAbsent 0 16 = false ∧
    (onCore (regs [])).ringFlux 0 = none := by decide
/-- A tile whose `sring` has moved 16 bytes at 0x2000, which a store of 8 bytes at 0x2008 meets and one at 0x2010 does not. -/
theorem test_meets_LocalAccess_ring : let c : Cmd := { (default : Cmd) with
        kind := .stream 0x0E, stage := .complete, ranges := [(spBase 0 + 0x2000, 16)] }
    let s : State := { onCore (regs []) with cmds := [(5, c)] }
    s.ringFlux s.cur = some (spBase 0 + 0x2000, 16) ∧ inRange (spBase 0 + 0x2000) 16 (spBase 0 + 0x2008) = true ∧
    ∀ i, i < 8 → inRange (spBase 0 + 0x2000) 16 (spBase 0 + 0x2010 + i) = false := by decide
/-- A tile with a write-once buffer of one absent word at 0x2000. -/
def writeOnceTile (c : Core) : Tile :=
  { Tile.reset with core := c, writeOnce := [{ base := spBase 0 + 0x2000, words := 1, present := [], cmd := 0, bar := none }] }
/-- A load that waits, on a word that is present by now and on one that is not. -/
theorem test_meets_LocalAccess_wait : let f := { fA with sub := 5, a := 1, d := 2 }
    let c := { regs [(1, 0x2000)] with run := .waiting (.writeOnce (.ldA f)) }
    (Waits (onCore c) 0 (.writeOnce (.ldA f)) ∧ Waits (onTile (writeOnceTile c)) 0 (.writeOnce (.ldA f))) ∧ loadWidth f.sub = 4 ∧ Accessible c 0x2000 4 ∧
    ((onCore c).rerun 0).loadAbsent 0x2000 4 = false ∧ ((onTile (writeOnceTile c)).rerun 0).loadAbsent 0x2000 4 = true := by decide +kernel

/-! ### FP32, global memory, barriers and tags -/

/-- Numbers that are no NaN, and a mode other than SR. -/
theorem test_meets_FpDrawAndOrder : (1 : BitVec 3) ≠ rmSR ∧ (src32 false 0x3F800000).isNan = false ∧ (src32 true 1).isNan = false := by
  decide

/-- A latch of VAs 0 to 2^16 at a frame in HBM. -/
def latch : Latch :=
  { num := 0, va := 0, size := 2 ^ 16, frame := 2 ^ 20, leaf := 0, r := true, w := true, refs := 0, dropped := false, sampled := false }
/-- A running core whose address generator holds the latch. -/
def latched (rs : List (BitVec 5 × Dword)) : Core := { regs rs with age := { Age.reset with latches := [latch] } }
/-- An address whose page a latch holds is reached for each kind of access, and the last VA that R213 admits passes its checks. -/
theorem test_meets_GlobalAccess : Reaches (onCore (latched [])) 0xFFF8 0 (onCore (latched [])) 0x10FFF8 ∧
    Reaches (onCore (latched [])) 8 1 (onCore (latched [])) 0x100008 ∧ Reaches (onCore (latched [])) 0 2 (onCore (latched [])) 0x100000 ∧
    GlobalOk (2 ^ 52 - 8) ∧ (onCore (latched [])).paAbsent 0x10FFF8 8 = false :=
  ⟨⟨_, _, _, rfl, rfl⟩, ⟨_, _, _, rfl, rfl⟩, ⟨_, _, _, rfl, rfl⟩, by decide, by decide⟩
/-- R194 to R197: the owner's four-level walk, written out: three tables and a leaf at level 1 with v, leaf, r and w; a write sets
accessed and dirty. -/
def walkState : State :=
  { onCore { regs [(1, 8), (2, 0x1122334455667788)] with fn := 0x10 } with
    mem := [(0, 0x01), (1, 0x10), (0x1000, 0x01), (0x1001, 0x20), (0x2000, 0x01), (0x2001, 0x30), (0x3000, 0x0F), (0x3002, 0x01)] }
theorem test_walk : let t := next (exec (.gstA { fA with sub := 2, a := 1, d := 2 }) walkState)
    t.mem.num 0x10008 8 = 0x1122334455667788 ∧ t.mem.num 0x3000 8 = 0x1006F := by decide +kernel
/-- R213: a read where no page is mapped raises 0x20 with ss.fval the VA. -/
theorem test_unmapped : let c := after (exec (.gldA { fA with a := 1, d := 2 }) (onCore { regs [(1, 0x40)] with fn := 0x10 }))
    (c.cause, c.fval) = (0x20, 0x40) := by decide +kernel

/-- Effective addresses that fail each check, where the checks meet. -/
theorem test_meets_AccessTraps : (onCore (regs [])).core.ih = false ∧ (0x2FFFFC : Int) % 8 ≠ 0 ∧ (0x300000 : Int) % 8 = 0 ∧
    (0x2FFFFF : Int) < 0x300000 + (8 : Nat) - 1 ∧ (0xFF8 : Int) + (8 : Nat) - 1 ≤ 0x2FFFFF ∧ (onCore { regs [] with m := 0 }).core.m = 0 ∧
    (0xFF8 : Int) < 0x1000 ∧ (0xFF8 : Int) % (8 : Nat) = 0 ∧ (2 ^ 52 : Int) ≤ ((2 ^ 52 : Dword).toNat : Int) ∧
    ((2 ^ 52 - 1 : Dword).toNat : Int) < 2 ^ 52 ∧ ((2 ^ 52 - 1 : Dword).toNat : Int) % 8 ≠ 0 := by decide
/-- R192: an address of an engine beyond 2^64 names no low VA. -/
theorem test_reach : (match State.reach (copyAge 0 0) 0 16 0 0 1 (onCore (regs [])) (2 ^ 64 + 8) with
      | .fault _ va f => some (va, f.cause)
      | _ => none) = some (8, 0x20) ∧ (-1 : Int) < 0 ∧ (2 : Int) ^ 52 ≤ 2 ^ 52 := by decide +kernel

/-- Tile 0 with a barrier at 0x2000: one arrival and 8 bytes expected, phase 0. -/
def barState (c : Core) : State := { onCore c with mem := [(spBase 0 + 0x2008, 0x08), (spBase 0 + 0x200E, 0x01)] }
/-- A core of the owner that names the barrier. -/
def barCore : Core := { regs [(1, 0x2000), (2, 0), (3, 1)] with fn := 0x10 }
theorem test_meets_BarrierInstructions : BarrierOk (barState barCore) 0x2000 ∧ 0 ≤ ((regs [(2, 4)]).reg 2).toInt ∧
    (∃ t, (released (barState barCore) 0).barrierUpdate (barrierPa 0x2000) { bytes := 0, expect := 0, arrivals := 1, ranges := [] } = .ok t) ∧
    (∃ t, (barState barCore).barrierUpdate (barrierPa 0x2000) { bytes := 0, expect := 4, arrivals := 0, ranges := [] } = .ok t) ∧
    (barState barCore).barrierPhase (barrierPa 0x2000) = false ∧
    Waits (onCore { barCore with run := .waiting (.bwait 0x2000 true false) }) 0 (.bwait 0x2000 true false) ∧ (0 : Int) ≤ (0 : BitVec 16).toInt :=
  ⟨⟨by decide, by decide, by decide⟩, by decide, ⟨_, rfl⟩, ⟨_, rfl⟩, by decide, by decide +kernel, by decide⟩
/-- A path to the barrier, and a core without a step of biases to wait for. -/
theorem test_meets_BarrierInstructions_near : BarrierNear (barState barCore) 0x2000 ∧ (barState barCore).biasWaits 0 = false ∧
    (onCore { barCore with run := .waiting (.bwait 0x2000 true false) }).noPath (deviceOf 0) (paDevice (barrierPa 0x2000)) = false ∧
    (onCore { barCore with run := .waiting (.bwait 0x2000 true false) }).barrierPhase (barrierPa 0x2000) ≠ true := by decide
/-- R238, R239: the one arrival with the bytes still missing is no flip; g[d] is the phase it belongs to. -/
theorem test_barv : let s := next (exec (.barvA { fA with a := 1, b := 2, d := 4 }) (barState barCore))
    s.mem.num (spBase 0 + 0x2000) 8 = 2 ^ 48 ∧ (s.coreOf 0).reg 4 = 0 := by decide
/-- R238: each case of an update: none expected, a sum that leaves its field, too many arrivals, a flip, and neither. -/
theorem test_meets_BarrierUpdate : let s := barState barCore
    let pa := spBase 0 + 0x2000
    s.mem.num (pa + 8) 8 / 2 ^ 48 % 2 ^ 15 = 1 ∧ s.mem.num (pa + 8) 8 % 2 ^ 48 = 8 ∧ s.mem.num pa 8 = 0 ∧
    Memory.wf s.mem = true ∧ (∀ i, i < 16 → s.woBound (pa + i) = false) ∧
    (∃ t, s.barrierUpdate pa { bytes := 8, expect := 0, arrivals := 1, ranges := [] } = .ok t) ∧
    (onCore barCore).mem.num (pa + 8) 8 / 2 ^ 48 % 2 ^ 15 = 0 :=
  ⟨by decide, by decide, by decide, by decide, by decide, ⟨_, rfl⟩, by decide⟩
/-- A core with one buffered store, on a machine without write-once buffers. -/
def storing : State := onCore { regs [] with view := View.store { pb := [], sv := [] } (spBase 0 + 0x2000) [0x55] }
theorem test_meets_DrainAndRefresh : Memory.wf storing.mem = true ∧ Memory.wf (storing.coreOf 0).view.sv = true ∧
    (storing.tile 0).writeOnce = [] ∧ lastEntry (storing.coreOf 0).view.pb (spBase 0 + 0x2000) = some 0x55 ∧
    (storing.coreOf 0).view.pb.Pairwise (fun x y => x.store ≤ y.store) := by decide
/-- The whole of the premise on write-once buffers: no tile of the machine has one. -/
theorem test_meets_DrainAndRefresh_buffers : ∀ u, (storing.tile u).writeOnce = [] := by
  intro u
  by_cases h : u = 0
  · subst h; decide
  · simp [storing, onCore, onTile, State.tile, mapGet, Ne.symm h, Tile.reset]
/-- The ends of the slots and of the VA space, and slot 3, which user mode may not touch. -/
theorem test_meets_TagTable : (0xFFFFFFFFFFFFF : Dword).toNat < 2 ^ 52 ∧ (3071 : Dword).toNat ≤ 3071 ∧ ¬ 3 < (3 : Dword).toNat ∧
    ((onCore { regs [] with m := 0 }).core.m = 0 → 3 < (4 : Dword).toNat) ∧ (([(0, tagEntry 1), (5, tagEntry 2)] : Map (BitVec 43)).map Prod.fst).Nodup := by
  decide
/-- A table of one entry holds each tag once. -/
theorem test_meets_TagTable_once : let x := Tile.reset.setTag 5 (tagEntry 2)
    (x.tags.map Prod.fst).Nodup ∧ ∀ j k, (x.tag j).getLsbD 42 = true → x.tag j = x.tag k → j = k := by
  intro x
  refine ⟨by decide, fun j k h e => ?_⟩
  have only (n : Nat) : x.tag n = if n = 5 then tagEntry 2 else 0 := by
    by_cases g : n = 5
    · subst g; decide
    · simp [x, Tile.setTag, Tile.tag, Tile.reset, mapSet, mapGet, tagEntry, Ne.symm g, g]
  simp only [only] at h e
  by_cases g : j = 5 <;> by_cases g' : k = 5 <;> simp_all [tagEntry]
/-- R220, R219: a granule inserted at slot 7 is found there. -/
theorem test_tags : let s := next (exec (.tinsB { fB with a := 1, imm16 := 7 }) (onCore (regs [(1, 0x12345400)])))
    (after (exec (.tlook { fA with a := 1, d := 2 }) s)).reg 2 = 7 := by decide

/-! ### Units of the fabric -/

/-- The fields of an enabled element word that reads units 1 to 3, k being 8. -/
def elReads (sub : BitVec 8) (k : Word) : ElWord := { elFields with in0 := 1, in1 := 2, in2 := 3, sub := sub, k := k }
/-- A region of tile 0 that runs. -/
def region0 : Region := { (default : Region) with tiles := [0], phase := .running, beat := 1000, floor := 4, ceiling := 4095 }
/-- Unit n holds a token in its output slot. -/
def holds (n : Nat) (k : Token) : Nat × UnitState := (n, { UnitState.reset with out := [k] })
/-- Tile 0 in region0 with the word w of operation op in slot 0, whose unit is u, tokens in units 1 to 3, and unit 4, an `icmp`
whose second input never comes, as the reader of unit 0. -/
def elState (op : Nat) (w : ElWord) (u : UnitState) (ks : List Token) : State :=
  { onTile { Tile.reset with
      slots := [(0, packEl op w), (4, packEl 0x0C { elFields with in0 := 0, in1 := 5 })], live := some 0
      units := (0, u) :: (ks.zipIdx 1).map fun k => holds k.2 k.1 } with
    regions := [(0, region0)] }
/-- The context in which unit 0 fires. -/
def elCtx (op : Nat) (w : ElWord) : Ctx := { l := 0, t := 0, slot := 0, w := w, op := op, ent := 0 }
/-- A unit with nothing in it. -/
def u0 : UnitState := UnitState.reset
/-- What unit 0 holds in its output slot after a firing. -/
def out0 (o : Host.Outcome State Fault Refusal) : List Token := ((next o).tile 0).unitAt 0 |>.out
/-- The simple rows' example: `iadd` and `fma` of tokens. -/
def addOf (ks : List Token) : State := elState 0x00 (elReads 0 0) u0 ks
def fmaOf (ks : List Token) : State := elState 0x13 (elReads 0 0) u0 ks

/-- R132: −1 + 1 wraps to 0, and with `.sat` 2^31 − 1 stays. -/
theorem test_iadd : out0 (exec .elIadd (addOf [dataTok 0xFFFFFFFF, dataTok 1])) = [dataTok 0] ∧
    out0 (exec .elIadd (elState 0x00 (elReads 1 0) u0 [dataTok 0x7FFFFFFF, dataTok 1])) = [dataTok 0x7FFFFFFF] := by decide +kernel
/-- R133, R40: 1 × 1 + 2^−24 rounded once, ties to even. -/
theorem test_fma : out0 (exec .elFma (fmaOf [dataTok 0x3F800000, dataTok 0x3F800000, dataTok 0x33800000])) = [dataTok 0x3F800000] := by
  decide +kernel
/-- R128, R44: DATA beside a marker is cause 0x14; two EORs are one EOR. -/
theorem test_markers : (out0 (exec .elIadd (addOf [dataTok 1, eorTok]))).map (fun k => (k.kind, k.data.extractLsb' 25 7)) = [(kErr, 0x14)] ∧
    out0 (exec .elIadd (addOf [eorTok, eorTok])) = [eorTok] := by decide +kernel
/-- R137: a sum that stands at 5 leaves with the EOR behind it. -/
theorem test_rsum : out0 (exec .elRsum (elState 0x28 (elReads 1 0) { u0 with w := [5] } [eorTok])) = [dataTok 5, eorTok] := by decide +kernel

theorem test_meets_Fires : Fires (addOf [dataTok 1, dataTok 2]) (elCtx 0x00 (elReads 0 0)) ∧
    Fires (fmaOf []) (elCtx 0x13 (elReads 0 0)) := ⟨⟨rfl, rfl, rfl, rfl, rfl, rfl, rfl⟩, rfl, rfl, rfl, rfl, rfl, rfl, rfl⟩
/-- R128: an ERR on in1 leaves alone and unchanged, and what in0 holds stays. -/
theorem test_markers_err : let e : Token := { kind := kErr, data := 7 }
    let s := next (exec .elIadd (addOf [dataTok 1, e]))
    ((s.tile 0).unitAt 0).out = [e] ∧ ((s.tile 0).unitAt 1).out = [dataTok 1] ∧ ((s.tile 0).unitAt 2).out = [] := by decide +kernel
/-- A row of two inputs and one of three: the first ERR is on in0 or on in1, beside a token, another ERR or none; markers of one
kind and of two; a head that is missing; DATA on every input, and k in place of one. -/
theorem test_meets_ElementMarkers : let c := elCtx 0x00 (elReads 0 0)
    let f := elCtx 0x13 (elReads 0 0)
    let w := { elReads 0 9 with in1 := 1023 }
    let e : Token := { kind := kErr, data := 7 }
    (([0, 1].filter fun i => elInput c.w i ≠ selK) = [0, 1] ∧ ([0, 1, 2].filter fun i => elInput f.w i ≠ selK) = [0, 1, 2] ∧
      ([0, 1].filter fun i => elInput w i ≠ selK) = [0]) ∧
    ((addOf [e]).peekIn c 0 = some e ∧ e.isErr = true ∧ (addOf [dataTok 1, e]).peekIn c 1 = some e ∧
      (addOf [dataTok 1, e]).peekIn c 0 = some (dataTok 1) ∧ (fmaOf [e, e, e]).peekIn f 2 = some e ∧ (dataTok 1).isErr = false) ∧
    ((addOf [dataTok 1]).peekIn c 1 = none ∧ (addOf [eotTok, eotTok]).peekIn c 0 = some eotTok ∧ (addOf [eotTok, eotTok]).peekIn c 1 = some eotTok ∧
      (fmaOf [dataTok 1, dataTok 2, eorTok]).peekIn f 2 = some eorTok ∧ eorTok.kind ≠ eotTok.kind ∧ eotTok.isData = false) ∧
    (Data (addOf [dataTok 1, dataTok 2]) c 1 2 ∧ Data (elState 0x00 w u0 [dataTok 1]) (elCtx 0x00 w) 0 1 ∧ elInput w 1 = selK ∧ w.k = 9) :=
  ⟨by decide, ⟨rfl, rfl, rfl, rfl, rfl, rfl⟩, ⟨rfl, rfl, rfl, rfl, by decide, rfl⟩, rfl, rfl, by decide, rfl⟩
/-- DATA on two and on three inputs, k in place of one, and a row's head of each kind. -/
theorem test_meets_ElementResults : let c := elCtx 0x00 (elReads 0 0)
    let w := { elReads 0 9 with in1 := 1023 }
    (∃ u, (addOf [dataTok 1, dataTok 2]).gather c [0, 1] = (u, .data [1, 2])) ∧
    (∃ u, (elState 0x00 w u0 [dataTok 1]).gather (elCtx 0x00 w) [0, 1] = (u, .data [1, 9])) ∧
    (∃ u, (fmaOf [dataTok 1, dataTok 2, dataTok 3]).gather (elCtx 0x13 (elReads 0 0)) [0, 1, 2] = (u, .data [1, 2, 3])) ∧
    (addOf [dataTok 1]).peekIn c 0 = some (dataTok 1) ∧ (dataTok 1).isData = true ∧ (addOf [eorTok]).peekIn c 0 = some eorTok ∧
    eorTok.ends = true ∧ eotTok.ends = true := ⟨⟨_, rfl⟩, ⟨_, rfl⟩, ⟨_, rfl⟩, rfl, rfl, rfl, rfl, rfl⟩
theorem test_meets_ElementValues : (elCtx 0x00 (elReads 0 0)).sub.testBit 0 = false ∧ (elCtx 0x28 (elReads 1 0)).sub.testBit 0 = true := by
  decide
/-- A delay of depth 1, with a token before it, and one that holds a token. -/
def delay (u : UnitState) (ks : List Token) : State := elState 0x30 (elReads 0 1) u ks
/-- Marker operations, a selection of either input and of none, a gate, a join, and a delay at its bounds. -/
theorem test_meets_StreamElements : let k := dataTok 0x12
    let sel (v : Word) := elState 0x34 (elReads 0 0) u0 [dataTok v, k, eorTok]
    let c := elCtx 0x34 (elReads 0 0)
    let m := elState 0x2F (elReads 0 3) { u0 with w := [1] } [k]
    let n := elState 0x2F (elReads 0 3) { u0 with w := [2] } [k]
    let b := elState 0x52 (elReads 3 0) { u0 with buf := [k, k, k] } [k]
    let d := elState 0x35 (elReads 3 3) u0 [dataTok 3, k]
    Data (sel 1) c 0 1 ∧ (sel 1).peekIn c 2 = some eorTok ∧ (sel 0).peekIn c 1 = some k ∧ Data (sel 2) c 0 2 ∧
    (∃ t, (sel 1).gather { c with w := { c.w with in2 := 2 } } [0, 1, 2] = (t, .data [1, 0x12, 0x12])) ∧
    ((m.takeIn (elCtx 0x2F (elReads 0 3)) 0).unitOf c = m.unitOf c ∧ (elCtx 0x2F (elReads 0 3)).sub = 0 ∧
      ((m.unitOf c).w.headD 0 + 1).toNat < 3) ∧
    (3 ≤ ((n.unitOf c).w.headD 0 + 1).toNat ∧ (n.takeIn (elCtx 0x2F (elReads 0 3)) 0).unitOf c = n.unitOf c) ∧
    ((b.unitOf c).buf.length + 1 = 32 / 2 ^ ((elCtx 0x52 (elReads 3 0)).sub % 8)) ∧
    ((∃ u, d.gather (elCtx 0x35 (elReads 3 3)) [0, 1] = (u, .data [3, 0x12])) ∧ (3 : Word).toNat ≤ (elCtx 0x35 (elReads 3 3)).sub) ∧
    (((delay u0 [k]).unitOf c).buf.length + ((delay u0 [k]).unitOf c).out.length < 1 ∧ (delay u0 [k]).peekIn c 0 = some k ∧
      ((delay { u0 with buf := [k] } []).tile 0).elOp 0 = 0x30 ∧ (((delay { u0 with buf := [k] } []).tile 0).unitAt 0).buf = [k]) :=
  ⟨rfl, rfl, rfl, rfl, ⟨_, rfl⟩, by decide +kernel, by decide +kernel, by decide +kernel, ⟨⟨_, rfl⟩, by decide⟩, by decide +kernel⟩
/-- R136: a first element with a block's value beside it, and an unpack of a whole word. -/
theorem test_meets_PackAndQuant : let s := elState 0x24 (elReads 0 0) u0 [dataTok 0x3F800000, dataTok 0x40000000]
    let c := elCtx 0x24 (elReads 0 0)
    Data s c 0 0x3F800000 ∧ Data s c 1 0x40000000 ∧ (s.unitOf c).held = none ∧ (s.unitOf c).w.length ≠ 2 ∧ (s.unitOf c).buf = [] ∧
    c.width ∣ 32 ∧ c.w.k = 0 := ⟨rfl, rfl, rfl, by decide +kernel, rfl, by decide +kernel, rfl⟩
/-- R206: the last handle of a nest of 2 by 3. -/
theorem test_meets_NestOrder : (∀ e ∈ [2, 3], 0 < e) ∧ 5 < [2, 3].foldl (· * ·) 1 ∧ nestCounters [2, 3] 5 = [1, 2] := by decide

/-- A memory node, unit M0, with a handle of 8 bytes at 0x2000 of the tile's own scratchpad; its latches hold the page. -/
def nodeWord (op : Nat) (sub : BitVec 8) (k : Word) : Slot128 × ElWord := (packEl op (elReads sub k), elReads sub k)
def nodeState (op : Nat) (sub : BitVec 8) (k : Word) (ks : List Token) : State :=
  { onTile { Tile.reset with slots := [(slotM 0, (nodeWord op sub k).1)], live := some 0, units := (ks.zipIdx 1).map fun k => holds k.2 k.1 } with
    slot := slotM 0, regions := [(0, region0)] }
def nodeCtx (op : Nat) (sub : BitVec 8) (k : Word) : Ctx :=
  { l := 0, t := 0, slot := slotM 0, w := (nodeWord op sub k).2, op := op, ent := 0 }
/-- An answer that is right, from its value. -/
theorem ok_of_toOption {e : Except (BitVec 7) Nat} {n : Nat} (h : e.toOption = some n) : e = .ok n := by
  cases e <;> simp_all [Except.toOption]
/-- A cycle of the memory operations: a read, a write and an `mamo.add` of the word at 0x2000. -/
theorem test_meets_MemoryElements : let h := dataTok 0x2000
    Performs (nodeState 0x3A 0 0 [h]) (nodeCtx 0x3A 0 0) [0] 0 ((nodeState 0x3A 0 0 [h]).gather (nodeCtx 0x3A 0 0) [0]).1 [0x2000] (spBase 0 + 0x2000) ∧
    (nodeState 0x3A 0 0 [h]).nodeAbsent ((nodeState 0x3A 0 0 [h]).unitOf (nodeCtx 0x3A 0 0)).view (spBase 0 + 0x2000) 4 = false ∧
    Performs (nodeState 0x3B 0 0 [h, dataTok 7]) (nodeCtx 0x3B 0 0) [0, 1] 1
      ((nodeState 0x3B 0 0 [h, dataTok 7]).gather (nodeCtx 0x3B 0 0) [0, 1]).1 [0x2000, 7] (spBase 0 + 0x2000) ∧
    Performs (nodeState 0x3C 0 0 [h, dataTok 7]) (nodeCtx 0x3C 0 0) [0, 1] 2
      ((nodeState 0x3C 0 0 [h, dataTok 7]).gather (nodeCtx 0x3C 0 0) [0, 1]).1 [0x2000, 7] (spBase 0 + 0x2000) ∧
    (nodeState 0x3D 0 0 [eotTok]).peekIn (nodeCtx 0x3D 0 0) 0 = some eotTok ∧ eotTok.isErr = false := by
  refine ⟨⟨⟨⟨rfl, rfl, rfl, rfl, rfl, rfl, rfl⟩, rfl, ?_, rfl, ok_of_toOption (by decide +kernel)⟩, rfl⟩, by decide +kernel,
    ⟨⟨⟨rfl, rfl, rfl, rfl, rfl, rfl, rfl⟩, rfl, ?_, rfl, ok_of_toOption (by decide +kernel)⟩, rfl⟩,
    ⟨⟨⟨rfl, rfl, rfl, rfl, rfl, rfl, rfl⟩, rfl, ?_, rfl, ok_of_toOption (by decide +kernel)⟩, rfl⟩, rfl, rfl⟩ <;>
  · intro k h
    injection h with h
    subst h
    decide
/-- R355: a latch of generator 0 leads to host memory, with d0 lost: a handle has an address, and no way there. -/
def cutState : State :=
  { onTile { Tile.reset with
      slots := [(slotM 0, packEl 0x3A (elReads 0 0))], live := some 0
      units := [(slotA 0, { u0 with age := { Age.reset with latches := [{ latch with frame := 2 ^ 48 }] } }), holds 1 (dataTok 0x80000000)] } with
    slot := slotM 0, regions := [(0, region0)], dies := [(0, { Die.reset with lost := true })] }
theorem test_meets_MemoryElements_cut : Addresses cutState (nodeCtx 0x3A 0 0) [0] 0 (cutState.gather (nodeCtx 0x3A 0 0) [0]).1 [0x80000000] (2 ^ 48) ∧
    (cutState.gather (nodeCtx 0x3A 0 0) [0]).1.noWay (deviceOf 0) (2 ^ 48) = true := by
  refine ⟨⟨⟨rfl, rfl, rfl, rfl, rfl, rfl, rfl⟩, rfl, ?_, rfl, ok_of_toOption (by decide +kernel)⟩, by decide +kernel⟩
  intro k h
  injection h with h
  subst h
  decide
/-- An address generator with a binding of one element of 4 bytes at 0x2000, and a local one in the middle of a count of 2. -/
def agenState : State :=
  { onTile { Tile.reset with
      slots := [(slotA 0, packEl 0x40 elFields)], live := some 0, units := [(slotA 0, { u0 with bindings := [5] })] } with
    slot := slotA 0, regions := [(0, region0)], cmds := [(5, { (default : Cmd) with kind := .stream 0x03, w1 := 1, regs := [(1, 0x2000)] })] }
def lgenState : State :=
  { onTile { Tile.reset with slots := [(slotA 0, packEl 0x41 (elReads 0 0))], live := some 0, units := [(slotA 0, { u0 with w := [1, 2] })] } with
    slot := slotA 0, regions := [(0, region0)] }
def agenCtx (op : Nat) (w : ElWord) : Ctx := { l := 0, t := 0, slot := slotA 0, w := w, op := op, ent := 0 }
theorem test_meets_MemoryElements_generators : let c := agenCtx 0x40 elFields
    let g := agenCtx 0x41 (elReads 0 0)
    Fires agenState c ∧ mapGet agenState.regions 0 = some region0 ∧ (agenState.unitOf c).age.relatch = [] ∧
    (agenState.unitOf c).age.stopped = none ∧ (∃ b, (agenState.unitOf c).bindings.head?.bind (mapGet agenState.cmds) = some b ∧
      ∃ u, agenState.makeHandle region0 c b (nestAddress b (nestElement b (nestCounters (nestExtents b) 0))) = .ok u 0x2000) ∧
    c.sub % 4 = 0 ∧ Fires lgenState g ∧ (lgenState.unitOf g).w = [1, 2] ∧ lgenState.peekIn g 0 = none :=
  ⟨⟨rfl, rfl, rfl, rfl, rfl, rfl, rfl⟩, rfl, rfl, rfl, ⟨_, rfl, _, rfl⟩, rfl, ⟨rfl, rfl, rfl, rfl, rfl, rfl, rfl⟩, rfl, rfl⟩
/-- Groups that are whole with the next word, and an accumulator behind unit 1. -/
def accState : State :=
  { onTile { Tile.reset with
      slots := [(1, packEl 0x33 { elFields with route := 0xC0 }), (312, packEl 0x4A (elReads 1 0))], live := some 0
      units := [holds 1 (dataTok 5)] } with
    slot := 312, regions := [(0, region0)] }
theorem test_meets_MatrixElements : let k := dataTok 0
    let s := elState 0x49 (elReads 0 0) { u0 with buf := [k, k, k, k, k, k, k] } [k]
    let t := elState 0x4B (elReads 0 0) { u0 with buf := [k, k, k, k, k, k, k, k], w := [0, 0, 0, 0, 0, 0, 0, 0] } []
    let c := elCtx 0x49 (elReads 0 0)
    let d : Ctx := { l := 0, t := 0, slot := 312, w := elReads 1 0, op := 0x4A, ent := 0 }
    (s.peekIn c 0 = some k ∧ k.isData = true ∧ c.strip = false ∧ (s.unitOf c).buf.length = 7) ∧
    ((t.unitOf c).buf.length = 8 ∧ (t.unitOf c).w.length = 8) ∧
    (Fires accState d ∧ (∃ src, accInput d accState = some (src, dataTok 5)) ∧ d.sub ∈ [1, 2, 3, 4]) :=
  ⟨⟨rfl, rfl, rfl, rfl⟩, ⟨rfl, rfl⟩, ⟨rfl, rfl, rfl, rfl, rfl, rfl, rfl⟩, ⟨_, rfl⟩, by decide⟩

/-- An operator of code op in slot 328 of tile 0 that reads channels 0, 1 and 2, which hold tokens that came at the given cycles,
and writes channels 3 and 4. -/
def opWord : RouterWord := { out1 := 4, out0 := 3, ctl := 2, inB := 1, inA := 0, station := 0, enable := true }
def opState (op : Nat) (w : List Word) (ks : List (Nat × Token × Nat)) : State :=
  { onTile { Tile.reset with
      slots := [(328, (packRouter op opWord).setWidth 128)], live := some 0, units := [(328, { u0 with w := w })]
      chanIn := ks.map fun k => (k.1, { q := [k.2.1], taken := [], times := [k.2.2] }) } with
    slot := 328, regions := [(0, region0)] }
def opCtx : OpCtx := { l := 0, t := 0, slot := 328, w := opWord }
/-- R150: `steer` with a ctl of 0 sends inA to out0 and with 5 to out1; `carry` takes its first token from inA. -/
theorem test_steer : let k := dataTok 9
    ((next (exec .steer (opState 0 [] [(0, k, 0), (2, dataTok 0, 0)]))).tile 0).chanOut = [(3, [k])] ∧
    ((next (exec .steer (opState 0 [] [(0, k, 0), (2, dataTok 5, 0)]))).tile 0).chanOut = [(4, [k])] ∧
    ((next (exec .carry (opState 2 [] [(0, k, 0)]))).tile 0).chanOut = [(3, [k])] := by decide +kernel
theorem test_meets_RouterOperators : let k := dataTok 9
    let s := opState 0 [] [(0, k, 3), (2, dataTok 0, 0)]
    let t := opState 1 [1] [(0, k, 3), (1, k, 3), (2, dataTok 5, 0)]
    let u := opState 2 [1] [(0, k, 3), (1, k, 2), (2, dataTok 0, 0)]
    let m := opState 0 [] [(0, eotTok, 0), (2, eotTok, 0)]
    (Operates s opCtx ∧ opCtx.peek s 0 = some k ∧ opCtx.peek s 2 = some (dataTok 0) ∧ opCtx.room s 3 = true ∧ opCtx.room s 4 = true) ∧
    (Operates m opCtx ∧ opCtx.peek m 0 = some eotTok ∧ opCtx.peek m 2 = some eotTok ∧ eotTok.isData = false ∧ eotTok.isErr = false) ∧
    (Operates t opCtx ∧ opCtx.peek t 1 = some k ∧ opCtx.peek t 2 = some (dataTok 5) ∧ opCtx.peek s 1 = none ∧
      ((t.tile 0).inChan 0).times.headD 0 ≤ ((t.tile 0).inChan 1).times.headD 0) ∧
    (((u.tile 0).inChan 1).times.headD 0 < ((u.tile 0).inChan 0).times.headD 0 ∧ ((u.tile 0).unitAt 328).w ≠ [] ∧
      ((s.tile 0).unitAt 328).w = [] ∧ opCtx.peek u 2 = some (dataTok 0)) :=
  ⟨⟨⟨rfl, rfl, rfl, rfl⟩, rfl, rfl, rfl, rfl⟩, ⟨⟨rfl, rfl, rfl, rfl⟩, rfl, rfl, rfl, rfl⟩, ⟨⟨rfl, rfl, rfl, rfl⟩, rfl, rfl, rfl, by decide +kernel⟩,
    by decide +kernel⟩
/-- Two copies to one channel, which has two free slots or one. -/
theorem test_meets_RouterOperators_one : (((opState 3 [] [(0, dataTok 9, 0)]).tile 0).outChan 3).length ≤ 14 ∧ (3 : Nat) = 3 ∧
    eotTok.kind = eotTok.kind ∧ ¬ (List.replicate 15 eotTok).length ≤ 14 := by decide +kernel
/-- Tile 43 and tile 123, which face each other across the dies (R20): entry e for channel 32, and what waits there. -/
def linkState (e : BitVec 8) (ks : List Token) : State :=
  { State.reset with
    tiles := [(43, { Tile.reset with slots := [(slotCm 2, slotReset (slotCm 2) - 0x3F#128 + e.setWidth 128)], chanOut := [(0x27, ks)] }),
      (123, { Tile.reset with chanOut := [(32, [dataTok 9])] })] }
/-- R149: the token goes on to channel 0x27 while that has room, and an unused entry discards it. -/
theorem test_meets_RouterForwarding : let s := linkState 0x27 []
    neighbour 43 4 = some 123 ∧ s.tileStops 43 = false ∧ s.tileStops 123 = false ∧ (s.tile 123).outChan (facing 32) = [dataTok 9] ∧ (s.tile 43).chanEntry 32 = 0x27 ∧
    (s.tile 43).chanRoom 0x27 = true ∧ ((linkState 0x27 (List.replicate 16 eotTok)).tile 43).chanRoom 0x27 = false ∧
    ((linkState 0x3F []).tile 43).chanEntry 32 = 0x3F ∧ ((linkState 0x3D []).tile 43).chanEntry 32 = 0x3D ∧
    ((linkState 0x3E []).arrive 43 32 (dataTok 9)).isSome = true := by decide +kernel
/-- A firing goes on, and so does one of a memory node on a machine where every address has its way. -/
theorem test_meets_FabricFrame : ∃ t, exec .elIadd (addOf [dataTok 1, dataTok 2]) = .next t := ⟨_, rfl⟩
theorem test_meets_FabricFrame_ways : let s := nodeState 0x3A 0 0 [dataTok 0x2000]
    (match exec .elMrd s with | .next _ => true | _ => false) = true ∧ ∀ pa, s.noWay (deviceOf s.cur) pa = false :=
  ⟨by decide +kernel, State.noWay_whole (fun _ => rfl) rfl _⟩

/-! ### Scalar instructions of the fabric, actors -/

/-- Tile 0 whose fi and fo port 0 hold n tokens. -/
def ports (c : Core) (n : Nat) : State :=
  onTile { Tile.reset with
    core := c, fi := [(0, { q := List.replicate n eorTok, taken := [], owners := [] })]
    fo := [(0, { q := List.replicate n eorTok, taken := [], owners := [] })] }
/-- R155, R156: a put DATA token is the newest, and an EOR (kind 1) is taken as 2^32. -/
theorem test_fput_fget : (((next (exec (.fputB { fB with imm16 := 0xFFFF }) (ports (regs []) 0))).tile 0).fiPort 0).q = [dataTok 0xFFFFFFFF] ∧
    (after (exec (.fgetA { fA with d := 1 }) (ports (regs []) 1))).reg 1 = 0x100000000 := by decide +kernel
theorem test_meets_FabricPorts : let w (x : Wait) (n : Nat) := ports { regs [] with run := .waiting x } n
    (((ports (regs []) 31).tile 0).fiPort 0).owners = [] ∧ (((ports (regs []) 31).tile 0).fiPort 0).q.length < 32 ∧
    32 ≤ (((ports (regs []) 32).tile 0).fiPort 0).q.length ∧ (((ports (regs []) 1).tile 0).foPort 0).q = [eorTok] ∧
    (1 : BitVec 16).toNat ≤ ((ports (regs []) 1).tile 0).available true 0 ∧
    ((ports (regs []) 0).tile 0).available true 0 < (1 : BitVec 16).toNat ∧
    Waits (w (.fput 0 0 4 [9]) 31) 0 (.fput 0 0 4 [9]) ∧ (∀ c ∈ [9], c ∉ (((w (.fput 0 0 4 [9]) 31).tile 0).fiPort 0).owners) ∧
    Waits (w (.fget 0 1 none 0 []) 1) 0 (.fget 0 1 none 0 []) ∧
    Waits (w (.fget 0 1 (some 0) 0 []) 0) 0 (.fget 0 1 (some 0) 0 []) ∧
    (((w (.fget 0 1 (some 0) 0 []) 0).tile 0).foPort 0).q = [] ∧ 0 + 0 ≤ ((w (.fget 0 1 (some 0) 0 []) 0).die (dieOf 0)).cycle ∧
    Waits (w (.fcnt true 0 1 2) 1) 0 (.fcnt true 0 1 2) := by decide +kernel
/-- A port that a command holds: an instruction that comes now waits, and so does one that came behind that command. -/
theorem test_meets_FabricPorts_behind : let s (x : CoreRun) := onTile { Tile.reset with
      core := { regs [] with run := x }, fi := [(0, { q := [], taken := [], owners := [9] })], fo := [(0, { q := [eorTok], taken := [], owners := [9] })] }
    (((s .running).tile 0).fiPort 0).owners ≠ [] ∧ (((s .running).tile 0).foPort 0).owners ≠ [] ∧
    Waits (s (.waiting (.fput 0 0 4 [9]))) 0 (.fput 0 0 4 [9]) ∧
    (∃ c ∈ [9], c ∈ (((s (.waiting (.fput 0 0 4 [9]))).tile 0).fiPort 0).owners) ∧
    Waits (s (.waiting (.fget 0 1 none 0 [9]))) 0 (.fget 0 1 none 0 [9]) ∧
    (∃ c ∈ [9], c ∈ (((s (.waiting (.fget 0 1 none 0 [9]))).tile 0).foPort 0).owners) ∧
    ((s .running).die (dieOf 0)).cycle < 0 + 1 := by decide +kernel
/-- R156: the limit of a form B `fget` is over 0 fc after its start: a token that stands there in that fc is taken, and none later. -/
theorem test_meets_FabricPorts_late : let t (n : Nat) : State := { ports { regs [(1, 5)] with run := .waiting (.fget 0 1 (some 0) 0 []) } 1 with
      dies := [(0, { Die.reset with cycle := n })] }
    (Waits (t 1) 0 (.fget 0 1 (some 0) 0 []) ∧ 0 + 0 < ((t 1).die (dieOf 0)).cycle ∧ 0 + 0 = ((t 0).die (dieOf 0)).cycle ∧
      (((t 0).tile 0).foPort 0).q ≠ [] ∧ ∀ c ∈ ([] : List Nat), c ∉ (((t 0).tile 0).foPort 0).owners) ∧
    (after (exec (.fgetResume 0) (t 0))).reg 1 = 0x100000000 ∧ (after (exec (.fgetResume 0) (t 1))).reg 1 = 5 ∧
    (after (exec (.fgetTimeout 0) (t 0))).reg 1 = 5 ∧ (after (exec (.fgetTimeout 0) (t 1))).reg 1 = 0x700000000 := by decide +kernel
/-- Slots at both ends, a word of zeros that passes its checks, a live and an idle tile, and an instruction that waits. -/
theorem test_meets_FabricRegisters : let s := onCore (regs [(1, 0x2FFFF0)])
    s.fabricPending 0 = false ∧ Accessible s.core (s.core.reg 1).toNat 16 ∧ s.loadAbsent (s.core.reg 1).toNat 16 = false ∧
    (426 : Dword).toNat ≤ 426 ∧ slotOk 0 0 (BitVec.ofNat 128 (s.loadLocal (s.core.reg 1).toNat 16)) = true ∧ (s.tile 0).live = none ∧
    (327 : BitVec 16).toNat % 512 ≤ 327 ∧ ((addOf []).tile 0).live.isSome = true ∧
    Waits (onCore { regs [] with run := .waiting (.beat (.acclr fA)) }) 0 (.beat (.acclr fA)) ∧
    Holds (onCore { regs [] with run := .waiting (.beat (.acclr fA)) } |>.rerun 0) false 0 ∧ (0 : Nat) < 1 := by decide +kernel
/-- Tile 0 with the region r. -/
def leads (r : Region) (c : Core) : State := { onTile { Tile.reset with core := c, live := some 0 } with regions := [(0, r)] }
/-- A region of one station of 4 fc. -/
def region1 : Region := { region0 with stations := [{ (default : Station) with length := 4 }], hyshi := 16, hyslo := 4 }
theorem test_meets_BeatInstructions : let s := leads region1 (regs [])
    s.loadPending s.cur = false ∧ mapGet s.regions s.cur = some region1 ∧ (region1.mode ≠ 2 ∨ region1.winBeats < 64) ∧
    ((4 : Int) ≤ 4 ∧ ∀ st ∈ region1.stations, (st.length : Int) ≤ 4) ∧ (4 : Int) ≤ 4095 ∧ region1.mode = 0 ∧
    ((region1.floor : Int) ≤ 4 ∧ (4 : Int) ≤ region1.ceiling) ∧ region1.phase = .running ∧ ({ region1 with phase := .held } : Region).phase = .held ∧
    (1 : Int) ≤ 255 ∧ (2 : Dword).toNat ≠ region1.mode ∧ ((2 : Int) ^ 32 - 1 < 2 ^ 32) ∧
    ((0x403F : Dword).toNat % 256 < (0x403F : Dword).toNat / 256 ∧ (0x403F : Dword).toNat / 256 ≤ 64) ∧
    (0 : Dword).toNat < region1.stations.length := by decide +kernel
/-- A record at the top of the scratchpad; an empty, a full and a short deque. -/
theorem test_meets_DequeInstructions : let c := { regs [(1, 0x2FFFE0)] with fn := 0x10 }
    Accessible c (c.reg 1).toNat 32 ∧ (onCore c).loadAbsent (c.reg 1).toNat 32 = false ∧ c.deque.length < 256 ∧
    256 ≤ (List.replicate 256 ([] : List Byte)).length ∧ [[(1 : Byte)]] = [] ++ [[(1 : Byte)]] ∧ (7 : Dword).toNat ≤ 7 ∧
    (onCore c).ownsTile (deviceOf 0) (fnOf c.fn) (7 % 160) = true ∧ ((onCore c).coreOf 7).deque = [] ∧
    (({ regs [] with deque := [[1], [2]] } : Core)).deque = [1] :: [[2]] := by decide +kernel
/-- A descriptor of pc 0x40 in mode 2 with one input, one event record: bits 48 to 50 the mode, then the sources 64, 255, 255, 255. -/
def actorDesc : BitVec 128 := 0x00FF00FF00FF014000020000_00000040
def actor0 : Actor := { desc := actorDesc, saved := Vector.replicate 8 7 }
/-- A core with actors 0 and 15 bound, and one event record of class 3. -/
def actorCore (r : CoreRun) : Core := { regs [] with run := r, actors := [(0, actor0), (15, actor0)], events := [0x30] }
/-- R274: the actor after the one that fired last is the next; it starts at its pc, with its saved g24. -/
theorem test_fire : let c := after (exec (.actorFiring 0) (onCore (actorCore .idle)))
    (c.pc, c.m, c.actor, c.reg 24) = (0x40, 2, some 0, 7) := by decide +kernel
theorem test_meets_ActorInstructions : let s := onCore (actorCore .running)
    (15 : Dword).toNat ≤ 15 ∧ s.core.actor ≠ some 15 ∧ ({ s.core with actor := some 15 } : Core).actor = some 15 ∧
    descriptorOk actorDesc 2 = true ∧ Accessible s.core 0x2FFFF0 16 ∧ s.loadAbsent 0x2FFFF0 16 = false ∧
    (onCore (regs []) |>.tile 0).fireables = [] ∧ (s.tile 0).fireables = [0, 15] ∧ mapGet s.core.actors 0 = some actor0 ∧
    s.core.yielding = none ∧ (s.boundary 0 4).core.yielding = none ∧ (onCore (actorCore .idle) |>.coreOf 0).run = .idle ∧
    (actorCore (.waiting .wfe)).woken = true ∧ Waits (onCore (actorCore (.waiting .wfe))) 0 .wfe ∧
    (onCore (actorCore .idle)).coreStands 0 = false ∧ (s.tile 0).core.lastFired < 16 := by decide +kernel

/-- No step of biases to wait for, and a program that a `yield` has interrupted, all of whose actors have fired. -/
theorem test_meets_ActorInstructions_done : (onCore (actorCore .running)).biasWaits 0 = false ∧ (actorCore .running).actor = none ∧
    ({ regs [] with yielding := some default } : Core).yielding = some default ∧ (default : YieldFrame).left = [] := by decide
/-- R274: `done` of the firing of actor 15 with 9 in g24 saves it; with an `arm.off` that waits, the actor is gone. -/
theorem test_done : let c := { actorCore .running with actor := some 15, g := (regs [(24, 9)]).g }
    (after (exec (.done fA) (onCore c)) |>.actors.map fun a => (a.1, a.2.saved[0])) = [(0, 7), (15, 9)] ∧
    (after (exec (.done fA) (onCore { c with rearm := [(15, none)] })) |>.actors.map Prod.fst) = [0] := by decide +kernel
/-- The ends of a firing: nothing else asked for, a disarming, and an arming. -/
theorem test_meets_ActorInstructions_firing : let c := { actorCore .running with actor := some 15 }
    mapGet c.actors 15 = some actor0 ∧ mapGet c.rearm 15 = none ∧ mapGet ({ c with rearm := [(15, none)] } : Core).rearm 15 = some none ∧
    mapGet ({ c with rearm := [(15, some actorDesc)] } : Core).rearm 15 = some (some actorDesc) ∧ (0 : Nat) ≠ 15 := by decide
/-! ### Graphs -/

/-- Both ends of the counts of nodes and signals, a die with every context taken, and a SPAWN that waits for one signal. -/
def sigState : State :=
  { onCore { regs [] with fn := 0x10 } with
    contexts := [(0, { (default : GraphCtx) with
      fn := 16, va := 0, n := 2, started := 2, nodes := [(1, .running)], ready := [], spawns := [(1, { tasks := [], left := 1 })]
      age := Age.reset })]
    mem := walkState.mem ++ [(0x10040, 4)] }
theorem test_meets_GraphInstructions : ((2 ^ 52 - 64) % 64 = 0 ∧ 2 ^ 52 - 64 < 2 ^ 52) ∧ (1 : Int) ≤ (65535 : Dword).toInt ∧
    (65535 : Dword).toInt ≤ 65535 ∧ (1 : Int) ≤ (32767 : Dword).toInt ∧ (32767 : Dword).toInt ≤ 32767 ∧
    (∃ k, k < 64 ∧ mapGet (onCore (regs [])).contexts (0 * 64 + k) = none) ∧
    (let t : State := { onCore (regs []) with contexts := (List.range 64).map fun k => (k, (default : GraphCtx)) }
     ∀ k, k < 64 → (mapGet t.contexts (0 * 64 + k)).isSome = true) ∧
    (sigState.handleOk (deviceOf 0) (fnOf sigState.core.fn) (1 * 2 ^ 6) = true ∧ sigState.kindOf (sigState.ctx 0) 1 = some kSpawn ∧
      mapGet (sigState.ctx 0).spawns 1 = some { tasks := [], left := 1 } ∧ (sigState.ctx 0).node 1 = .running) :=
  ⟨by decide, by decide, by decide, by decide, by decide, ⟨0, by decide, by decide⟩, by decide +kernel, by decide +kernel⟩
/-- Die 0 with an entry 0 of the owner: one element of format 0. -/
def die0 : Die := { Die.reset with tids := [(16 * 256, 0x100000000)] }
/-- A context of the owner with two nodes, of which node 1 has a kind and a state; no node has a successor. -/
def graphState (kind : Byte) (more : Memory) (g : GraphCtx → GraphCtx) : State :=
  { onCore { regs [] with fn := 0x10 } with
    contexts := [(0, g { (default : GraphCtx) with
      fn := 16, va := 0, n := 2, started := 2, nodes := [(1, .ready)], ready := [1], age := { Age.reset with latches := [latch] } })]
    dies := [(0, die0)]
    mem := (2 ^ 20 + 64, kind) :: (List.range 8).map (fun i => (2 ^ 20 + 64 + 8 + i, 0xFF)) ++ more }
/-- The kind of the node that such a context would run, where its record passes the checks. -/
def picks (s : State) : Option Nat :=
  match State.pickNode 0 (s.ctx 0).ready s with
  | .ok (t, some (1, r)) => if t.nodeBad 0 r then none else some (nodeKind r)
  | _ => none
/-- The answer of a walk, as an option. -/
def walked {α β : Type} (e : Walked α) (f : α → Option β) : Option β :=
  match e with
  | .ok v => f v
  | .error _ => none
/-- A WAIT, a SPAWN of one group with T = 1, a COND whose mask is 0, and a TIER of 1 byte. -/
def spawnMore : Memory := [(2 ^ 20 + 64 + 24, 1), (2 ^ 20 + 64 + 30, 1)]
theorem test_meets_GraphWalker : let id (g : GraphCtx) := g
    let runs (g : GraphCtx) : GraphCtx := { g with nodes := [(1, .running)], ready := [] }
    (graphState 8 [] id).ctxMay 0 = true ∧ ((graphState 8 [] id).ctx 0).n ≤ ((graphState 8 [] id).ctx 0).started ∧
    picks (graphState 8 [] id) = some kWait ∧ picks (graphState 4 spawnMore id) = some kSpawn ∧
    picks (graphState 5 [] id) = some kCond ∧ picks (graphState 10 [(2 ^ 20 + 64 + 24, 1)] id) = some kTier ∧
    (walked (State.pickNode 0 [1] (graphState 1 [(2 ^ 20 + 64 + 16, 0x2B)] id)) fun x => x.2.bind fun y =>
      (x.1.nodeCommand (x.1.ctx 0) y.2).map fun _ => nodeKind y.2) = some kCopy ∧
    (walked ((graphState 5 [] id).readNode 0 1) fun x => walked (x.1.predicate 0 1 x.2) fun y =>
      walked (y.1.finishNode 0 1 x.2 [0, 1]) fun _ => some y.2) = some true ∧
    (((graphState 8 [] runs).ctx 0).node 1 = .running ∧
      (walked ((graphState 8 [] runs).readNode 0 1) fun x => (x.1.nodeOver 0 1 x.2).bind fun y => walked y fun u =>
        walked (u.finishNode 0 1 x.2 [0, 1, 2, 3]) fun _ => some (nodeKind x.2)) = some kWait) ∧
    ((∀ x ∈ ((graphState 0 [] id).ctx 0).nodes, x.2 ≠ .running) ∧
      (walked ((graphState 0 [] id).readNode 0 1) fun x => walked (x.1.walkerWrite 0 1 (Machine.bits x.2 191 128) 8 0) fun _ =>
        some (nodeKind x.2, x.1.nodeBad 0 x.2)) = some (kEnd, false)) ∧
    (mapGet ((graphState 4 spawnMore runs).ctx 0).spawns 1 = none ∧
      (walked ((graphState 4 spawnMore runs).readNode 0 1) fun x => walked (x.1.readSpawn 0 1 x.2) fun _ => some (nodeKind x.2)) = some kSpawn) ∧
    (let s := graphState 4 spawnMore fun g => { g with spawns := [(1, { tasks := [[1]], left := 1 })] }
     s.ctxLives 0 = true ∧ s.leastLoaded (s.taskTiles (s.ctx 0)) = some 0 ∧ (s.coreOf 0).deque.length < 256) ∧
    (let s := graphState 8 [] fun g => { g with stopped := some 0x36 }
     (s.ctx 0).stopped.isSome = true ∧ s.mayRun (0 / 128) (s.ctx 0).fn = true ∧ s.cmds = [] ∧ (s.ctx 0).regions = []) ∧
    0 < Machine.bits (3 * 2 ^ 240) 255 240 ∧ 0 ≤ 5 ∧ (0 : Nat) < (5 - 0 + 3 - 1) / 3 ∧ 1 + 1 = (5 - 0 + 3 - 1) / 3 := by decide +kernel

/-- A WAIT of 2 signals at the page of `sigState`, and a walker whose latch holds it; one signal is in its record. -/
def waitState : State :=
  { onCore { regs [(1, 1 * 2 ^ 6)] with fn := 0x10 } with
    contexts := [(0, { (default : GraphCtx) with
      fn := 16, va := 0, n := 2, started := 2, nodes := [(1, .running)], ready := [], age := Age.reset })]
    mem := walkState.mem ++ [(0x10040, 8), (0x10050, 2), (0x10054, 1)] }
/-- R286: the second signal is counted in the record, and the third stops the context with 0x36. -/
theorem test_wait : let s := next (exec (.gsigA { fA with a := 1 }) waitState)
    let t := next (exec (.gsigB { fB with a := 1, imm16 := 2 }) waitState)
    (s.mem.get 0x10054, (s.ctx 0).received, (t.ctx 0).stopped, t.mem.get 0x10054) = (2, [], some 0x36, 1) := by decide +kernel
/-- R280, R286: a signal that comes before submission has reached its node stands beside the record. -/
theorem test_early : let s := { waitState with contexts := [(0, { waitState.ctx 0 with started := 1 })] }
    let t := next (exec (.gsigA { fA with a := 1 }) s)
    (s.kindOf (s.ctx 0) 1 ≠ some kSpawn ∧ (s.ctx 0).started ≤ 1 ∧ s.handleOk (deviceOf 0) (fnOf s.core.fn) (1 * 2 ^ 6) = true) ∧
    (t.mem.get 0x10054, (t.ctx 0).received) = (1, [(1, 1)]) := by decide +kernel
theorem test_meets_GraphInstructions_wait : let g := waitState.ctx 0
    let came := waitState.setCtx 0 { g with received := mapSet g.received 1 (g.pending 1 + 1) }
    waitState.handleOk (deviceOf 0) (fnOf waitState.core.fn) (1 * 2 ^ 6) = true ∧ waitState.kindOf g 1 = some kWait ∧ 1 < g.started ∧ g.age.stopped = none ∧
    (walked (came.walkerReach 0 1 0 (g.nodeVa 1) 64) fun u =>
      let r := u.1.numOf u.2
      walked (u.1.walkerReach 0 1 1 (g.nodeVa 1 + 20) 4) fun v => some (Machine.bits r 159 128, Machine.bits r 191 160 + 1, v.2)) =
      some (2, 2, [0x10054, 0x10055, 0x10056, 0x10057]) ∧
    (walked (waitState.readNode 0 1) fun x => some (nodeKind x.2)) = some kWait ∧
    (walked (came.readNode 0 1) fun x => walked (x.1.putNode 0 1 20 4 2) fun _ =>
      some (Machine.bits x.2 191 160 + (x.1.ctx 0).pending 1, Machine.bits x.2 159 128)) = some (2, 2) := by decide +kernel
/-- No act of a context is broken off, and one's own act is. -/
theorem test_meets_GraphWalker_free : let g : GraphCtx := { (default : GraphCtx) with trail := [] }
    g.free actRun = true ∧ g.free (actFinish 1) = true ∧ g.free actEnd = true ∧ g.free (actSpawn 1) = true ∧
    ({ g with trail := [1], act := actEnd } : GraphCtx).free actEnd = true := by decide
/-! ### Groups -/

/-- A group of two members on tiles 0 and 1 of device 0, record 0 the root, with one place counted at record 1. -/
def grp : Group :=
  { plimit := 5, devs := [0], dev := [0, 0], tile := [0, 1], parent := [0, 0], member := [true, true], struck := [], root := 0
    counts := [(1, 1)], parked := [], restarts := [] }
/-- A core of the owner with an address at the top of the scratchpad in g1 and a small number in g2. -/
def member (rs : List (BitVec 5 × Dword)) : Core := { regs rs with fn := 0x10 }
/-- Tile 0 with the core c, and the group as number 255 of the owner. -/
def inGroup (c : Core) (sends : List Send) : State := { onCore c with groups := [(16 * 256 + 255, grp)], sends := sends }
/-- A send of tile 0 to the group. -/
def sent (x : SendState) : Send :=
  { handle := 7, sender := 0, fn := 16, group := 255, set := none, ordered := false, ask := true, payload := [], state := x
    tried := [], batch := 0 }
/-- An expert set of one group and one expert, and what a core holds for it. -/
def expertY : ExpertSet :=
  { groups := 1, experts := 1, kg := 1, ke := 1, gbase := 255, step := 0x3F800000, bias := 8, intake := 0, cap := 0, masks := [] }
def expertZ : ExpertCore := { bias := [0], batch := 0, closed := [0], counts := [(0, 1)], stopped := none }
def expertState (rs : List (BitVec 5 × Dword)) : State :=
  { inGroup { member rs with experts := [(15, expertZ)] } [] with
    experts := [(expertKey 0 16 15, expertY)]
    dies := [(0, { Die.reset with engineAge := [(0, { Age.reset with latches := [latch] })] })] }
/-- R375: the handle of the first send of tile 0 to group 255: sequence 0 in g[d], bits [39:32] the group. -/
theorem test_gsend : let s := next (exec (.gsendB { fB with a := 1, d := 3, imm16 := 0x1FF }) (inGroup (member [(1, 0x2FFFC0), (3, 9)]) []))
    (s.sends.map Send.handle, s.core.reg 3, s.core.sendSeq) = ([0xFF00000000], 0, 1) := by decide +kernel
/-- R390: an expert that took the whole of the load of one expert keeps its bias; one below its share rises by the step. -/
theorem test_bias : stepBias expertY 1 1 0 = 0 ∧ stepBias expertY 2 1 0 = 0x3F800000 ∧ stepBias expertY 1 2 0 = 0xBF800000 := by decide +kernel
theorem test_meets_GroupSends : let s := inGroup (member [(1, 0x2FFFC0)]) []
    let i := Instr.gsendB { fB with a := 1, imm16 := 0x1FF }
    let t := expertState [(1, 0x2FFFC0)]
    Comes s i (.gsend i) .gsendResume (exec i s) ∧ Forms s .gsendA .gsendB i 0 1 0 0x1FF 8 ∧ Installed s 255 grp ∧
    PayloadOk s.core 0x2FFFC0 64 ∧ s.loadAbsent 0x2FFFC0 64 = false ∧ s.installing 16 255 = false ∧ (s.sendsOf 0 16).length < 64 ∧
    (t.expertSet (deviceOf t.cur) (fnOf t.core.fn) 15 = some expertY ∧ t.core.expert 15 = expertZ ∧
      (t.groupOn (deviceOf t.cur) (fnOf t.core.fn) 255).isSome = true ∧ (t.sendsOf 0 16).length + min 1 1 ≤ 64 ∧
      PayloadOk t.core 0x2FFFC0 12 ∧ 15 / 2 ^ 4 % 16 = 0) :=
  ⟨.inl rfl, .inr ⟨{ fB with a := 1, imm16 := 0x1FF }, rfl, by decide, rfl, rfl, rfl, by decide, rfl⟩, by decide, by decide, by decide,
    by decide, by decide, by decide⟩
/-- A send that has waited: nothing has changed but its core. -/
theorem test_meets_GroupSends_wait : let i := Instr.gsendB { fB with a := 1, imm16 := 0x1FF }
    let r := inGroup { member [(1, 0x2FFFC0)] with run := .waiting (.gsend i) } []
    Comes (r.rerun 0) i (.gsend i) .gsendResume (exec (.gsendResume 0) r) ∧ Holds (r.rerun 0) false 0 :=
  ⟨.inr ⟨_, 0, rfl, by decide +kernel, rfl⟩, by decide⟩
/-- A message received from the group. -/
def msg : Message := { handle := 7, group := 255, payload := [] }
theorem test_meets_GroupInstructions : let s := inGroup { member [(1, 0x2FFFC0), (2, 7)] with received := [msg], toAck := [7] } [sent (.taken 1)]
    let u := inGroup { member [(1, 0x2000)] with view := { pb := [], sv := [(spBase 0 + 0x2000, 1)] } } []
    (Installed s (255 % 256) grp ∧ ([msg] : List Message) = [] ++ msg :: [] ∧ msg.group = 255 ∧
      (∀ m ∈ ((inGroup (member []) []).core.received), m.group ≠ 255)) ∧
    (grp.memberOf s.cur = some 0 ∧ (s.core.reg 1).toNat < 2 ^ 32) ∧
    (s.sends.find? (fun x => x.handle = (s.core.reg 2).toNat && x.fn = fnOf s.core.fn) = some (sent (.taken 1)) ∧
      (sent (.taken 1)).set = none ∧ (s.core.reg 2).toNat ∈ s.core.toAck) ∧
    ((255 : Nat) < 2 ^ 8 ∧ s.core.m ≠ 0 ∧ u.groupBusy 16 255 = false ∧ PayloadOk u.core 0x2000 (64 + 8 * u.loadLocal 0x2000 1) ∧
      u.loadAbsent 0x2000 (64 + 8 * u.loadLocal 0x2000 1) = false ∧
      (u.parseGroup 16 (deviceOf u.cur) (u.readLocal 0x2000 (64 + 8 * u.loadLocal 0x2000 1))).isSome = true) ∧
    ((15 : Nat) < 2 ^ 4 ∧ (expertState []).core.expert 15 = expertZ) := by decide +kernel
/-- An expert set of two words of masks on the group's device. -/
theorem test_meets_GroupInstructions_masks : let s := { expertState [(1, 15)] with experts := [(expertKey 0 16 15, { expertY with masks := [1, 2] })] }
    (15 : Nat) < 2 ^ 14 ∧ 15 / 2 ^ 4 % 16 = 0 ∧ s.expertSet (deviceOf s.cur) (fnOf s.core.fn) (15 % 16) = some { expertY with masks := [1, 2] } ∧
    15 / 2 ^ 8 < 1 ∧ Installed s (255 + 15 / 2 ^ 8) grp := by decide +kernel
theorem test_meets_GroupInstructions_wait : let i := Instr.gstatB { fB with sub := 5, imm16 := 255 }
    let r := inGroup { member [] with run := .waiting (.install i) } []
    Comes (r.rerun 0) i (.install i) .groupInstall (exec (.groupInstall 0) r) := .inr ⟨_, 0, rfl, by decide +kernel, rfl⟩
/-- The key of the send of tile 0. -/
def key7 : Nat := (sent .issued).key
/-- The group with a send of each state, a member with readiness, one without, and a count or none below the root. -/
theorem test_meets_GroupSteering : let s (x : SendState) := inGroup (member []) [sent x]
    let t (g : Group) (x : SendState) := { inGroup (member []) [sent x] with groups := [(16 * 256 + 255, g)] }
    let r := inGroup { member [] with ready := [(255, 1)] } [sent (.at 0)]
    ((s .issued).send key7 = some (sent .issued) ∧ (s .issued).noPath (deviceOf 0) (deviceOf (grp.place grp.root)) = false) ∧
    ((s .orderWait).sends.takeWhile (fun y => y.key ≠ key7) = []) ∧
    (grp.isMember 0 = true ∧ r.present (grp.place 0) 16 = true ∧ mapGet r.away (homeKey 16 (grp.place 0)) = none ∧
      0 < (r.coreOf (grp.place 0)).readiness 255) ∧
    (key7 ∈ ({ grp with restarts := [key7] } : Group).restarts ∧ r.readinessOf 16 255 0 ≠ 0 ∧
      ({ r with dies := [(0, { Die.reset with lost := true })] } : State).present 0 16 = false) ∧
    ((s (.at 0)).readinessOf 16 255 (grp.place 0) = 0 ∧ grp.choose 0 [] = some 1 ∧
      (s (.at 0)).noPath (deviceOf (grp.place 0)) (deviceOf (grp.place 1)) = false) ∧
    ((t { grp with member := [true, false] } (.at 1)).send key7 = some (sent (.at 1)) ∧
      ({ grp with member := [true, false] } : Group).isMember 1 = false ∧ ({ grp with member := [true, false] } : Group).choose 1 [] = none ∧
      (1 : Nat) ≠ grp.root) ∧
    (({ grp with counts := [] } : Group).choose 0 [] = none ∧ key7 ∉ grp.restarts) ∧
    (0 + grp.plimit ≤ (({ s (.parked 0) with devices := [(0, { Device.reset with micros := 5 })] } : State).device (grp.dev[grp.root]?.getD 0)).micros ∧
      (s (.parked 0)).present 0 16 = true) ∧
    ((s (.taken 0)).ackCounts (sent (.taken 0)) 0 = true) := by decide +kernel
/-- R377, R379: behind an earlier ordered send of its sender, an ordered send that a strike has brought to the root goes back to
ORDERWAIT, also where a younger plain one goes on. -/
theorem test_restart : let a := { sent (.taken 1) with ordered := true }
    let b := { sent (.at 0) with handle := 8, ordered := true }
    let s : State := { inGroup (member []) [a, b, { sent (.at 0) with handle := 9 }] with
      groups := [(16 * 256 + 255, { grp with restarts := [b.key, key7 + 2] })] }
    (s.send b.key = some b ∧ b.ordered = true ∧ ∃ y ∈ s.sends.takeWhile (fun y => y.key ≠ b.key),
      y.ordered = true ∧ y.sender = b.sender ∧ y.fn = b.fn ∧ y.group = b.group) ∧
    (next (exec (.parkedRestart (16 * 256 + 255)) s)).sends.map Send.state = [.taken 1, .orderWait, .at 1] := by decide +kernel
/-- What the acts on messages, notices and strikes find. -/
theorem test_meets_GroupSteering_messages : let r : ReadyMsg := { group := 16 * 256 + 255, member := 1, node := 1, amount := 1 }
    let n : Notice := { send := key7, ack := false, tile := 1, sender := 0, set := none, batch := 0, index := 0, chosen := 0 }
    let s := { inGroup (member []) [] with readyMsgs := [(0, r)], notices := [(0, n), (1, { n with ack := true })], strikes := [(0, 1, 16)] }
    (mapGet s.readyMsgs r.group = none ∧ mapGet s.readyMsgs 0 = some r ∧ s.readyBehind 0 r = false ∧ grp.up r.node = grp.root ∧
      ({ grp with parent := [0, 0, 1] } : Group).up 2 ≠ grp.root) ∧
    (mapGet s.notices 0 = some n ∧ n.set = none ∧ s.present n.sender (n.send / 2 ^ 64) = true) ∧ (0, 1, 16) ∈ s.strikes := by decide +kernel
theorem test_meets_GroupSteering_bias : let s := expertState []
    s.biasEngine 0 expertZ = some 0 ∧ s.present 0 16 = true ∧ s.batchOver 0 16 15 0 = true ∧ (s.age (copyAge 0 0)).stopped = none ∧
    expertZ.closed = 0 :: [] ∧ (match State.reach (copyAge 0 0) 0 16 0 1 (4 * (1 * 1)) s 8 with
      | .ok _ pas => some pas
      | _ => none) = some [0x100008, 0x100009, 0x10000A, 0x10000B] := by decide +kernel

/-! ### Draft memory, row 0xA -/

/-- The core of the owner with a query of 31 wanted at least and 32 tokens given, and an append of 64, at the end of the scratchpad. -/
def draftCore (rs : List (BitVec 5 × Dword)) : Core := { regs rs with fn := 0x10 }
def draftState (x : DraftSlot) (c : Core) : State := { onCore c with dies := [(0, { Die.reset with draft := [(0, x)] })] }
/-- A slot whose newest tokens 1, 2 follow 9 as they once followed 8. -/
def draftX : DraftSlot := { DraftSlot.reset with window := [8, 1, 2, 3, 9, 1, 2], cap := 16, quota := 16, total := 7 }
/-- R300: the longest match is the two tokens that end at position 2, and the token behind them is 3. -/
theorem test_query : draftQuery draftX.window = (2, some 2) := by decide +kernel
theorem test_sdq : let s := next (exec (.sdq { fA with a := 0, b := 1, d := 2 }) (draftState draftX (draftCore [(1, 0x4100800)])))
    s.core.reg 2 = 2 + 2 ^ 8 + 2 * 2 ^ 16 ∧ s.loadLocal 0x2000 4 = 3 := by decide +kernel
/-- R296: a cap of 3 keeps the newest three tokens. -/
theorem test_sdcap : ((next (exec (.sdcapB { fB with a := 0, imm16 := 3 }) (draftState draftX (draftCore [])))).die 0 |>.draftSlot 0).window = [9, 1, 2] := by
  decide +kernel
theorem test_meets_DraftInstructions : let c := draftCore [(1, 0xFE0BFFE0 - 0x80000000), (2, 0x40BFFC0)]
    let s := draftState draftX c
    let x := (c.reg 1).toNat
    let y := (c.reg 2).toNat
    (Drafts s 0 ∧ Drafts s 8191 ∧ ((s.die 0).draftSlot 0).loading = false ∧ DraftComes s (.sdq fA) (exec (.sdq fA) s)) ∧
    (x < 2 ^ 31 ∧ x / 2 ^ 26 % 32 ≠ 0 ∧ x / 2 ^ 20 % 64 ≤ 32 ∧ DraftArea c (4 * (x % 2 ^ 20)) (x / 2 ^ 20 % 64)) ∧
    (y < 2 ^ 27 ∧ 1 ≤ y / 2 ^ 20 % 128 ∧ y / 2 ^ 20 % 128 ≤ 64 ∧ DraftArea c (4 * (y % 2 ^ 20)) (y / 2 ^ 20 % 128) ∧
      s.loadAbsent (4 * (y % 2 ^ 20)) (4 * (y / 2 ^ 20 % 128)) = false) ∧
    ((2 ^ 52 - 64) % 64 = 0 ∧ 2 ^ 52 - 64 < 2 ^ 52) ∧
    (2 ^ 20 ≤ 2 ^ 20 ∧ (s.die 0).quotasBut 0 + 2 ^ 20 ≤ 2 ^ 26 ∧ 0 ≤ (0x7FFF : BitVec 16).toInt) ∧
    (∀ k ∈ (s.die 0).draft, k.2.loading = false) :=
  ⟨⟨by decide, by decide, by decide, .inl rfl⟩, by decide +kernel, by decide +kernel, by decide, by decide +kernel, by decide +kernel⟩
/-- An instruction that waits, and an image of no tokens, cap 0 and version 1 that has been read. -/
theorem test_meets_DraftInstructions_load : let i := Instr.sdrstB { fB with imm16 := 1 }
    let r := draftState draftX { draftCore [] with run := .waiting (.draft i) }
    let c : Cmd := { (default : Cmd) with kind := .sdload 0 0, stage := .running, staged := [(0, 1)], fn := 16 }
    let s := { draftState { draftX with loading := true } (draftCore []) with cmds := [(4, c)] }
    DraftComes (r.rerun 0) i (exec (.draftWaitEnd 0) r) ∧ Holds (r.rerun 0) false 0 ∧
    (mapGet s.cmds 4 = some c ∧ c.staged.length = loadLines 1 ∧ s.cmdMay c = true ∧ headerBad 1 = false ∧
      tokensBad (1 / 2 ^ 32 % 2 ^ 21) ((c.staged.drop 1).map Prod.snd) = false ∧ (s.die 0).quotasBut 0 + 1 / 2 ^ 96 % 2 ^ 21 ≤ 2 ^ 26) :=
  ⟨.inr ⟨_, 0, rfl, by decide +kernel, rfl⟩, by decide, by decide +kernel⟩
/-- A query of a window that repeats and one of a window that does not. -/
theorem test_meets_DraftInstructions_query : 2 + 1 < draftX.window.length ∧ 0 < (draftQuery draftX.window).1 ∧
    (draftQuery [1, 2]).1 = 0 ∧ draftX.window.length ≤ draftX.cap ∧ draftX.cap ≤ 2 ^ 20 ∧ draftX.quota ≤ draftX.cap := by decide +kernel
/-- R79, R81: a seed of 0 stores 1, and a rounding mode of 6 leaves the mode. -/
theorem test_sset : let c := after (exec (.sset { fB with a := 1, imm16 := 5 }) (onCore { regs [(1, 0x1E)] with rm := 2 }))
    (c.rm, c.flush, c.flags, c.srgen) = (2, true, 1, 1) := by decide +kernel
theorem test_meets_SystemRegisters : (10 : BitVec 16).toNat < 11 ∧ (onCore (regs [])).core.m ≠ 0 ∧
    ((onCore { regs [] with m := 0 }).core.m = 0 → 3 ≤ (4 : BitVec 16).toNat) ∧
    ({ regs [] with m := 1 } : Core).m = 1 ∧ (5 : Dword).extractLsb' 0 2 ≠ 2#2 ∧ (5 : Dword).extractLsb' 2 2 ≠ 2#2 := by decide
theorem test_meets_SystemInstructions : let e : View := { pb := [], sv := [(spBase 0 + 0x2FFFC4, 1)] }
    let s := onCore { draftCore [(1, 0x1001), (2, 0x2FFFC0), (3, 0x1FF), (4, 31)] with view := e }
    let c := s.core
    (c.m ≠ 0 ∧ (c.m = 2 → (c.reg 4).toNat < 32) ∧ (c.reg 0).toNat % 2 ^ 16 = 0 ∧ (0x10000 : Nat) + (2 ^ 52 - 0x10000) ≤ 2 ^ 52) ∧
    ((∀ b ∈ s.contextChecks true true false (c.reg 1) 0, b.1 = false) ∧ (∀ b ∈ s.contextChecks false false false (c.reg 1) 0, b.1 = false) ∧
      (s.drainCore s.cur 4).startCause (c.reg 1) false = none) ∧
    (Accessible c (c.reg 2).toNat 64 ∧ (c.reg 3).toNat < 2 ^ 9 ∧ s.loadAbsent (c.reg 2).toNat 64 = false ∧
      entBad (BitVec.ofNat 512 (s.loadLocal (c.reg 2).toNat 64)) = false) ∧
    ((10 : Dword).toNat ≤ 10 ∧ (0xFFFFFFFF : Dword).toNat < 2 ^ 32 ∧ (0x7FFF : BitVec 16).toNat < 2 ^ 15 ∧ fnOf c.fn = 16 ∧
      fnOf (regs []).fn ≠ 16) := by decide +kernel
theorem test_meets_SystemInstructions_relatch : let s (n : Nat) : State :=
      { onCore { draftCore [] with run := .waiting (.relatch 3 1 16 n) } with relatches := [{ dev := 0, seq := 3, fn := 16, left := [] }] }
    Waits (s 0) 0 (.relatch 3 1 16 0) ∧
    (∀ r ∈ (s 0).relatches, r.dev = 0 → r.seq = BitVec.ofNat 32 3 → r.left = []) ∧ 2 ^ 22 ≤ 4194304 ∧ ((s 4194304).coreOf 0).ih = false := by
  decide +kernel

/-! ### Stream commands, layout engines, the matrix array -/

/-- A die whose entries 0, 1 and 2 of the owner are one element of format 0, of FP32, and of format 1 with 32-element scales. -/
def die1 : Die := { Die.reset with tids := [(16 * 256, 0x100000000), (16 * 256 + 1, 0x100000018), (16 * 256 + 2, 0x100000201)] }
/-- Tile 0 with q in its core's queue, and a stream bound to its fo port 1. -/
def issueState (q : List Nat) (w : StreamWord) : State :=
  { onTile { Tile.reset with
      core := { regs [(1, 0x2000), (2, 64)] with fn := 0x10, queue := q }, streams := [(1, (default : StreamEnd))] } with
    ir := w, dies := [(0, die1)] }
/-- Fields with which a command of a code is issued there. -/
def issueWord (code : Nat) : StreamWord :=
  if code = 0x0E then { noFields with w1 := 1, w2 := 2 } else if code = 0x12 || code = 0x13 then { noFields with w2 := 2 }
  else if code = 0x14 then { noFields with a := 1 } else if code = 0x11 then { noFields with b := 2 } else { noFields with b := 1 }
/-- R33: `sswap` of stream 2 joins the queue and the core goes on by 16. -/
theorem test_sswap : let s := next (exec .sswap { issueState [] noFields with ir := { noFields with sn := 2 } })
    (s.core.queue, s.core.pc, (mapGet s.cmds 0).map fun c => (c.kind, c.stage, c.sn)) = ([0], 16, some (.stream 8, .queued, 2)) := by
  decide +kernel
/-- Every command passes its checks in some state. -/
theorem test_meets_StreamCommands : ∀ r ∈ streamRows, let s := issueState [] (issueWord r.2)
    let code := r.2
    let c := s.capture s.coreIssuer code s.ir
    Holds s s.ir.gn s.ir.guard ∧ s.issueAbsent code = false ∧ (usesA code = true → entBad c.entA = false) ∧
    (usesB code = true → entBad c.entB = false) ∧ (code = 0x0F → 0 ≤ c.r2.toInt ∧ c.r2.toNat < 2 ^ 48) ∧
    (∀ b ∈ s.valueChecks s.coreIssuer c, b.1 = false) ∧ c.hasFollow = false ∧ c.bar = none := by decide +kernel
/-- A guard that does not hold. -/
theorem test_meets_StreamCommands_guard : (issueState [] { noFields with gn := true }).core.guardHolds true 0 = false := by decide
/-- A barrier that passes its checks, queues at both sides of their limit, and a core that waits for a place. -/
theorem test_meets_StreamCommands_queue : BarrierOk (issueState [] noFields) 0x2000 ∧ (List.range 63).length < 64 ∧ 64 ≤ (List.range 64).length ∧
    (let s := onCore { regs [] with run := .waiting (.streamQueue 9), queue := List.range 63 }
     Waits s 0 (.streamQueue 9) ∧ (s.coreOf 0).queue.length < 64) :=
  ⟨⟨by decide, by decide, by decide⟩, by decide, by decide, by decide +kernel⟩
/-- A copy of one element of format 0 in its element. -/
def copyCmd (x : CmdStage) : Cmd :=
  { (default : Cmd) with kind := .stream 0x0A, stage := x, entA := 0x100000000, entB := 0x100000000, fn := 16, w1 := 1, w2 := 2
                         regs := [(1, 0x2000), (2, 0x2040)] }
def withCmd (q : List Nat) (c : Cmd) : State := { onCore { regs [] with queue := q } with cmds := [(5, c)] }
/-- R249, R252: the element at 0x2000 comes to stand at 0x2040, in two acts. -/
theorem test_copy : let s := next (exec (.engineWrite 5 0) (next (exec (.engineRead 5 0)
      { withCmd [] (copyCmd .running) with mem := [(spBase 0 + 0x2000, 0x38)] })))
    s.mem.get (spBase 0 + 0x2040) = 0x38 ∧ (mapGet s.cmds 5).map Cmd.stage = some .complete := by decide +kernel
theorem test_meets_EngineActs : let q := copyCmd .queued
    let r := copyCmd .running
    let s := withCmd [5] q
    let t := withCmd [] r
    ((s.coreOf 0).queue = 5 :: [] ∧ s.cmdMay q = true ∧ q.onCopy = true ∧ q.graph = none ∧ mapGet (s.die 0).engines 7 = none ∧
      (s.age (copyAge 0 7)).stopped = none) ∧
    (Carried t 5 r ∧ (t.age r.copyAgeNo).stopped = none ∧ r.words = [] ∧ 0 < entCount r.entA ∧ 0 ∉ r.did ∧ mapGet r.staged 0 = none ∧
      r.w1.getLsbD 5 = false ∧ r.w2.getLsbD 5 = false ∧ entScale r.entA = 0 ∧ mapGet ({ r with staged := [(0, 1)] } : Cmd).staged 0 = some 1) ∧
    (let c := copyCmd .complete; (withCmd [] c).cmdMay c = true ∧ c.follow = none ∧ c.graph = none) ∧
    (let c : Cmd := { copyCmd .queued with kind := .stream 0x0F }
     let u := { barState barCore with cmds := [(5, c)] }
     u.cmdMay c = true ∧ u.allReported 0 5 = true ∧
      (match u.updateBarrier (deviceOf 0) 0x2000 { bytes := 0, expect := 1, arrivals := 1, ranges := [] } with
      | .ok _ => none
      | .error e => some e) = none) ∧
    (let c : Cmd := { copyCmd .running with kind := .stream 0x00, w1 := 0x20 }
     (withCmd [] c).cmds.find? (fun c => c.2.tile = 0 && c.2.stage = .running && c.2.throughPortAge) = some (5, c) ∧
      ((withCmd [] c).tile 0).portAge.stopped = none) ∧
    (let u : State := { withCmd [] r with tiles := [(0, { Tile.reset with ring := some (5, 0) })], dies := [(0, { Die.reset with cycle := 1048576 })] }
     (u.tile 0).ring = some (5, 0) ∧ 0 + 1048576 ≤ (u.die (dieOf 0)).cycle ∧ (u.ringCmds (0 / 8)).length ≠ 8) ∧
    (walkState.ageUser (coreAge 0) = some (16, 0) ∧ (walkState.namedAge (coreAge 0)).stopped = none ∧ (walkState.namedAge (coreAge 0)).latches = [] ∧
      (match walkState.translate (dieOf 0) 16 0 (walkState.namedAge (coreAge 0)) 8 0 with
      | .ok _ _ pa _ => some pa
      | _ => none) = some 0x10008) := by
  decide +kernel
/-- Tile 0 with a port command as command 5, which holds port 0 on both sides. -/
def portCmd (k rd : Nat) (w2 : Word) : Cmd := { copyCmd .running with kind := .stream k, rd := rd, w2 := w2 }
def portState (c : Cmd) (ks : List Token) : State :=
  { onTile { Tile.reset with fi := [(0, { q := [], taken := [], owners := [5] })], fo := [(0, { q := ks, taken := [], owners := [5] })] } with
    cmds := [(5, c)] }
/-- The addresses of the first element of a port command's tensor. -/
def portPlace (c : Cmd) (access : Nat) : Option (List Nat) :=
  match (portState c []).reachElement c (portAgeNo 0) c.virtual (tensorStart c.entB c.r1 c.virtual) 0 (entWidth c.entB) access with
  | .ok _ pas => some pas
  | _ => none
/-- R217: `sport` reads the element at 0x2000 into a DATA token, and `ssink` writes one there. -/
theorem test_port : let s := { portState (portCmd 0x00 0 0) [] with mem := [(spBase 0 + 0x2000, 0x38)] }
    (((next (exec (.engineRead 5 0) s)).tile 0).fiPort 0).q = [dataTok 0x38] ∧
    (next (exec (.engineRead 5 0) (portState (portCmd 0x01 0 0) [dataTok 0x27]))).mem.get (spBase 0 + 0x2000) = 0x27 := by decide +kernel
/-- `sport` in a row, at its end and at the tensor's; `ssink` of each kind of token, in and beyond its row; and `sfill`. -/
theorem test_meets_EngineActs_ports : let e := (portCmd 0 0 0).entB
    (∀ k, k < 3 → Carried (portState (portCmd k 0 0) []) 5 (portCmd k 0 0) ∧ (portCmd k 0 0).throughPortAge = false ∧
      (((portState (portCmd k 0 0) []).tile 0).fiPort 0).owners.head? = some 5 ∧ (((portState (portCmd k 0 0) []).tile 0).fiPort 0).room = true) ∧
    (entDim e 0 = 1 ∧ entRows e = 1 ∧ 0 / (1 + 1) < 1 ∧ 0 % (1 + 1) < 1 ∧ 1 / (1 + 1) < 1 ∧ 1 % (1 + 1) = 1 ∧ 1 ≤ 2 / (1 + 1)) ∧
    (portPlace (portCmd 0 0 0) 0 = some [spBase 0 + 0x2000] ∧ portPlace (portCmd 1 0 0) 1 = some [spBase 0 + 0x2000]) ∧
    ((((portState (portCmd 1 0 0) [dataTok 7]).tile 0).foPort 0).q.head? = some (dataTok 7) ∧ (dataTok 7).isData = true ∧ eorTok.kind = kEor ∧
      eotTok.kind = kEot ∧ ({ kind := kErr, data := 0 } : Token).isErr = true ∧ (portCmd 1 0 0).r2 = 0 ∧ (portCmd 1 0 2).r2.toNat ≤ 0x203F + 1) ∧
    (0 < (portCmd 2 0 2).r2.toNat ∧ 0x203F + 1 = (portCmd 2 0 2).r2.toNat) ∧
    (let c : Cmd := { copyCmd .complete with kind := .stream 0x05 }
     let r : Region := { region0 with cmd := 5 }
     let s : State := { withCmd [] c with regions := [(0, r)] }
     s.cmdMay c = true ∧ c.follow = none ∧ c.graph = none ∧ c.code = 0x05 ∧ mapGet s.regions c.tile = some r ∧ (copyCmd .complete).code ≠ 0x05) := by
  decide +kernel
/-- Eight `sring` at the rendezvous, and a record of each outcome at the head of its queue. -/
theorem test_meets_EngineActs_ring : let c : Cmd := { copyCmd .running with kind := .stream 0x0E }
    let s : State := { State.reset with
      tiles := (List.range 8).map fun t => (t, { Tile.reset with ring := some (t, 0) }), cmds := (List.range 8).map fun t => (t, c) }
    (∀ p : Fin 8, (s.tile (8 * 0 + p)).ring = some (p.val, 0) ∧ mapGet s.cmds p = some c ∧ s.cmdMay c = true ∧ c.r1 = 0x2000 ∧ c.r2 = 0x2040) := by
  decide +kernel
theorem test_meets_EngineActs_report : let r (bar : Dword) : Completion := { cmd := 5, tile := 0, bar := bar, bytes := 8, expect := 0, arrivals := 0, ranges := [], fn := 0, own := true, ring := false }
    let s (bar : Dword) : State := { barState barCore with dies := [(0, { Die.reset with cq := [(7, [r bar])] })] }
    mapGet ((s 0x2000).die (cqPlace 7).1).cq (cqPlace 7).2 = some (r 0x2000 :: []) ∧
    mapGet (s 0x3000).away (homeKey (r 0x3000).fn (r 0x3000).tile) = none ∧ (s 0x2000).awayBarrier (r 0x2000) = none ∧
    (({ s 0x2000 with away := [(homeKey 0 0, 1)] } : State).awayBarrier (r 0x2000)).isSome = true ∧
    ((s 0x2000).die 0).lost = false ∧ ((s 0x2000).die 0).stopped = false ∧ ({ Die.reset with stopped := true } : Die).stopped = true ∧
    (match (s 0x2000).updateBarrier (deviceOf (r 0).tile) 0x2000 { bytes := 8, expect := 0, arrivals := 0, ranges := [] } with
      | .ok _ => none
      | .error e => some e) = none ∧
    (match (s 0x3000).updateBarrier (deviceOf (r 0).tile) 0x3000 { bytes := 8, expect := 0, arrivals := 0, ranges := [] } with
      | .ok _ => none
      | .error e => some e).isSome = true := by decide +kernel

/-- Layout engine 0 of die 0 at place pc of a program of one word, for a command of one element, between two stages. -/
def layoutL (pc : Nat) (w : Word) : LayoutRun :=
  { cmd := 5, pc := pc, prog := List.replicate pc 0 ++ [w], lc := Vector.replicate 8 0, count := Vector.replicate 8 2
    sc := Vector.replicate 4 0, dc := Vector.replicate 4 0, stage := [(1, .inf false)], rm := 0, flush := false, ranges := [], pending := [], elem := 0 }
def layoutState (pc : Nat) (w : Word) : State :=
  { withCmd [] { copyCmd .running with kind := .stream 0x0D, w2 := 0 } with
    engine := 8, dies := [(0, { Die.reset with layouts := [(8, layoutL pc w)] })] }
/-- What a `rd` or `wr` moves: every element, or those before the one at which it stops. -/
def movedAll (m : Moved) : Bool :=
  match m with
  | .all _ _ _ => true
  | .part _ _ _ _ => false
def movedStop (m : Moved) : Bool :=
  match m with
  | .part _ _ _ (some _) => true
  | _ => false
/-- R270: `next` of counter 0 of two rounds goes back to place 3. -/
theorem test_next : let s := next (exec .layoutNext (layoutState 7 (packLayout 2 { imm16 := 3, y := 0, x := 0 })))
    (s.layoutRun 8).map (fun l => (l.pc, l.lc[0])) = some (3, 1) := by decide +kernel
theorem test_meets_LayoutInstructions : let s := layoutState 62 (packLayout 3 { imm16 := 1, y := 1, x := 8 })
    let l := layoutL 62 (packLayout 3 { imm16 := 1, y := 1, x := 8 })
    let c : Cmd := { copyCmd .running with kind := .stream 0x0D, w2 := 0 }
    Laid s l c { imm16 := 1, y := 1, x := 8 } ∧ l.pending = [] ∧
    ({ l with pending := [{ pas := [0], bit := 0, width := 8, value := 0 }] } : LayoutRun).pending ≠ [] ∧
    (counterAt l.lc 0 + 1 < counterAt l.count 0 ∧ counterAt (l.count.set! 0 1) 0 ≤ counterAt l.lc 0 + 1 ∧ (63 : BitVec 16).toNat < 64) ∧
    (movedAll (layoutRead s.engine 1 1 (1 - l.elem) s l c) = true ∧ movedAll (layoutWrite s.engine 1 1 (1 - l.elem) s l c) = true) ∧
    (let v := { c with w2 := 3, entA := 0x2000000100000000 }
     movedStop (layoutRead s.engine 1 1 (1 - l.elem) s l v) = true ∧ movedStop (layoutWrite s.engine 1 1 (1 - l.elem) s l v) = true) ∧
    ((255 : BitVec 16).toNat < 2 ^ (8 : BitVec 4).toNat ∧ (256 : BitVec 16).toNat ≤ 256) :=
  ⟨⟨by decide +kernel, rfl, by decide +kernel, by decide⟩, rfl, by decide, by decide +kernel, by decide +kernel, by decide +kernel, by decide⟩

/-- Tile 0 whose array has the command c in the queue of stream 0, planes of depth 1, and what runs. -/
def arrayState (c : Cmd) (run : List (Nat × Plane)) (strip : Option (Nat × List Cst)) : State :=
  { withCmd [] c with tiles := [(0, { Tile.reset with
      array := { Array128.reset with
        active := { depth := 1, rows := [] }, queues := [(0, [5])], running := run, strip := strip }
      live := some 0
      slots := (List.range 16).map fun j => (slotN j, packEl 0x49 { elFields with sub := 0x10 }) })] }
/-- R264: an `smat` of one row of width 1 to the strip; its activations from the tile's elements, of which there are none. -/
def matCmd (k : Nat) (w1 w2 : Word) : Cmd :=
  { (default : Cmd) with kind := .stream k, stage := .running, entA := 0x100000000, w1 := w1, w2 := w2, regs := [(2, 1)] }
theorem test_meets_MatrixActs : let m := matCmd 0x09 0x40 2
    let h := matCmd 0x09 0x40 0x42
    let s := arrayState m [] none
    (mapGet (s.tile 0).array.queues 0 = some (5 :: []) ∧ Carried s 5 m ∧ (∀ r ∈ (s.tile 0).array.running, r.1 ≠ 5) ∧
      entDim m.entA 0 = (s.tile 0).array.active.depth ∧ m.accum = false ∧ m.hold = false ∧ s.stripBusy (s.tile 0).array = false) ∧
    (h.hold = true ∧ h.accum = false ∧ h.sn = 0 ∧ ((arrayState h [] none).tile 0).array.owner = none) ∧
    (let r := arrayState m [(5, { depth := 1, rows := [] })] none
     Carried r 5 m ∧ m.tile = 0 ∧ m.rd < m.matrixRows ∧ m.fed = true ∧ (r.feedRow m (entDim m.entA 0)).isSome = true ∧
      (r.tile 0).array.strip = none) ∧
    (let r := arrayState m [] (some (5, []))
     (r.tile 0).array.strip = some (5, []) ∧ r.cmdMay m = true ∧
      ∀ j, j < 16 → r.stripNode m j = true ∧ ((r.tile 0).unitAt (296 + j)).buf = []) := by decide +kernel

/-- An `smat` that goes on with a matrix operation, into the held buffer and to the strip, and one whose row has been read. -/
theorem test_meets_MatrixActs_more : let g := matCmd 0x09 0x40 0x62
    let h := matCmd 0x09 0x40 0x22
    let s := arrayState g [] none
    let own (s : State) : State := s.setTile 0 { s.tile 0 with array := { (s.tile 0).array with owner := some (0, 1) } }
    (g.accum = true ∧ g.hold = true ∧ ((own s).tile 0).array.owner = some (g.sn, g.matrixRows) ∧ Carried (own s) 5 g) ∧
    (h.accum = true ∧ h.hold = false ∧ s.stripBusy ((own s).tile 0).array = false) ∧
    (let u := { matCmd 0x09 0 0x42 with staged := [(0, 0x38)] }
     let r := arrayState u [(5, { depth := 1, rows := [] })] none
     Carried r 5 u ∧ u.fed = false ∧ u.hold = true ∧ (r.tile 0).array.age.stopped = none ∧ entDim u.entA 0 = 1 ∧
      (mapGet u.staged 0).isSome = true ∧ u.rd < u.matrixRows ∧ u.rd + 1 = u.matrixRows) := by decide +kernel

/-! ### Regions -/

/-- The bytes of a number at an address, as memory lists them. -/
def bytesAt (a : Nat) (v n : Nat) : Memory :=
  ((toBytes v n).zipIdx a).filterMap fun p => if p.1 = 0 then none else some (p.2, p.1)
/-- R161 to R163: an image at 0x2000 of one tile and one station of 4 fc, whose unit 0 is an `iota` that feeds the one sink, fo
port 0; the header's beat. -/
def image (beat : Nat) : Memory :=
  bytesAt (spBase 0 + 0x2000) (beat + 4 * 2 ^ 12 + 4095 * 2 ^ 24 + 2 ^ 36 + 2 ^ 56 + 2 ^ 104 + 0x18000 * 2 ^ 192) 64 ++
    bytesAt (spBase 0 + 0x2040) 4 16 ++ bytesAt (spBase 0 + 0x2050) 0x100 16 ++
    bytesAt (spBase 0 + 0x2070) (packEl 0x33 { elFields with in0 := 256, route := 0x40, lat := 1 }).toNat 16
def cfgCmd : Cmd := { (default : Cmd) with kind := .stream 0x05, stage := .running, fn := 16, w1 := 1, regs := [(1, 0x2000)] }
def loadState (m : Memory) : State := { withCmd [] cfgCmd with mem := m, dies := [(0, die0)] }
/-- What the image comes to: a fault of its form or of its checks, or none. -/
def loads (m : Memory) : Option (Except LoadFault (Option LoadFault)) :=
  let s := loadState m
  match s.readImage (fun t => (s.tile t).live.isSome) 0 0x2000 with
  | .ok im => some (.ok (s.imageFault 0 16 im))
  | .error e => some (.error e)
/-- R164: the image loads; with a beat below its station it is 0x16, and an empty header is 0x12. -/
theorem test_load : (match loads (image 4) with
      | some (.ok none) => true
      | _ => false) = true ∧ (match loads (image 3) with
      | some (.ok (some e)) => e = (0x16, 0xFFFF)
      | _ => false) = true ∧ (match loads [] with
      | some (.error e) => e = (0x12, 0xFFFF)
      | _ => false) = true := by decide +kernel
/-- Tile 0 in a region of one running station whose unit 0 reads fi port 0 and feeds fo port 0, a sink; the fi port holds a token. -/
def lineRegion (st : Station) : Region :=
  { region0 with
    beat := 4, stations := [{ st with length := 4 }]
    sinks := [{ eots := 1, ordered := false, port := 0, tile := 0, seen := 0, reported := false, err := false, window := [], next := 0 }] }
def lineTile : Tile :=
  { Tile.reset with
    live := some 0, slots := [(0, packEl 0x33 { elFields with in0 := 256, route := 0x40, lat := 1 })]
    fi := [(0, { q := [dataTok 1], taken := [], owners := [] })] }
def lineState (r : Region) (cycle : Nat) : State :=
  { onTile lineTile with regions := [(0, r)], dies := [(0, { die0 with cycle := cycle })] }
/-- The cases of a load, and the ends of its waits. -/
theorem test_meets_RegionLoads : Carried (loadState (image 4)) 5 cfgCmd ∧ mapGet (loadState (image 4)).regions cfgCmd.tile = none ∧
    (let r := { lineRegion default with phase := .waiting, cmd := 5, fn := 16 }
     let s := { lineState r 0 with cmds := [(5, cfgCmd)] }
     s.lineMay 0 r = true ∧ s.residencyWaits 0 16 ((s.tenant 0 16).governing 0) = false ∧ s.overTiles r 0 = false ∧ s.steady r.tiles = true ∧
      ({ r with graph := some (0, 1) } : Region).graph = some (0, 1) ∧ r.govHold = false ∧ r.parityHold = false ∧ r.preempt = none) ∧
    (let r := { lineRegion default with phase := .held, parityHold := true, holdAsked := true, image := 0x2000 }
     let s := { lineState r 0 with mem := image 4, tiles := [(0, { lineTile with parity := [0] })] }
     s.regionOf 0 = some (0, r) ∧ r.phase ≠ .waiting ∧ 426 ≤ 426 ∧ s.tileStops 0 = false ∧ s.lineMay 0 r = true ∧ (s.tile 0).parity.contains 0 = true ∧ s.failedSlots r = [(0, 0)] ∧
      slotOk 0 0 (s.repairWord 0 r 0 0) = true) ∧
    (let r := { lineRegion default with phase := .held, parityHold := true, image := 0x2000 }
     let bad := image 4 ++ [(spBase 0 + 0x207F, 1)]
     let s := { lineState r 0 with mem := bad, tiles := [(0, { lineTile with parity := [0] })] }
     slotOk 0 0 (s.repairWord 0 r 0 0) = false) := by decide +kernel
/-- A load that goes on at once, and its region. -/
theorem test_meets_RegionLoads_goes : let s := loadState (image 4)
    s.loadWaits 0 0x2000 16 = false ∧ (match s.readImage (fun t => (s.tile t).live.isSome) 0 0x2000 with
      | .ok im =>
        let r := s.regionOfImage 5 0x2000 16 false none im
        let u := ((r.tiles.foldl (fun (s : State) t => s.setTile t { s.tile t with live := some 0 }) s).setRegion 0 r).equalise 0
        (u.residencyWaits 0 16 ((u.tenant 0 16).governing 0), u.overTiles r 0)
      | .error _ => (true, true)) = (false, false) := by decide +kernel
/-- A rewritten word that is sound and one that is not, in a region that is held, and one broken off in its beat. -/
theorem test_meets_RegionLoads_parity : let r := { lineRegion default with phase := .held, parityHold := true, holdAsked := true, image := 0x2000 }
    let s (m : Memory) (r : Region) := { lineState r 0 with mem := m, tiles := [(0, { lineTile with parity := [0] })] }
    let u (m : Memory) : State := (s m r).setTile 0 { ((s m r).tile 0).setSlot 0 ((s m r).repairWord 0 r 0 0) with parity := [] }
    (r.parityHold = true ∧ r.paused = false ∧ (s (image 4) r).failedSlots r = [(0, 0)] ∧ (u (image 4)).slotSound 0 0 = true ∧
      (u (image 4 ++ [(spBase 0 + 0x207F, 1)])).slotSound 0 0 = false) ∧
    (let p := { r with phase := .running, paused := true }
     p.phase = .running ∧ p.paused = true ∧ (s (image 4) p).failedSlots p = [(0, 0)] ∧ ({ p with paused := false } : Region).paused = false) := by
  decide +kernel
/-- A station that has an item, not finished. -/
def busyStation (places : Nat) : Station := { (default : Station) with length := 4, places := places, resumable := true, item := some 5 }
/-- R172: with nothing in the stations the next beat starts; an item that has not finished in a station with no place slips. -/
theorem test_boundary : ((mapGet (next (exec (.beatBoundary 0) (lineState (lineRegion { busyStation 0 with gate := true }) 4))).regions 0).map Region.phase) =
    some (.slipping [0] 4) ∧
    ((mapGet (next (exec (.beatBoundary 0) (lineState (lineRegion { busyStation 1 with gate := true }) 4))).regions 0).map fun r =>
      (r.beats, (r.station 0).green)) = some (1, 1) := by decide +kernel
theorem test_meets_BeatActs : let e : Region := lineRegion default
    let s := { lineState e 1 with cmds := [] }
    (s.lineMay 0 e = true ∧ e.tiles.contains 0 = true ∧ ((s.tile 0).fiPort 0).q = [dataTok 1] ∧
      ((s.sourceStations e 0 0).find? fun st => s.mayAdmit 0 e 0 0 st) = some 0 ∧ (e.station 0).item = none) ∧
    (let r := lineRegion (busyStation 1)
     ((lineState r 1).sourceStations r 0 0).find? (fun st => (lineState r 1).mayAdmit 0 r 0 0 st) = some 0 ∧ (r.station 0).item = some 5 ∧
      (r.station 0).resumable = true ∧ r.beatStart + r.beat - (r.station 0).lead ≤ (lineState r 4).cycleAt 0 ∧
      (lineState r 3).cycleAt 0 < r.beatStart + r.beat - (r.station 0).lead) ∧
    (let r := lineRegion { busyStation 1 with gate := true }
     let u := lineState r 4
     u.atBoundary 0 r = true ∧ r.mode ≠ 2 ∧ r.finished u 0 = false ∧ (r.station 0).loop = [] ∧ 0 < (r.station 0).places ∧ Unheld r ∧
      ((lineRegion { busyStation 0 with gate := true }).station 0).places = 0 ∧
      (lineState (lineRegion { busyStation 0 with resumable := false }) 4).atBoundary 0 (lineRegion { busyStation 0 with resumable := false }) = true ∧
      ((lineRegion { busyStation 0 with resumable := false }).station 0).resumable = false) ∧
    (let r := { lineRegion { (default : Station) with length := 4 } with phase := .slipping [0] 4 }
     let b := { lineRegion (busyStation 0) with phase := .slipping [0] 4 }
     (lineState r 9).ageStands r = false ∧ (lineState r 9).lineMay 0 r = true ∧ r.sinks.all Sink.ready = false ∧
      ({ r with sinks := [] } : Region).sinks.all Sink.ready = true ∧ r.mode = 0 ∧ r.slipceil = 0 ∧ Unheld r ∧ r.finished (lineState r 9) 0 = true ∧
      b.finished (lineState b 9) 0 = false) ∧
    (let r := { lineRegion default with mode := 2, winBeats := 64, hyshi := 8, hyslo := 4 }
     (lineState r 0).lineMay 0 r = true ∧ r.nextBeat = none ∧ r.direct = none ∧ r.evmask.getLsbD 1 = false ∧ r.hyshi ≤ ({ r with winGreens := 8 } : Region).winGreens ∧
      r.winSlips = 0 ∧ r.winGreens < r.hyshi ∧ r.winGreens ≤ r.hyslo ∧ r.hyslo < ({ r with winGreens := 5 } : Region).winGreens) ∧
    (let k : Sink := { eots := 1, ordered := false, port := 0, tile := 0, seen := 1, reported := false, err := false, window := [], next := 0 }
     let r := { lineRegion default with sinks := [k, k] }
     r.sinks[0]? = some k ∧ k.eots ≤ k.seen ∧ (r.setSink 0 { k with reported := true }).sinks.all Sink.reported = false ∧
      (({ r with sinks := [k] } : Region).setSink 0 { k with reported := true }).sinks.all Sink.reported = true ∧
      (e.sinks.map Sink.seen = [0] ∧ e.sinks.map Sink.eots = [1])) := by decide +kernel
/-- A boundary at which a slot's parity breaks the beat off, and a region that may act. -/
theorem test_meets_BeatActs_pause : let r := { lineRegion { (default : Station) with length := 4 } with parityHold := true }
    let s := { lineState r 4 with tiles := [(0, { Tile.reset with live := some 0 })] }
    AtBoundary s 0 r ∧ r.parityHold = true ∧ s.lineMay 0 r = true ∧ (lineRegion default).parityHold = false := by decide +kernel
/-- A source station whose port has given its item no closing token. -/
theorem test_meets_BeatActs_source : let r := lineRegion (busyStation 1)
    let s := lineState r 4
    (r.station 0).item = some 5 ∧ r.isSource s 0 = true ∧ queueKey 0 256 0 ∈ s.sourceKeys r 0 ∧
    (mapGet r.source (queueKey 0 256 0)).all (fun q => !q.closed) = true := by decide +kernel
/-- A boundary where the only station is no source and empty. -/
theorem test_meets_BeatActs_empty : let r := lineRegion { (default : Station) with length := 4 }
    let s := { lineState r 4 with tiles := [(0, { Tile.reset with live := some 0 })] }
    s.atBoundary 0 r = true ∧ ∀ st, st < 1 → r.finished s st = true ∧ (r.station st).loop = [] ∧ r.isSource s st = false := by decide +kernel

/-! ### Tenants and the tier engine -/

/-- Tenant 3 of device 0 holds tile 0 and the frames from 2^25 to 2^26; its one block lets it 32 MiB and all tiles, and wants
one 64th of its record resident. -/
def tenant3 : Tenant :=
  { Tenant.reset with
    state := .running, desc := BitVec.ofNat 2048 (1 + 0x4000 * 2 ^ 320 + (1 + 2 ^ 31) * 2 ^ 512)
    rcbs := [{ parent := none, bits := BitVec.ofNat 392 (160 * 2 ^ 192 + 2 ^ 208 + 2 ^ 272) }], ws := [(0, [{ va := 0, size := 2 ^ 16, history := 0 }])] }
/-- Device 0 and 1 of a node, device 0 with tenants, and a page table at 0 whose page of VA 0 lies in device 1. -/
def tenantState (ts : List (Nat × Tenant)) : State :=
  { State.reset with
    node := [0, 1], devices := [(0, { Device.reset with tenants := ts })]
    mem := [(0, 0x01), (1, 0x10), (0x1000, 0x01), (0x1001, 0x20), (0x2000, 0x01), (0x2001, 0x30), (0x3000, 0x2F), (0x3002, 0x01), (0x3006, 0x04)] }
/-- R322, R323: the page of VA 0 is in tier 1, and a move of it that is on its way has emerged or has not. -/
theorem test_meets_TenantActs_move : let m : TierMove := { va := 0, size := 2 ^ 16, frame := 2 ^ 25, seq := 3 }
    let s := tenantState [(3, tenant3)]
    let t (ds : List Nat) := { tenantState [(3, { tenant3 with moving := [m] })] with relatches := [{ dev := 0, seq := 3, fn := 3, left := ds }] }
    (s.leafOf 0 3 0).map (fun l => (l.page 0, l.tier 0)) = some (0, some 1) ∧ (s.leavesOf 0 3 0).length = 1 ∧ (s.device 0).frozen = false ∧
    (s.tenant 0 3).moving = [] ∧ (s.tenant 0 3).ws = [(0, [{ va := 0, size := 2 ^ 16, history := 0 }])] ∧
    (t []).emerged 0 3 = true ∧ (t [7]).emerged 0 3 = false ∧ (((t []).tenant 0 3).moving.find? fun m => m.va = 0) = some m := by
  decide +kernel
/-- It is wanted in tier 0, and a load waits for it: a frame of the tenant's is free. -/
theorem test_meets_TenantActs_up : (tenantState [(3, tenant3)]).mayMoveUp 0 3 0 = true := by decide +kernel
theorem test_meets_TenantActs_take : (tenantState [(3, tenant3)]).mayTake 0 3 (2 ^ 16) (2 ^ 25) = true := by decide +kernel
theorem test_meets_RegionLoads_waits : let s := tenantState [(3, tenant3)]
    s.residencyWaits 0 3 ((s.tenant 0 3).governing 0) = true := by decide +kernel
/-- A live tile whose generator 0 has RELATCH tokens to take, and tokens in its output slot. -/
def tokenState (q : List (Nat × Nat × Nat)) (ks : List Token) : State :=
  { onTile { Tile.reset with
      slots := [(slotA 0, packEl 0x40 elFields)], live := some 0
      units := [(slotA 0, { u0 with out := ks, age := { Age.reset with relatch := q } })] } with
    regions := [(0, region0)] }
/-- The acts of the tokens, the quantum and the freezes. -/
theorem test_meets_TenantActs : let n := nodeState 0x3A 0 0 [{ kind := kRelatch, data := 3 }]
    let c : Ctx := { l := 0, t := 0, slot := slotM 0, w := elReads 0 0, op := 0x3A, ent := 0 }
    let duty (ds : List Nat) : List Relatch := [{ dev := 0, seq := 3, fn := 16, left := ds }]
    let y : Tenant := { tenant3 with state := .ready }
    (n.regionOf 0 = some (0, region0) ∧ region0.acts = true ∧ (n.tile 0).el (slotM 0) = some (elReads 0 0) ∧ (n.tile 0).elOp (slotM 0) ≤ 0x3C ∧
      n.peekIn c 0 = some { kind := kRelatch, data := 3 } ∧ (n.unitOf c).drain = false ∧ (n.tile 0).isFence (slotM 0) = false ∧
      n.tileStops 0 = false ∧ n.mayRun (deviceOf 0) region0.fn = true ∧ n.relatches = [] ∧
      (duty [nodeDuty 0 15 0 0, 7]).flatMap (fun q => q.left.filter fun n => 2 ^ 60 ≤ n && n % 2 ^ 20 = 0) = [nodeDuty 0 15 0 0] ∧
      ((n.setUnit 0 (slotM 0) { UnitState.reset with drain := true }).tile 0 |>.unitAt (slotM 0)).drain = true) ∧
    (n.dutyMet (2 ^ 60) 3 = false ∧ State.reset.dutyMet (2 ^ 60) 3 = true) ∧
    (let a := tokenState [(3, 0, 0)] []
     let b := tokenState [] [{ kind := kRelatch, data := 3 }]
     a.streamsToken (fabricAge 0 0) = true ∧ (a.age (fabricAge 0 0)).relatch.any (fun q => q.1 = (3 : Word).toNat) = true ∧
      b.streamsToken (fabricAge 0 0) = true ∧ b.regionOf 0 = some (0, region0) ∧
      (b.pathTokens region0 0 0).any (fun k => k.kind = kRelatch && k.data = 3) = true ∧ b.dutyMet (fabricAge 0 0) 3 = false ∧
      (tokenState [] []).dutyMet (fabricAge 0 0) 3 = true) ∧
    (let s := tenantState [(3, tenant3)]
     (s.tenant 0 3).state = .running ∧ (s.tenant 0 3).leaving = false ∧ (s.tenant 0 3).quantumLeft = 0 ∧ s.others 0 3 = []) ∧
    (let s (p : Nat) := tenantState [(3, { tenant3 with rcbs := [{ parent := none, bits := BitVec.ofNat 392 (p * 2 ^ 8) }] }), (4, { y with passedOver := 14 })]
     ((s 0).others 0 3).filter (fun o => ((s 0).tenant 0 o).state = .ready && (s 0).readyRunnable 0 o && (s 0).conflict 0 3 o) = [4] ∧
      ((s 0).tenant 0 3).priority ≤ ((s 0).tenant 0 4).priority ∧ ((s 1).tenant 0 4).priority < ((s 1).tenant 0 3).priority ∧
      ((s 1).tenant 0 4).passedOver < 15 ∧ 15 ≤ ({ y with passedOver := 15 } : Tenant).passedOver) ∧
    (let r := { lineRegion default with preempt := some (0, false) }
     let s := lineState r 65536
     mapGet s.regions 0 = some r ∧ deviceOf 0 = 0 ∧ r.fn = 0 ∧ r.phase ≠ .held ∧ 0 + 65536 ≤ (s.die (dieOf 0)).cycle) ∧
    (let t := { tenant3 with idleMicros := 1000000 }
     let s := { tenantState [(3, t)] with tiles := [(0, { Tile.reset with core := { regs [] with fn := 3 } })] }
     s.runnable 0 3 = true ∧ s.hangLimit 0 3 ≤ (s.tenant 0 3).idleMicros ∧ (tenant3.idleMicros < s.hangLimit 0 3)) := by decide +kernel
/-- A sample that is due, one that has been taken, and a tenant that does not run; a move whose page no write waits for. -/
theorem test_meets_TenantActs_sample : let s := tenantState [(3, tenant3)]
    (3 : Nat) ≠ 16 ∧ (s.tenant 0 3).ws = [(0, [{ va := 0, size := 2 ^ 16, history := 0 }])] ∧ (s.tenant 0 3).state = .running ∧
    (s.tenant 0 3).sampled = false ∧ (s.leavesOf 0 3 0).length = 1 ∧ ({ tenant3 with sampled := true } : Tenant).sampled = true ∧
    ({ tenant3 with state := .stopped } : Tenant).state ≠ .running ∧ ({ tenant3 with state := .stopped } : Tenant).state ≠ .ready ∧
    s.heldWrites = [] := by decide +kernel
/-- A read of the device's own that is over: whether it faults, and what follows one that does not. -/
def faults {α : Type} (r : VaResult α) : Option Bool :=
  match r with
  | .ok _ _ => some false
  | .fault _ _ _ => some true
  | .wait => none
def following {α β : Type} (r : VaResult α) (f : State → α → VaResult β) : VaResult β :=
  match r with
  | .ok s a => f s a
  | .fault s va e => .fault s va e
  | .wait => .wait
/-- A grant: a tree whose VA no page maps; one block of zeros but its shares, with images that cannot be read; and none to read. -/
theorem test_meets_TenantActs_grant : let y : Tenant := { tenant3 with state := .ready, work := true }
    let m := (tenantState []).mem.filter (fun c => c.1 < 0x3006) ++ [(0x3003, 0x02)] ++ [(0x2010000 + 0x1E, 1)]
    let s (d : Nat) := { tenantState [(3, { y with desc := BitVec.ofNat 2048 ((1 + 2 ^ 31) * 2 ^ 512 + 2 ^ 31 * 2 ^ 576 + d) })] with mem := m }
    let v := s (1 + 2 ^ 30 * 2 ^ 384)
    let images (s : State) := following (s.loadTree 0 3) fun u rcbs =>
      let v := u.setTenant 0 3 { u.tenant 0 3 with rcbs := rcbs }
      State.readRun 0 16 none 3 0 v (v.saveBase 0 3) (s.tilesOf 0 3)
    (s 1).steady ((s 1).tilesOf 0 3) = true ∧ (s 1).tilesOf 0 3 = [0] ∧ (s 1).mayStart 0 3 = true ∧
    (∀ t ∈ (s 1).tilesOf 0 3, (s 1).ownerOn t = false) ∧ (tenantState [(3, { y with work := false })]).mayStart 0 3 = false ∧
    faults ((s (2 ^ 30 * 2 ^ 192)).loadTree 0 3) = some true ∧ faults (v.loadTree 0 3) = some false ∧
    faults (images v) = some true ∧ faults (images (s 0)) = some false := by decide +kernel

/-! ### Streams and links -/

/-- A stream end of command n at one side of a pair of fo port 1 of tile 0 and fi port 2 of tile 1. -/
def fromEnd (p : Bool) : StreamEnd := { (default : StreamEnd) with cmd := 5, peer := 6, far := 0x08001, depth := 16, fn := 16, paired := p }
def toEnd (p : Bool) : StreamEnd := { (default : StreamEnd) with cmd := 6, peer := 5, rx := true, far := 0x04000, depth := 16, fn := 16, paired := p }
def xferCmd (t : Nat) : Cmd := { (default : Cmd) with kind := .stream 0x13, stage := .running, fn := 16, tile := t }
def streamState (p : Bool) (b : StreamEnd) (ks : List Token) (way : List Token) : State :=
  { State.reset with
    tiles := [(0, { Tile.reset with streams := [(1, fromEnd p)], fo := [(1, { q := ks, taken := [], owners := [5] })] }),
      (1, { Tile.reset with streams := [(66, b)], fi := [(2, { q := [], taken := [], owners := [6, 7] })] })]
    cmds := [(5, xferCmd 0), (6, xferCmd 1)], transit := if way = [] then [] else [(6, way)] }
/-- R358: a token leaves the fo port, and later enters the fi port. -/
theorem test_stream : let s := next (exec (.streamTokenTransfer 1) (streamState true (toEnd true) [dataTok 9] []))
    (s.inTransit 6, ((next (exec (.streamTokenTransfer 1) s)).tile 1).fiPort 2 |>.q) = ([dataTok 9], [dataTok 9]) := by decide +kernel
theorem test_meets_LinkActs_streams : let a := fromEnd false
    let b := toEnd false
    let s := streamState false b [] []
    (s.streamEnd 0 1 = some a ∧ s.streamEnd 1 (64 + 2) = some b ∧ a.names 1 2 = true ∧ b.names 0 1 = true ∧ a.name = b.name ∧ a.fn = b.fn ∧
      s.endMay 0 1 a = true ∧ s.endMay 1 66 b = true ∧ s.noPath (deviceOf 0) (deviceOf 1) = false ∧ a.depth = b.depth ∧ s.tileOfFn 16 1 = true ∧ s.tileOfFn 16 0 = true ∧
      a.depth ≠ ({ b with depth := 32 } : StreamEnd).depth ∧ a.fn ≠ ({ b with fn := 3 } : StreamEnd).fn ∧ s.tileOfFn 3 1 = false) ∧
    (let t := streamState true (toEnd true) [dataTok 9] []
     let e := fromEnd true
     t.receivers 0 1 = [(1, 66)] ∧ t.streamEnd 1 66 = some (toEnd true) ∧ t.inTransit (toEnd true).cmd = [] ∧ t.endMay 0 1 e = true ∧ ((t.tile 0).foPort 1).q = [dataTok 9] ∧ e.closing = none ∧
      t.closer 0 1 = none ∧ t.outstanding e < e.depth ∧ ({ e with depth := 0 } : StreamEnd).depth ≤ t.outstanding { e with depth := 0 }) ∧
    (let t := streamState true (toEnd true) [] [closeMark]
     let u := (({ streamState true (toEnd true) [] [dataTok 9] with tiles := (streamState true (toEnd true) [] []).tiles.drop 1 } : State))
     (t.inTransit (toEnd true).cmd).head? = some closeMark ∧ t.endMay 1 66 (toEnd true) = true ∧ (t.setEnd 1 66 (toEnd true)).closer 1 66 = none ∧
      (({ t with cmds := t.cmds ++ [(7, { xferCmd 1 with kind := .stream 0x14 })] } : State).closer 1 66).isSome = true ∧
      u.receivers 0 1 = [(1, 66)] ∧ u.inTransit (toEnd true).cmd = dataTok 9 :: [] ∧ dataTok 9 ≠ closeMark ∧ ((u.tile 1).fiPort 2).room = true ∧ u.streamEnd 0 1 = none) := by decide +kernel
/-- A port, frames without coded bytes, a data frame for which the port has no key, sender's frames, and lanes at their least. -/
theorem test_meets_LinkActs : let frame (kind : Nat) := wordBytes (frameWords kind 0 0 0 false [])
    let h (kind : Nat) := numAt (frame kind) 0 16
    let s := State.reset
    let l : Link := { Link.reset with unacked := [(false, []), (false, [])], sentBase := 4095 }
    s.portUp 0 = true ∧ frameOk [] = false ∧ (frameOk (frame 1) = true ∧ h 1 % 256 = 1) ∧ (frameOk (frame 2) = true ∧ h 2 % 256 = 2) ∧
    (frameOk (frame 3) = true ∧ h 3 % 256 = 3) ∧ (frameOk (frame 0) = true ∧ h 0 % 256 = 0 ∧ (s.frameBlocks 0 (frame 0)).isNone = true) ∧
    numAt (wordBytes (frameWords 0 0 9 0 false [])) 0 16 / 2 ^ 16 % 2 ^ 12 ≠ (s.link 1).accepted % 2 ^ 12 ∧
    ((l.sentBase + 1) % 2 ^ 12 = 0 % 2 ^ 12 ∧ (l.sentBase + 0) % 2 ^ 12 ≠ 0 ∧ 1 < l.unacked.length) ∧ (∀ x ∈ l.unacked, x.1 = l.kep) ∧
    (s.link 0).down = false ∧ 4 < (s.link 0).lanes ∧ ({ Link.reset with lanes := 4 } : Link).lanes ≤ 4 ∧ s.lostEnds = [] := by decide +kernel
/-- A data frame next in sequence and one that is not; a sender with a frame of an older epoch, and one in its even number. -/
theorem test_meets_LinkActs_frames : let h (n : Nat) := numAt (wordBytes (frameWords 0 0 n 0 false [])) 0 16
    let w := State.reset.wakeDie 0
    (h 0 / 2 ^ 16 % 2 ^ 12 = (w.link 1).accepted % 2 ^ 12 ∧ h 9 / 2 ^ 16 % 2 ^ 12 ≠ (w.link 1).accepted % 2 ^ 12) ∧
    (w.frameBlocks 0 (wordBytes (frameWords 0 0 0 0 false []))).isNone = true ∧ senderOf 0 = some 0 ∧ (w.die (0 / 16)).lost = false ∧
    (let l : Link := { Link.reset with unacked := [(true, [])] }
     (∃ x ∈ l.unacked, x.1 ≠ l.kep) ∧ l.down = false) ∧ (0 : Nat) ≠ 1 := by decide +kernel
/-- A port whose device and whose partner's, whichever that is, have their keys. -/
theorem test_meets_LinkActs_keyed : State.reset.keyless (0 / 2) = false := by
  have h (d : Nat) : (State.reset.device d).frozen = false := rfl
  simp [State.keyless, h]
/-- The words of a data frame 0 of one byte, its header of 12 bytes, and its crc. -/
def byteFrame (b : Byte) : List Word := [0, 0x00010000, 0, crc32 ([0, 0, 0, 0, 0, 0, 1, 0, 0, 0, 0, 0] ++ [b]), b.setWidth 32]
/-- R364, R367: a frame of one byte is sound whatever the byte. -/
theorem frame_sound (b : Byte) : let f := wordBytes (byteFrame b)
    frameOk f = true ∧ numAt f 0 16 % 2 ^ 48 = 0 ∧ numAt f 0 16 / 2 ^ 64 % 2 = 0 ∧ numAt f 0 16 / 2 ^ 48 % 2 ^ 16 = 1 ∧ (f.drop 16).take 1 = [b] := by
  intro f
  have hc := (crc32 ([0, 0, 0, 0, 0, 0, 1, 0, 0, 0, 0, 0] ++ [b])).isLt
  have hb : BitVec.ofNat 8 (b.setWidth 32).toNat = b := by
    have := b.isLt
    apply BitVec.eq_of_toNat_eq; simp; omega
  generalize hw : crc32 ([0, 0, 0, 0, 0, 0, 1, 0, 0, 0, 0, 0] ++ [b]) = w at hc
  have hf : f = [0, 0, 0, 0, 0, 0, 1, 0, 0, 0, 0, 0] ++ [byteOf w.toNat 0, byteOf w.toNat 1, byteOf w.toNat 2, byteOf w.toNat 3, BitVec.ofNat 8 (b.setWidth 32).toNat,
        byteOf (b.setWidth 32).toNat 1, byteOf (b.setWidth 32).toNat 2, byteOf (b.setWidth 32).toNat 3] := by
    simp only [f, wordBytes, byteFrame, hw]; rfl
  have ho : ofBytes [byteOf w.toNat 0, byteOf w.toNat 1, byteOf w.toNat 2, byteOf w.toNat 3] = w.toNat := by
    simp only [ofBytes, byteOf, Nat.shiftRight_eq_div_pow, BitVec.toNat_ofNat]
    omega
  have hn : numAt f 0 16 = 2 ^ 48 + w.toNat * 2 ^ 96 := by
    have : numAt f 0 16 = ofBytes [0, 0, 0, 0, 0, 0, 1, 0, 0, 0, 0, 0, byteOf w.toNat 0, byteOf w.toNat 1, byteOf w.toNat 2, byteOf w.toNat 3] := by
      rw [hf]; rfl
    rw [this]
    simp only [ofBytes] at ho ⊢
    rw [ho]
    have h0 : (0 : Byte).toNat = 0 := rfl
    have h1 : (1 : Byte).toNat = 1 := rfl
    rw [h0, h1]
    ring
  have ht : (f.drop 16).take 1 = [b] := by rw [hf, hb]; rfl
  refine ⟨?_, by omega, by omega, by omega, ht⟩
  have h1 : (2 ^ 48 + w.toNat * 2 ^ 96) / 2 ^ 48 % 2 ^ 16 = 1 := by omega
  have h2 : f.take 12 = [0, 0, 0, 0, 0, 0, 1, 0, 0, 0, 0, 0] := by rw [hf]; rfl
  have h3 : (2 ^ 48 + w.toNat * 2 ^ 96) / 2 ^ 96 = w.toNat := by omega
  have h4 : f.length = 20 := by rw [hf]; rfl
  simp only [frameOk, hn, h1, ht, h2, hw, h3, h4]
  simp
  omega
/-- R364 to R367: under any key a frame of a block of zeros is accepted: the keystream is undone. -/
theorem test_meets_LinkActs_data (key : BitVec 128) : let s := State.reset.setLink 1 { Link.reset with keys := [(0, key)] }
    s.portUp 0 = true ∧ s.wakeDie 0 = s ∧ ∃ bs blocks, frameOk bs = true ∧ numAt bs 0 16 % 256 = 0 ∧
      numAt bs 0 16 / 2 ^ 16 % 2 ^ 12 = (s.link 1).accepted % 2 ^ 12 ∧ s.frameBlocks 0 bs = some blocks := by
  intro s
  refine ⟨rfl, rfl, ?_⟩
  let c : Byte := byteOf (Config.sm4 key (counterBlock (Config.linkPeer 1) 0 0)).toNat 0
  obtain ⟨h1, h2, h3, h4, h5⟩ := frame_sound (1 ^^^ c)
  have hl : s.link (linkIn 0) = { Link.reset with keys := [(0, key)] } := rfl
  have h6 : (s.link 1).accepted % 2 ^ 12 = 0 := rfl
  refine ⟨wordBytes (byteFrame (1 ^^^ c)), [List.replicate blockWords 0], h1, by omega, by omega, ?_⟩
  have h7 : numAt (wordBytes (byteFrame (1 ^^^ c))) 0 16 / 2 ^ 8 % 64 = 0 := by omega
  have hc : cipher key (Config.linkPeer (linkIn 0)) Link.reset.accepted [1 ^^^ c] = [1] := by
    show [1 ^^^ c ^^^ c] = [1]
    rw [BitVec.xor_assoc, BitVec.xor_self, BitVec.xor_zero]
  have hm : mapGet [(0, key)] 0 = some key := rfl
  simp only [State.frameBlocks, hl, h7, h3, h4, h5, hm, hc]
  decide

/-! ### The platform, steps and words -/

/-- Device 0 with the tenants of a list, each a holder of tile 0. -/
def deviceOf0 (fns : List Nat) : State :=
  { State.reset with devices := [(0, { Device.reset with tenants := fns.map fun fn => (fn, { tenant3 with desc := 1 }) })] }
/-- A submission queue of tenant 3 of 16 entries with one to submit: tile 0, one node at VA 0, or nothing written. -/
def queueState (m : Memory) (cs : Map GraphCtx) : State :=
  { deviceOf0 [3] with
    devices := [(0, { Device.reset with
      tenants := [(3, { tenant3 with desc := 1 })]
      queues := [(subKey 3 7, { SubQueue.reset with enable := true, qsize := 4, tail := 16, head := 15 })] })]
    mem := m, contexts := cs }
theorem test_meets_FaultsAndQueues : let s := deviceOf0 [3]
    ((s.tenant 0 3).state ≠ .absent ∧ (s.tenant 0 4).state = .absent ∧ s.tenantsOn 0 = [3] ∧ s.tenantsOn 1 = [] ∧
      (∀ x ∈ s.regions, x.2.fn ≠ 16) ∧ (∀ fn ∈ State.reset.others 0 16, State.reset.ownsTile 0 fn 0 = false) ∧ s.others 0 16 = [3]) ∧
    (∀ t, t < 80 → ({ deviceOf0 [3] with devices := [(0, { Device.reset with tenants := [(3, { tenant3 with desc := BitVec.ofNat 2048 (2 ^ 160 - 1) })] })] } : State).ownsTile 0 3 t = true) ∧
    (let q := queueState [(hostPa 0 (64 * 15 + 8), 1)] []
     let x := q.subQueue 0 3 7
     x.enable = true ∧ x.head.toNat = 15 ∧ ({ x with tail := 14 } : SubQueue).head.toNat ≠ (14 : BitVec 16).toNat % 2 ^ x.qsize.toNat ∧
      q.mayRun 0 3 = true ∧ (q.device 0).frozen = false ∧
      q.entryBad 0 3 (q.mem.num (hostPa 0 (x.qbase.toNat + 64 * (x.head.toNat % 2 ^ x.qsize.toNat))) 64) = false ∧
      (queueState [] []).entryBad 0 3 ((queueState [] []).mem.num (hostPa 0 (64 * 15)) 64) = true ∧ (7 : Nat) < 8 ∧ 8 ≤ 8) := by decide +kernel
/-- A device that the host reaches, and those it does not: in reset, or with die 0 lost. -/
theorem test_meets_FaultsAndQueues_host : let s := queueState [] []
    s.hostReaches 0 = true ∧ s.dieStopped 0 = false ∧
    ({ State.reset with devices := [(0, { Device.reset with up := false })] } : State).hostReaches 0 = false ∧
    ({ State.reset with dies := [(0, { Die.reset with lost := true })] } : State).hostReaches 0 = false ∧ (3 : Nat) ≠ 16 := by
  decide +kernel
/-- A free context, whichever the model takes, and none. -/
theorem test_meets_FaultsAndQueues_context : (∃ n, ((queueState [] []).takeCtx 3 0 0 1 false).2 = some n) ∧
    ((queueState [] ((List.range 64).map fun k => (k, default))).takeCtx 3 0 0 1 false).2 = none := ⟨⟨_, rfl⟩, by decide +kernel⟩
/-- R193: a host write of 64 bytes to an exposed range, and an access beside it. -/
theorem test_host : let s := { State.reset with devices := [(0, { Device.reset with hdm := [(0, 128)] })] }
    (next (exec (.hostCxlMemAccess 0 64 1 7) s)).mem = [(64, 7)] ∧
    (match exec (.hostCxlMemAccess 0 128 0 0) s with
      | .fault f => some f
      | _ => none) = some (.unpopulated 128) := by decide +kernel
theorem test_meets_PlatformActs : let h := { State.reset with devices := [(0, { Device.reset with hdm := [(0, 128)], jtag := true, debug := 1 })] }
    let w := { h with tiles := [(0, { Tile.reset with core := { regs [] with run := .waiting .wfe } })] }
    (127 / 64 * 64 + 64 ≤ hbmBytes ∧ coveredBy ((h.device 0).hdm.take 2) 64 64 = true ∧ coveredBy ((h.device 0).hdm.take 2) 128 64 = false ∧
      hbmBytes < hbmBytes / 64 * 64 + 64) ∧
    ((63 : Nat) < 64 ∧ 63 ∉ h.node.filter (· ≠ 0) ∧ 0 ∈ h.node.filter (· ≠ 1) ∧ (∀ r ∈ h.regions, 0 ∉ r.2.tiles)) ∧
    (({ Device.reset with up := false } : Device).up = false ∧ h.debuggable 0 = true ∧ State.reset.debuggable 0 = false ∧
      ({ h with tiles := [(0, { Tile.reset with core := regs [] })] } : State).debuggable 0 = true ∧ (regs []).run = .running ∧
      w.debuggable 0 = true ∧ (w.coreOf 0).run = .waiting .wfe ∧ (∀ n, Wait.wfe ≠ .streamQueue n)) ∧
    ((regs []).held = false ∧ ({ regs [] with held := true } : Core).held = true ∧
      ({ h with tiles := [(0, { Tile.reset with core := { regs [] with held := true } })] } : State).debuggable 0 = true ∧ 0x2FFFF8 + 7 ≤ spLast ∧ spLast < 0x2FFFF9 + 7) :=
  ⟨by decide +kernel, by decide +kernel, ⟨rfl, by decide, by decide, by decide, rfl, by decide, rfl, fun n => by simp⟩, by decide +kernel⟩
/-- Die 0 in each state of a step change, with and without regions, and what the idle states ask for. -/
theorem test_meets_PlatformActs_power : let d (x : StepState) (k : Nat) : Die := { die0 with stepState := x, step := k }
    let s (x : StepState) (k : Nat) : State := { State.reset with dies := [(0, d x k)] }
    let r : State := { lineState (lineRegion default) 0 with dies := [(0, d (.holding 1) 0)] }
    ((s .run 0).stepDies 0 = [0] ∧ (s .run 0).stepping 0 = [0] ∧ (d .run 0).ceiling ≤ 7 ∧ 170 - 4 * 7 < (d .run 0).vfloor ∧ 7 ≠ (d .run 0).step ∧
      (d .run 0).vfloor ≤ 170 - 4 * 6 ∧ (s .run 0).regionsOfDies [0] = []) ∧
    ((s (.holding 1) 0).stepDies 0 = [0] ∧ (s (.holding 1) 0).stepping 0 = [0] ∧ (d (.holding 1) 2).step = 2 ∧ (d (.ramp 1) 1).step = 1 ∧
      (s (.switch 1) 1).stepping 0 = [0] ∧ r.stepping 0 = [0] ∧ r.stepDies 0 = [0] ∧ (∀ q ∈ r.regionsOfDies [0], q.2.phase = .running) ∧
      r.regionsOfDies [0] ≠ []) ∧
    ((s .run 0).dieQuiet 0 = true ∧ 1500 ≤ ({ Die.reset with tolerance := 1500, idleMicros := 5000 } : Die).tolerance ∧ (d .run 0).idle < 1 ∧
      (lineState (lineRegion default) 0).dieQuiet 0 = false ∧ Die.reset.tolerance < 2) := by decide +kernel

/-- Host accesses with and without a port; a number set by message; a core that a debugger holds and has let go. -/
theorem test_meets_PlatformActs_host : let s := State.reset
    let lost : State := { State.reset with dies := [(0, { Die.reset with lost := true })] }
    (s.hostReaches 0 = true ∧ lost.hostReaches 0 = false ∧ s.hostPort 0 = true ∧ lost.hostPort 0 = false) ∧
    (({ Device.reset with nextNumber := some 5 } : Device).nextNumber.getD 63 = 5 ∧ Device.reset.nextNumber.getD 63 = 63 ∧
      (5 : Nat) ∉ s.node.filter (· ≠ 0) ∧ (s.device 0).up = true) ∧ (∀ r ∈ s.regions, 0 ∉ r.2.tiles) := by decide +kernel
/-- A region on both dies, whose steps differ; a die that is not quiet; a counter period that has ended and one that has not. -/
theorem test_meets_PlatformActs_dies : let s : State := { State.reset with
      regions := [(0, { region0 with tiles := [0, 80] })], dies := [(0, { Die.reset with step := 2, idle := 1 }), (1, { Die.reset with step := 4 })] }
    (s.spans 0 = true ∧ (s.die 0).stepState = .run ∧ (s.die 1).stepState = .run ∧ (s.die 0).step ≠ (s.die 1).step ∧
      (s.die 0).vfloor ≤ stepVoltage (max 2 4) ∧ (s.die 1).vfloor ≤ stepVoltage (max 2 4)) ∧
    (s.dieQuiet 0 = false ∧ (s.die 0).idle ≠ 0 ∧ State.reset.dieQuiet 0 = true ∧ State.reset.spans 0 = false) ∧
    (let x : Tenant := { tenant3 with desc := BitVec.ofNat 2048 (2 ^ 856) }
     periodMicros x.desc = 1000 ∧ x.periodAge < periodMicros x.desc ∧ periodMicros x.desc ≤ ({ x with periodAge := 1000 } : Tenant).periodAge) := by
  decide +kernel
/-- A waiting core on a disabled tile, and one that a debugger holds. -/
theorem test_meets_PlatformActs_stands : let c : Core := { regs [] with run := .waiting .wfe, wake := 0xFFFF, events := [0] }
    let s := { onCore c with dies := [(0, { Die.reset with disabled := [0] })] }
    s.tileStops 0 = true ∧ s.coreStands 0 = true ∧ (onCore { c with held := true }).coreStands 0 = true ∧
    (c.woken, (onCore c).coreStands 0) = (true, false) ∧
    (after (exec (.wfeWake 0) s)).run = .waiting .wfe ∧ (after (exec (.wfeWake 0) (onCore c))).run = .running := by decide +kernel
/-- The machine with one turn, and a core on tile 0 that sees words at its pc of 0. -/
def turnState (t : Turn) (v : Memory) (c : Core) : State :=
  { onCore { c with view := { pb := [], sv := v } } with sched := [t] }
/-- R25: the word of `add g3 := g1, g2` is fetched and run. -/
def addWord : Memory := [(spBase 0, 0x40), (spBase 0 + 1, 0x8C), (spBase 0 + 2, 0x20)]
theorem test_step : let c := after (step (turnState (.core 0) addWord (regs [(1, 5), (2, 6)])))
    (c.reg 3, c.pc) = (11, 4) := by decide +kernel
theorem test_meets_StepRuns : let u := { turnState (.core 0) addWord (regs []) with sched := [] }
    let b := { turnState (.core 0) [(spBase 0, 0x30)] (regs []) with sched := [] }
    let i := turnState (.core 0) [] { regs [] with imprecise := [(0x20, 7)] }
    Turns (turnState (.core 0) addWord (regs [])) (.core 0) u ∧ CoreTurn u 0 ∧ u.fetch 0 = .words 0x00208C40 0 0 0 ∧
    (∃ j, decodeScalar 0x00208C40 0 0 0 = .ok j) ∧ b.fetch 0 = .words 0x30 0 0 0 ∧ (∃ e, decodeScalar 0x30 0 0 0 = .error e) ∧
    (turnState (.core 0) [] { regs [] with pc := 2 }).fetch 0 = .fails 5 2 ∧
    ((i.coreOf 0).imprecise = (0x20, 7) :: [] ∧ CoreTurn (i.setCore 0 { i.coreOf 0 with imprecise := [] }) 0) ∧ State.reset.sched = [] :=
  ⟨⟨[], rfl, rfl⟩, by decide +kernel, by decide +kernel, ⟨_, rfl⟩, by decide +kernel, ⟨_, rfl⟩, by decide +kernel, by decide +kernel, rfl⟩
theorem test_meets_StepRuns_units : let u := addOf []
    let l := layoutState 0 (packLayout 2 { imm16 := 3, y := 0, x := 0 })
    let o := opState 3 [] []
    (u.regionOf 0 = some (0, region0) ∧ region0.acts = true ∧ (u.tile 0).parity.contains 0 = false ∧ u.mayRun (deviceOf 0) region0.fn = true ∧
      u.dieStopped (dieOf 0) = false ∧ (unpackEl ((u.tile 0).slot 0)).enable = true) ∧
    (o.regionOf 0 = some (0, region0) ∧ (unpackRouter (((o.tile 0).slot 328).setWidth 64)).enable = true) ∧
    (l.layoutRun 8 = some (layoutL 0 (packLayout 2 { imm16 := 3, y := 0, x := 0 })) ∧ (l.age (layoutAge (8 / 16) (8 % 16 - 8))).stopped = none ∧
      l.mayRun (8 / 32) 16 = true ∧ l.dieStopped (8 / 16) = false ∧ (layoutL 0 (packLayout 2 { imm16 := 3, y := 0, x := 0 })).prog[0]? = some 0x00030002) := by
  decide +kernel
/-- Turns by which time passes, and a device whose one tenant lets all of it pass. -/
theorem test_meets_StepRuns_time : let s := { turnState (.micros 0 1) [] (regs []) with devices := [(0, { Device.reset with tenants := [(3, tenant3)] })] }
    Turns s (.micros 0 1) { s with sched := [] } ∧ (∀ x ∈ (s.device 0).tenants, x.1 = 16 ∨ x.2.mayPass 1 = 1) ∧
    Turns (turnState (.cycles 0 9) [] (regs [])) (.cycles 0 9) { turnState (.cycles 0 9) [] (regs []) with sched := [] } ∧
    s.dieStopped 0 = false ∧ s.disabled 0 = false ∧ (fnOf (s.coreOf 0).fn = 16 → s.tenantOn 0 = false) :=
  ⟨⟨[], rfl, rfl⟩, by decide +kernel, ⟨[], rfl, rfl⟩, by decide +kernel, by decide +kernel, by decide +kernel⟩
/-- R156: of 9 fc, 5 pass before the limit of an `fget` that has waited since 0 for 5 at most. -/
theorem test_meets_StepRuns_limit : let s := turnState (.cycles 0 9) [] { regs [] with run := .waiting (.fget 0 1 (some 5) 0 []) }
    Waits s 0 (.fget 0 1 (some 5) 0 []) ∧ dieOf 0 = 0 ∧ (s.die 0).cycle + 5 ≤ 0 + 5 ∧ ((next (step s)).die 0).cycle = 5 := by decide +kernel
theorem test_meets_StepRuns_words : (∃ i, decodeEl (packEl 0x00 (elReads 0 0)) = .ok i) ∧
    (∃ i, decodeRouter (((packRouter 3 { opWord with inB := 63, ctl := 63 }).setWidth 128).setWidth 64) = .ok i) ∧
    (∃ i, decodeLayout 0x00030002 = .ok i) := ⟨⟨_, rfl⟩, ⟨_, rfl⟩, ⟨_, rfl⟩⟩
/-- Pcs at the ends of the scratchpad, a word of two words at its last place, and words that fail each step of R31 and R36. -/
theorem test_meets_FetchAndDecode : let s (pc : BitVec 48) := turnState (.core 0) [(spBase 0 + 0x2FFFFC, 1)] { regs [] with pc := pc }
    let seen (pc : Nat) : Word := BitVec.ofNat 32 ((s 0x2FFFFC).viewNum ((s 0x2FFFFC).coreOf 0).view (spBase 0 + pc) 4)
    (0x2FFFFE % 4 ≠ 0 ∧ 0x300000 % 4 = 0 ∧ 0x2FFFF8 + 4 * wordCount (seen 0x2FFFF8) ≤ 0x300000 ∧
      0x300000 < 0x2FFFFC + 4 * wordCount (seen 0x2FFFFC)) ∧
    (opAllocated 0x0C = false ∧ subAllocated 0x40 7 = false ∧ opAllocated 0x40 = true ∧ fieldsOkA 0x27 (unpackA 0x0010009C) = false ∧
      (0x00100041 : Word).toNat / 2 ^ 20 % 32 ≠ 0 ∧ fieldsOkB 0x10 (unpackB 0x41 0x10000) = false ∧ fieldsOkC 0x10 (unpackC 0x42 1 0) = false) ∧
    (0x16 ≤ (0x5B : Word).toNat / 4 % 64 ∧ streamFieldsOk 0x0A (unpackStream 0x22B 0 0 0) = false ∧ streamFieldsOk 0x00 (unpackStream 0x02000003 0 0 0) = true ∧
      streamRangeOk 0x00 (unpackStream (0x40 * 2 ^ 16 + 3) 0 0 0) = false) := by decide +kernel
theorem test_meets_ScalarEncoding : (Instr.cmpA { fA with sub := 2, b := 3, a := 1, d := 2 }).wf = true ∧
    encode (.cmpA { fA with sub := 2, b := 3, a := 1, d := 2 }) = some [0x403088C0] ∧
    (Instr.orC { fC with d := 1, lit32 := 0x9ABCDEF0 }).wf = true ∧ encode (.orC { fC with d := 1, lit32 := 0x9ABCDEF0 }) = some [0x44E, 0, 0x9ABCDEF0] ∧
    (Instr.stB { fB with sub := 2, gn := true, guard := 1, a := 4, d := 5, imm16 := 8 }).wf = true ∧
    encode (.stB { fB with sub := 2, gn := true, guard := 1, a := 4, d := 5, imm16 := 8 }) = some [0x52021505, 8] := by decide +kernel
/-- Constructors of each list. -/
theorem test_meets_ScalarEncoding_lists : (∃ i ∈ scalarA, i fA = .cmpA fA) ∧ (∃ i ∈ scalarB, i fB = .stB fB) ∧ (∃ i ∈ scalarC, i fC = .orC fC) :=
  ⟨⟨.cmpA, by simp [scalarA], rfl⟩, ⟨.stB, by simp [scalarB], rfl⟩, ⟨.orC, by simp [scalarC], rfl⟩⟩
theorem test_meets_WordEncodings : StreamWord.wf .sport { noFields with a := 63 } = true ∧
    encodeStream .sport { noFields with a := 63 } = some [0x003F0003, 0, 0, 0] ∧ ElWord.wf .elFadd { elFields with in0 := 375 } = true ∧
    (encodeEl .elFadd { elFields with in0 := 375 }).isSome = true ∧
    RouterWord.wf .fork { out1 := 1, out0 := 2, ctl := 63, inB := 63, inA := 3, station := 0, enable := true } = true ∧
    (encodeRouter .fork { out1 := 1, out0 := 2, ctl := 63, inB := 63, inA := 3, station := 0, enable := true }).isSome = true ∧
    LayoutWord.wf .layoutNext { imm16 := 63, y := 0, x := 0 } = true ∧
    encodeLayout .layoutNext { imm16 := 63, y := 0, x := 0 } = some 0x003F0002 := by decide +kernel
/-- An instruction that is no access of the host or of a debugger. -/
theorem test_meets_EveryStepGoesOn : (∀ d a w v, Instr.nop ≠ .hostCxlMemAccess d a w v) ∧ ∀ t k n w v, Instr.nop ≠ .debuggerAccess t k n w v :=
  ⟨fun _ _ _ _ => by simp, fun _ _ _ _ _ => by simp⟩
/-- Accesses of the host and of a debugger in range and beyond it. -/
theorem test_meets_EveryStepGoesOn_ranges : let s := { State.reset with devices := [(0, { Device.reset with hdm := [(0, 128)] })] }
    (64 + 64 ≤ hbmBytes ∧ coveredBy ((s.device 0).hdm.take 2) 64 64 = true ∧ s.hostReaches 0 = true ∧
      coveredBy ((s.device 0).hdm.take 2) 128 64 = false) ∧
    ((onCore { regs [] with held := true }).coreOf 0).held = true ∧ ((onCore (regs [])).coreOf 0).held = false ∧ spLast < spLast - 6 + 7 := by
  decide +kernel
/-- A machine of the form, with a byte in M and in a snapshot, and a step of it. -/
theorem test_meets_ResetState : MemoryFormed (turnState (.core 0) addWord (regs [])) ∧ MemoryFormed State.reset ∧
    ∃ t, step (turnState (.core 0) addWord (regs [])) = .next t := ⟨by decide +kernel, by decide, ⟨_, rfl⟩⟩

end Sys2Proof.Tests
end

/-! Proofs about the platform: the host's accesses, bring-up, management and debugging, power steps, idle states, counter
periods, and cores that stand (R3, R86, R347, R395, R399 to R409). -/

namespace Sys2Proof.Machine

/-! ### Which numbers the node holds, and what clears a device -/

/-- A change of a die leaves every device as it was. -/
@[simp] theorem State.device_setDie (s : State) (g dev : Nat) (x : Die) : (s.setDie g x).device dev = s.device dev := rfl

theorem State.releaseRegion_node (s : State) (l : Nat) : (s.releaseRegion l).node = s.node := by
  unfold State.releaseRegion
  split
  · rfl
  · exact List.foldlRecOn (motive := fun (t : State) => t.node = s.node) _ _ rfl fun _ h _ _ => h

theorem State.endRegionsOn_node (s : State) (tiles : List Nat) : (s.endRegionsOn tiles).node = s.node :=
  List.foldlRecOn (motive := fun (t : State) => t.node = s.node) _ _ rfl fun t h r _ => (t.releaseRegion_node r.1).trans h

theorem State.endLoading_node (s : State) (c : Cmd) : (s.endLoading c).node = s.node := by
  unfold State.endLoading
  split
  case h_1 => split <;> rfl
  all_goals rfl

theorem State.dropCmds_node (s : State) (p : Nat → Cmd → Bool) : (s.dropCmds p).node = s.node := by
  refine List.foldlRecOn (motive := fun (t : State) => t.node = s.node) s.cmds _ rfl fun t h c _ => ?_
  split
  · exact (t.endLoading_node c.2).trans h
  · exact h

/-- Clearing a device leaves the numbers of the node, its own among them. -/
theorem State.clearDevice_node (s : State) (dev : Nat) : (s.clearDevice dev).node = s.node :=
  (State.dropCmds_node _ fun _ c => deviceOf c.tile = dev).trans (s.endRegionsOn_node (deviceTiles dev))

/-! ### A device that has come up under a number (R399) -/

/-- The node holds the number, and the device under it has the number and the address of its tenant table. -/
def State.upUnder (s : State) (number base : Nat) : Prop :=
  number ∈ s.node ∧ (s.device number).number = number ∧ (s.device number).table = base

/-- What keeps the node and its devices keeps a device under its number. -/
theorem State.upUnder_of_eq {s t : State} {number base : Nat} (node : t.node = s.node) (devices : t.devices = s.devices)
    (h : s.upUnder number base) : t.upUnder number base := by
  simpa only [State.upUnder, State.device, node, devices] using h

theorem State.setDie_upUnder {s : State} {number base g : Nat} {x : Die} (h : s.upUnder number base) :
    (s.setDie g x).upUnder number base := State.upUnder_of_eq rfl rfl h

/-- A device that is given its number and its table stands under the number. -/
theorem State.upUnder_setDevice {s : State} {number base : Nat} {x : Device} (node : number ∈ s.node) (hn : x.number = number)
    (ht : x.table = base) : (s.setDevice number x).upUnder number base := by
  simp [State.upUnder, node, hn, ht]

theorem State.measureBoot_upUnder {s : State} {number base : Nat} (h : s.upUnder number base) :
    (s.measureBoot number).upUnder number base :=
  let ⟨node, hn, ht⟩ := h
  State.upUnder_setDevice node hn ht

theorem State.exposeRanges_upUnder {s : State} {number base : Nat} (h : s.upUnder number base) :
    (s.exposeRanges number).upUnder number base :=
  let ⟨node, hn, ht⟩ := h
  State.upUnder_setDevice node hn ht

/-- Training a port changes links and the counters of dies, no device and no number of the node (R365). -/
theorem State.trainPort_node_devices (s : State) (port : Nat) :
    (s.trainPort port).node = s.node ∧ (s.trainPort port).devices = s.devices := by
  unfold State.trainPort
  split
  · exact ⟨rfl, rfl⟩
  · split <;> exact ⟨rfl, rfl⟩

theorem State.trainPort_upUnder {s : State} {number base : Nat} (port : Nat) (h : s.upUnder number base) :
    (s.trainPort port).upUnder number base :=
  let ⟨node, devices⟩ := s.trainPort_node_devices port
  State.upUnder_of_eq node devices h

/-! ### Bring-up and tile reset (R86, R399) -/

/-- A device that finds its number free comes up under it, with its tenant table at the address given. -/
theorem exec_powerOnReset_free {s : State} {dev strap : Nat} (base : Nat) (small : (s.device dev).nextNumber.getD strap < 64)
    (free : (s.device dev).nextNumber.getD strap ∉ s.node.filter (· ≠ dev)) :
    ∃ t, exec (.powerOnReset dev strap base) s = .next t ∧ t.upUnder ((s.device dev).nextNumber.getD strap) base := by
  show ∃ t, execPowerOnReset dev strap base s = .next t ∧ _
  have refuse : ¬(decide ((s.device dev).nextNumber.getD strap ≥ 64) ||
      ((s.clearDevice dev).node.filter (· ≠ dev)).contains ((s.device dev).nextNumber.getD strap)) = true := by
    simpa [State.clearDevice_node, small] using free
  rw [execPowerOnReset, if_neg refuse]
  refine ⟨_, rfl, ?_⟩
  generalize (s.device dev).nextNumber.getD strap = number
  refine List.foldlRecOn (motive := fun (t : State) => t.upUnder number base) (List.range 16)
    (fun (t : State) p => t.trainPort (16 * number + p)) ?_ fun t h p _ => State.trainPort_upUnder _ h
  refine State.exposeRanges_upUnder (State.measureBoot_upUnder ?_)
  refine List.foldlRecOn (motive := fun (t : State) => t.upUnder number base) (deviceTiles number)
    (fun (t : State) tile => t.resetTile tile 0) ?_ fun t h tile _ => State.upUnder_of_eq rfl rfl h
  refine State.setDie_upUnder (State.setDie_upUnder (State.upUnder_setDevice ?_ rfl rfl))
  simp

/-- A device whose number is taken or too large stays in reset, in no node, with the clocks of both dies stopped. -/
theorem exec_powerOnReset_taken {s : State} {dev strap : Nat} (base : Nat)
    (h : 64 ≤ (s.device dev).nextNumber.getD strap ∨ (s.device dev).nextNumber.getD strap ∈ s.node.filter (· ≠ dev)) :
    ∃ t, exec (.powerOnReset dev strap base) s = .next t ∧
      dev ∉ t.node ∧ (t.device dev).up = false ∧ (t.die (2 * dev)).stopped = true ∧ (t.die (2 * dev + 1)).stopped = true := by
  show ∃ t, execPowerOnReset dev strap base s = .next t ∧ _
  rw [execPowerOnReset, if_pos (by simpa [State.clearDevice_node] using h)]
  refine ⟨_, rfl, by simp, by simp, ?_, by simp [bootDie]⟩
  rw [State.die_setDie_ne _ _ _ _ (by omega)]
  simp [bootDie]

theorem State.coreOf_resetTile (s : State) (t fn : Nat) :
    (s.resetTile t fn).coreOf t = { Core.reset with fn := fnBits fn, view := { pb := [], sv := s.mem } } := by
  simp [State.resetTile, State.coreOf]

/-- Tiles that no region holds have no region to end. -/
theorem State.endRegionsOn_free {s : State} {tiles : List Nat} (h : ∀ r ∈ s.regions, ∀ t ∈ tiles, t ∉ r.2.tiles) :
    s.endRegionsOn tiles = s := by
  have none : s.regionsOn tiles = [] := by
    simp only [State.regionsOn, List.filter_eq_nil_iff, List.any_eq_true, List.contains_iff_mem, not_exists, not_and]
    exact fun r hr t ht hm => h r hr t hm ht
  simp [State.endRegionsOn, none]

theorem exec_tileReset_free {s : State} {t : Nat} (h : ∀ r ∈ s.regions, t ∉ r.2.tiles) :
    let u := (s.dropCmds fun _ c => c.tile = t).dropReports fun r => r.tile = t
    exec (.tileReset t) s = .next (u.resetTile t (fnOf (u.coreOf t).fn)) := by
  show execTileReset t s = _
  rw [execTileReset, State.endRegionsOn_free (by simpa using h)]

/-! ### Host accesses (R395) -/

theorem exec_hostCxlMemAccess_exposed {s : State} {dev addr : Nat} (write v : Nat) (size : addr / 64 * 64 + 64 ≤ hbmBytes)
    (exposed : coveredBy ((s.device dev).hdm.take 2) (addr / 64 * 64) 64 = true) (reach : s.hostReaches dev = true) :
    exec (.hostCxlMemAccess dev addr write v) s = .next (if write = 0 then s.wakeDevice dev
      else (s.wakeDevice dev).writeM (dev * 2 ^ 50 + addr / 64 * 64) (toBytes v 64)) := by
  show execHostCxlMemAccess dev addr write v s = _
  rw [execHostCxlMemAccess, if_pos (by simp [size, exposed, reach])]

theorem exec_hostCxlMemAccess_elsewhere {s : State} {dev addr : Nat} (write v : Nat)
    (h : hbmBytes < addr / 64 * 64 + 64 ∨ coveredBy ((s.device dev).hdm.take 2) (addr / 64 * 64) 64 = false ∨ s.hostReaches dev = false) :
    exec (.hostCxlMemAccess dev addr write v) s = .fault (.unpopulated addr) := by
  show execHostCxlMemAccess dev addr write v s = _
  rw [execHostCxlMemAccess, if_neg ?_]
  rcases h with size | hidden | cut
  · simp [Nat.not_le.2 size]
  · simp [hidden]
  · simp [cut]

/-! ### Management (R400, R408, R409) -/

/-- A request that fails is logged as a level 1 alarm (R402). -/
theorem exec_spdmRequest_fails {s : State} {dev : Nat} (port : s.hostPort dev = true) : exec (.spdmRequest dev 0) s =
    .next (s.setDevice dev { s.device dev with errorLog := (s.device dev).errorLog ++ [1] }) := by
  show execSpdmRequest dev 0 s = _
  simp [execSpdmRequest, port]

theorem exec_spdmRequest_still {s : State} {dev v : Nat} (h : v ≠ 0 ∨ s.hostPort dev = false) :
    exec (.spdmRequest dev v) s = .next s := by
  show execSpdmRequest dev v s = _
  rcases h with ne | cut
  · simp [execSpdmRequest, ne]
  · simp [execSpdmRequest, cut]

theorem exec_managementMessage_number {s : State} {dev : Nat} (v : Nat) (port : s.hostPort dev = true)
    (down : (s.device dev).up = false) : exec (.managementMessage dev 3 v) s =
      .next (s.setDevice dev { s.device dev with nextNumber := some (v % 64) }) := by
  show execManagementMessage dev 3 v s = _
  simp [execManagementMessage, port, down]

theorem exec_managementMessage_still {s : State} {dev k : Nat} (v : Nat)
    (h : (k ≠ 3 ∨ (s.device dev).up = true) ∨ s.hostPort dev = false) : exec (.managementMessage dev k v) s = .next s := by
  show execManagementMessage dev k v s = _
  rcases h with (ne | up) | cut
  · simp [execManagementMessage, ne]
  · simp [execManagementMessage, up]
  · simp [execManagementMessage, cut]

theorem exec_jtagOpen_reached {s : State} {dev : Nat} (v : Nat) (port : s.hostPort dev = true) : exec (.jtagOpen dev v) s =
    .next (s.setDevice dev { s.device dev with measured := mapSet (s.device dev).measured 4 v, debug := v, jtag := true }) := by
  show execJtagOpen dev v s = _
  simp [execJtagOpen, port]

theorem exec_jtagOpen_cut {s : State} {dev : Nat} (v : Nat) (cut : s.hostPort dev = false) :
    exec (.jtagOpen dev v) s = .next s := by
  show execJtagOpen dev v s = _
  simp [execJtagOpen, cut]

/-! ### Debugging (R409) -/

theorem exec_debugHold_closed {s : State} {t : Nat} (h : s.debuggable t = false) : exec (.debugHold t) s = .next s := by
  show execDebugHold t s = _
  simp [execDebugHold, h]

/-- A core that waits in no stream command's place is held where it stands, its instruction to run again. -/
theorem exec_debugHold_open {s : State} {t : Nat} (h : s.debuggable t = true)
    (still : ∀ n, (s.coreOf t).run ≠ .waiting (.streamQueue n)) :
    exec (.debugHold t) s =
      .next (s.setCore t { s.coreOf t with run := (s.coreOf t).run.saved, held := true, attached := true }) := by
  show execDebugHold t s = _
  rw [execDebugHold, if_pos h]
  split
  case h_1 n hn => exact absurd hn (still n)
  case h_2 => rfl

/-- A core that runs is held as it is: there is no instruction to stop. -/
theorem exec_debugHold_running {s : State} {t : Nat} (h : s.debuggable t = true) (run : (s.coreOf t).run = .running) :
    exec (.debugHold t) s = .next (s.setCore t { s.coreOf t with held := true, attached := true }) := by
  have saved : (s.coreOf t).run.saved = (s.coreOf t).run := by rw [run]; rfl
  rw [exec_debugHold_open h (by simp [run]), saved]

theorem exec_debuggerRelease_held {s : State} {t : Nat} (h : (s.coreOf t).held = true) :
    exec (.debuggerRelease t) s = .next (s.setCore t { s.coreOf t with held := false }) := by
  show execDebuggerRelease t s = _
  simp [execDebuggerRelease, h]

theorem exec_debuggerRelease_free {s : State} {t : Nat} (h : (s.coreOf t).held = false) :
    exec (.debuggerRelease t) s = .next (s.setCore t { s.coreOf t with attached := false }) := by
  show execDebuggerRelease t s = _
  simp [execDebuggerRelease, h]

theorem exec_debuggerAccess_closed {s : State} {t : Nat} (h : (s.coreOf t).held = false ∨ s.debuggable t = false) (what i w v : Nat) :
    exec (.debuggerAccess t what i w v) s = .next s := by
  show execDebuggerAccess t what i w v s = _
  rw [execDebuggerAccess, if_pos (by simpa using h)]

theorem Core.debugWrite_general {i : Nat} (c : Core) (v : Dword) (h : i < 32) : c.debugWrite i v = c.setReg (BitVec.ofNat 5 i) v := by
  simp [Core.debugWrite, h]

theorem Core.debugWrite_pc (c : Core) (v : Dword) : c.debugWrite 32 v = { c with pc := v.setWidth 48 } := by
  simp [Core.debugWrite]

section
variable {s : State} {t : Nat} (held : (s.coreOf t).held = true) (may : s.debuggable t = true)
include held may

theorem exec_debuggerAccess_readRegister (i v : Nat) : exec (.debuggerAccess t 0 i 0 v) s = .next s := by
  show execDebuggerAccess t 0 i 0 v s = _
  simp [execDebuggerAccess, held, may]

theorem exec_debuggerAccess_writeRegister (i v : Nat) :
    exec (.debuggerAccess t 0 i 1 v) s = .next (s.setCore t ((s.coreOf t).debugWrite i (BitVec.ofNat 64 v))) := by
  show execDebuggerAccess t 0 i 1 v s = _
  simp [execDebuggerAccess, held, may]

theorem exec_debuggerAccess_writeGeneral {i : Nat} (v : Nat) (h : i < 32) : exec (.debuggerAccess t 0 i 1 v) s =
    .next (s.setCore t ((s.coreOf t).setReg (BitVec.ofNat 5 i) (BitVec.ofNat 64 v))) := by
  rw [exec_debuggerAccess_writeRegister held may, Core.debugWrite_general _ _ h]

theorem exec_debuggerAccess_writePc (v : Nat) :
    exec (.debuggerAccess t 0 32 1 v) s = .next (s.setCore t { s.coreOf t with pc := BitVec.ofNat 48 v }) := by
  rw [exec_debuggerAccess_writeRegister held may, Core.debugWrite_pc, BitVec.setWidth_ofNat_of_le (by decide)]

theorem exec_debuggerAccess_beyond {i : Nat} (w v : Nat) (h : spLast < i + 7) :
    exec (.debuggerAccess t 1 i w v) s = .fault (.unpopulated i) := by
  show execDebuggerAccess t 1 i w v s = _
  simp [execDebuggerAccess, held, may, h]

theorem exec_debuggerAccess_read {i : Nat} (v : Nat) (h : i + 7 ≤ spLast) : exec (.debuggerAccess t 1 i 0 v) s = .next s := by
  show execDebuggerAccess t 1 i 0 v s = _
  simp [execDebuggerAccess, held, may, Nat.not_lt.2 h]

/-- A write puts its bytes into M behind what the core's own stores to them drain. -/
theorem exec_debuggerAccess_write {i : Nat} (v : Nat) (h : i + 7 ≤ spLast) :
    let drained := (drainView s (coreAgent t) (s.coreOf t).view fun a => inRange (spBase t + i) 8 a).1
    ∃ u, exec (.debuggerAccess t 1 i 1 v) s = .next u ∧ u.mem = (drained.writeM (spBase t + i) (toBytes v 8)).mem := by
  show ∃ u, execDebuggerAccess t 1 i 1 v s = .next u ∧ _
  rw [execDebuggerAccess, if_neg (by simp [held, may]), if_neg (by decide), if_neg (Nat.not_lt.2 h), if_neg (by decide)]
  exact ⟨_, rfl, State.setCore_mem _ _ _⟩

end

/-! ### Power steps (R403, R404) -/

@[simp] theorem State.mapDies_singleton (s : State) (g : Nat) (f : Die → Die) : s.mapDies [g] f = s.setDie g (f (s.die g)) := rfl

/-- Dies without a live region are held for a step at once. -/
theorem State.beginStep_none {s : State} {gs : List Nat} (h : s.regionsOfDies gs = []) (target : Nat) :
    s.beginStep gs target = s.mapDies gs fun d => { d with stepState := .holding target } := by
  simp [State.beginStep, h]

/-- Dies that no region spans are not brought together. -/
theorem State.equalise_apart {s : State} {dev : Nat} (h : s.spans dev = false) : s.equalise dev = s := by
  unfold State.equalise
  split
  · simp [h]
  · rfl

/-! The two dies of a device, each changed as it stands. -/

theorem State.die_mapDies_first (s : State) (dev : Nat) (f : Die → Die) :
    (s.mapDies (diesOf dev) f).die (2 * dev) = f (s.die (2 * dev)) := by
  show ((s.setDie (2 * dev) _).setDie (2 * dev + 1) _).die (2 * dev) = _
  rw [State.die_setDie_ne _ _ _ _ (by omega), State.die_setDie_same]

theorem State.die_mapDies_second (s : State) (dev : Nat) (f : Die → Die) :
    (s.mapDies (diesOf dev) f).die (2 * dev + 1) = f (s.die (2 * dev + 1)) := by
  show ((s.setDie (2 * dev) _).setDie (2 * dev + 1) _).die (2 * dev + 1) = _
  rw [State.die_setDie_same, State.die_setDie_ne _ _ _ _ (by omega)]

/-- A step that both dies begin holds each of them for it. -/
theorem State.beginStep_stepState (s : State) (dev target : Nat) :
    ((s.beginStep (diesOf dev) target).die (2 * dev)).stepState = .holding target ∧
    ((s.beginStep (diesOf dev) target).die (2 * dev + 1)).stepState = .holding target := by
  rw [State.beginStep, State.die_mapDies_first, State.die_mapDies_second]
  exact ⟨rfl, rfl⟩

/-- The largest number of a range is found first from its end, where it fits. -/
theorem find?_reverse_range_last {n : Nat} {p : Nat → Bool} (h : p n = true) : (List.range (n + 1)).reverse.find? p = some n := by
  simp [List.range_succ, h]

/-- Dies that a region spans, and that stand at different steps, are held for the larger one where both floors allow it. -/
theorem State.equalise_spanned {s : State} {dev a b : Nat} (spans : s.spans dev = true) (run₀ : (s.die (2 * dev)).stepState = .run)
    (run₁ : (s.die (2 * dev + 1)).stepState = .run) (step₀ : (s.die (2 * dev)).step = a) (step₁ : (s.die (2 * dev + 1)).step = b)
    (ne : a ≠ b) (fits₀ : (s.die (2 * dev)).vfloor ≤ stepVoltage (max a b))
    (fits₁ : (s.die (2 * dev + 1)).vfloor ≤ stepVoltage (max a b)) :
    ((s.equalise dev).die (2 * dev)).stepState = .holding (max a b) ∧
    ((s.equalise dev).die (2 * dev + 1)).stepState = .holding (max a b) := by
  have found : (List.range (max a b + 1)).reverse.find? (fun n => (diesOf dev).all fun g => (s.die g).vfloor ≤ stepVoltage n) =
      some (max a b) := find?_reverse_range_last (by simp [diesOf, fits₀, fits₁])
  have heading₀ : (s.die (2 * dev)).heading = some a := by simp [Die.heading, run₀, step₀]
  have heading₁ : (s.die (2 * dev + 1)).heading = some b := by simp [Die.heading, run₁, step₁]
  simp only [State.equalise, heading₀, heading₁, spans, step₀, step₁, ne, decide_false, Bool.and_false, Bool.not_true, Bool.or_self,
    Bool.false_eq_true, if_false, found, Option.getD_some, if_true, State.die_mapDies_first, State.die_mapDies_second]
  exact s.beginStep_stepState dev (max a b)

section
variable {s : State} {g : Nat}

theorem exec_stepChangeRequest_below_floor {target : Nat} (alone : s.stepDies g = [g]) (run : (s.die g).stepState = .run)
    (le : target ≤ 10) (ceiling : (s.die g).ceiling ≤ target) (ne : target ≠ (s.die g).step)
    (floor : stepVoltage target < (s.die g).vfloor) :
    exec (.stepChangeRequest g target) s = .next (s.setDie g { s.die g with denied := true, throttled := true }) := by
  show execStepChangeRequest g target s = _
  simp [execStepChangeRequest, alone, run, Nat.not_lt.2 le, Nat.not_lt.2 ceiling, Ne.symm ne, floor]

theorem exec_stepChangeRequest_allowed {target : Nat} (alone : s.stepDies g = [g]) (run : (s.die g).stepState = .run)
    (le : target ≤ 10) (ceiling : (s.die g).ceiling ≤ target) (ne : target ≠ (s.die g).step)
    (floor : (s.die g).vfloor ≤ stepVoltage target) (none : s.regionsOfDies [g] = []) :
    exec (.stepChangeRequest g target) s = .next (s.setDie g { s.die g with stepState := .holding target }) := by
  show execStepChangeRequest g target s = _
  simp [execStepChangeRequest, alone, run, Nat.not_lt.2 le, Nat.not_lt.2 ceiling, Ne.symm ne, Nat.not_lt.2 floor,
    State.beginStep_none none]

theorem exec_stepChangeRequest_ignored {target : Nat} (alone : s.stepDies g = [g])
    (h : 10 < target ∨ target < (s.die g).ceiling ∨ (s.die g).stepState ≠ .run ∨ target = (s.die g).step) :
    exec (.stepChangeRequest g target) s = .next s := by
  show execStepChangeRequest g target s = _
  rw [execStepChangeRequest, alone, if_pos ?_]
  rcases h with fast | ceiling | busy | same
  · simp [fast]
  · simp [ceiling]
  · simp [busy]
  · simp [same]

section
variable {target : Nat} (alone : s.stepping g = [g]) (holding : (s.die g).stepState = .holding target)
include alone holding

/-- Once every region of the die is held, the first of the two changes is made. -/
theorem exec_stepHoldsDone_held (held : ∀ r ∈ s.regionsOfDies [g], r.2.phase = .held ∨ r.2.phase = .waiting) :
    exec (.stepHoldsDone g) s = .next (s.setDie g ((s.die g).firstChange target)) := by
  show execStepHoldsDone g s = _
  simp only [execStepHoldsDone, holding, alone]
  rw [if_pos (by simpa using held), State.mapDies_singleton]

theorem exec_stepHoldsDone_faster (held : ∀ r ∈ s.regionsOfDies [g], r.2.phase = .held ∨ r.2.phase = .waiting)
    (faster : target < (s.die g).step) : exec (.stepHoldsDone g) s =
      .next (s.setDie g { s.die g with vnow := stepVoltage target, stepState := .ramp target }) := by
  rw [exec_stepHoldsDone_held alone holding held, Die.firstChange, if_pos faster]

theorem exec_stepHoldsDone_slower (held : ∀ r ∈ s.regionsOfDies [g], r.2.phase = .held ∨ r.2.phase = .waiting)
    (slower : (s.die g).step ≤ target) : exec (.stepHoldsDone g) s =
      .next (s.setDie g { s.die g with step := target, stepState := .ramp target }) := by
  rw [exec_stepHoldsDone_held alone holding held, Die.firstChange, if_neg (Nat.not_lt.2 slower)]

theorem exec_stepHoldsDone_running {r : Nat × Region} (mem : r ∈ s.regionsOfDies [g]) (running : r.2.phase = .running) :
    exec (.stepHoldsDone g) s = .next s := by
  show execStepHoldsDone g s = _
  simp only [execStepHoldsDone, holding, alone]
  refine if_neg fun all => ?_
  have := List.all_eq_true.1 all r mem
  simp [running] at this

end

theorem exec_stepRampDone_ramp {target : Nat} (alone : s.stepping g = [g]) (ramp : (s.die g).stepState = .ramp target) :
    exec (.stepRampDone g) s = .next (s.setDie g ((s.die g).secondChange target)) := by
  show execStepRampDone g s = _
  simp [execStepRampDone, ramp, alone]

theorem exec_stepRampDone_switched {target : Nat} (alone : s.stepping g = [g]) (ramp : (s.die g).stepState = .ramp target)
    (switched : (s.die g).step = target) : exec (.stepRampDone g) s =
      .next (s.setDie g { s.die g with vnow := stepVoltage target, stepState := .switch target }) := by
  rw [exec_stepRampDone_ramp alone ramp, Die.secondChange, if_pos switched]

theorem exec_stepRampDone_raised {target : Nat} (alone : s.stepping g = [g]) (ramp : (s.die g).stepState = .ramp target)
    (raised : (s.die g).step ≠ target) : exec (.stepRampDone g) s =
      .next (s.setDie g { s.die g with step := target, stepState := .switch target }) := by
  rw [exec_stepRampDone_ramp alone ramp, Die.secondChange, if_neg raised]

theorem exec_stepSwitchDone_switch {target : Nat} (alone : s.stepping g = [g]) (apart : s.spans (g / 2) = false)
    (switch : (s.die g).stepState = .switch target) (none : s.regionsOfDies [g] = []) :
    exec (.stepSwitchDone g) s = .next (s.setDie g { s.die g with stepState := .run, denied := false, throttled := false }) := by
  have apart' (x : Die) : (s.setDie g x).spans (g / 2) = false := apart
  have none' (x : Die) : (s.setDie g x).regionsOfDies [g] = [] := none
  show execStepSwitchDone g s = _
  simp [execStepSwitchDone, switch, alone, State.equalise_apart (apart' _), none']

end

/-! ### Idle states (R406) -/

/-- The deepest idle state that the tolerance and the quiet time of a die allow. -/
theorem Die.deepest_eq (d : Die) : d.deepest =
    if 1500 ≤ d.tolerance ∧ 5000 ≤ d.idleMicros then 3
    else if 60 ≤ d.tolerance ∧ 200 ≤ d.idleMicros then 2
    else if 2 ≤ d.tolerance ∧ 10 ≤ d.idleMicros then 1 else 0 := by
  unfold Die.deepest
  split_ifs with h₃ h₂ h₁
  · rw [List.find?_cons_of_pos (by simpa [idleLatency, idleAfter] using h₃)]; rfl
  · rw [List.find?_cons_of_neg (by simpa [idleLatency, idleAfter] using h₃),
      List.find?_cons_of_pos (by simpa [idleLatency, idleAfter] using h₂)]; rfl
  · rw [List.find?_cons_of_neg (by simpa [idleLatency, idleAfter] using h₃),
      List.find?_cons_of_neg (by simpa [idleLatency, idleAfter] using h₂),
      List.find?_cons_of_pos (by simpa [idleLatency, idleAfter] using h₁)]; rfl
  · rw [List.find?_cons_of_neg (by simpa [idleLatency, idleAfter] using h₃),
      List.find?_cons_of_neg (by simpa [idleLatency, idleAfter] using h₂),
      List.find?_cons_of_neg (by simpa [idleLatency, idleAfter] using h₁)]; rfl

/-- The three idle states by the bounds that hold and the deeper bounds that fail. -/
theorem Die.deepest_of_bounds {d : Die} {k : Nat}
    (h : (k = 3 ∧ 1500 ≤ d.tolerance ∧ 5000 ≤ d.idleMicros) ∨
      (k = 2 ∧ 60 ≤ d.tolerance ∧ 200 ≤ d.idleMicros ∧ (d.tolerance < 1500 ∨ d.idleMicros < 5000)) ∨
      (k = 1 ∧ 2 ≤ d.tolerance ∧ 10 ≤ d.idleMicros ∧ (d.tolerance < 60 ∨ d.idleMicros < 200))) : d.deepest = k := by
  rw [Die.deepest_eq]
  rcases h with ⟨rfl, tol, quiet⟩ | ⟨rfl, tol, quiet, short⟩ | ⟨rfl, tol, quiet, short⟩
  · rw [if_pos ⟨tol, quiet⟩]
  · rw [if_neg (by omega), if_pos ⟨tol, quiet⟩]
  · rw [if_neg (by omega), if_neg (by omega), if_pos ⟨tol, quiet⟩]

theorem Die.deepest_none {d : Die} (h : d.tolerance < 2 ∨ d.idleMicros < 10) : d.deepest = 0 := by
  rw [Die.deepest_eq, if_neg (by omega), if_neg (by omega), if_neg (by omega)]

theorem exec_idleEntry_deeper {s : State} {g : Nat} (deeper : (s.die g).idle < (s.die g).deepest) (quiet : s.dieQuiet g = true)
    (run : (s.die g).stepState = .run) :
    exec (.idleEntry g) s = .next (s.setDie g { s.die g with idle := (s.die g).deepest }) := by
  show execIdleEntry g s = _
  simp [execIdleEntry, deeper, quiet, run]

theorem exec_idleEntry_still {s : State} {g : Nat} (h : s.dieQuiet g = false ∨ (s.die g).deepest = 0) :
    exec (.idleEntry g) s = .next s := by
  show execIdleEntry g s = _
  rcases h with busy | awake
  · simp [execIdleEntry, busy]
  · simp [execIdleEntry, awake]

theorem exec_idleWake_busy {s : State} {g : Nat} (busy : s.dieQuiet g = false) (idle : (s.die g).idle ≠ 0) :
    exec (.idleWake g) s = .next (s.setDie g { s.die g with idle := 0, idleMicros := 0 }) := by
  show execIdleWake g s = _
  simp [execIdleWake, State.wakeDie, busy, idle]

theorem exec_idleWake_still {s : State} {g : Nat} (h : s.dieQuiet g = true ∨ (s.die g).idle = 0) :
    exec (.idleWake g) s = .next s := by
  show execIdleWake g s = _
  rcases h with quiet | awake
  · simp [execIdleWake, quiet]
  · simp [execIdleWake, State.wakeDie, awake]

/-! ### Counter periods (R347) -/

theorem exec_counterPeriodEnd_early {s : State} {dev fn : Nat}
    (h : (s.tenant dev fn).periodAge < periodMicros (s.tenant dev fn).desc) : exec (.counterPeriodEnd dev fn) s = .next s := by
  show execCounterPeriodEnd dev fn s = _
  simp [execCounterPeriodEnd, h]

/-- At the end of a period each shared counter of both dies is fixed, rounded down to a multiple of 4,096. -/
theorem exec_counterPeriodEnd_due {s : State} {dev fn : Nat}
    (h : periodMicros (s.tenant dev fn).desc ≤ (s.tenant dev fn).periodAge) :
    ∃ p, exec (.counterPeriodEnd dev fn) s = .next (s.setTenant dev fn { s.tenant dev fn with period := p, periodAge := 0 }) ∧
      ∀ x i, x < 2 → i < 5 → mapGet p (periodKey x (0x300 + i)) =
        some (BitVec.ofNat 64 (((mapGet (s.die (2 * dev + x)).counters (0x300 + i)).getD 0).toNat / 4096 * 4096)) := by
  show ∃ p, execCounterPeriodEnd dev fn s = .next _ ∧ _
  rw [execCounterPeriodEnd, if_neg (Nat.not_lt.2 h)]
  refine ⟨_, rfl, fun x i hx hi => ?_⟩
  interval_cases x <;> interval_cases i <;> rfl

/-! ### A core that stands (R3, R315, R326, R408, R409) -/

section
variable {s : State} {t : Nat} (h : s.waitOf t = none)
include h

theorem execFputResume_none : execFputResume t s = .next s := by simp [execFputResume, h]
theorem execFgetResume_none : execFgetResume t s = .next s := by simp [execFgetResume, h]
theorem execFgetTimeout_none : execFgetTimeout t s = .next s := by simp [execFgetTimeout, h]
theorem execFcntResume_none : execFcntResume t s = .next s := by simp [execFcntResume, h]
theorem execBeatInsnResume_none : execBeatInsnResume t s = .next s := by simp [execBeatInsnResume, h]
theorem execWriteOnceReadResume_none : execWriteOnceReadResume t s = .next s := by simp [execWriteOnceReadResume, h]
theorem execStreamQueueAdmit_none : execStreamQueueAdmit t s = .next s := by simp [execStreamQueueAdmit, h]
theorem execWfeWake_none : execWfeWake t s = .next s := by simp [execWfeWake, h]
theorem execBwaitObserve_none : execBwaitObserve t s = .next s := by simp [execBwaitObserve, h]
theorem execGsendResume_none : execGsendResume t s = .next s := by simp [execGsendResume, h]
theorem execGroupInstall_none : execGroupInstall t s = .next s := by simp [execGroupInstall, h]
theorem execDraftWaitEnd_none : execDraftWaitEnd t s = .next s := by simp [execDraftWaitEnd, h]
theorem execRelatchDone_none : execRelatchDone t s = .next s := by simp [execRelatchDone, h]
theorem execRelatchTimeout_none : execRelatchTimeout t s = .next s := by simp [execRelatchTimeout, h]

end

theorem execActorFiring_stands {s : State} {t : Nat} (h : s.coreStands t = true) : execActorFiring t s = .next s := by
  simp [execActorFiring, h]

theorem State.coreStands_of_stops {s : State} {t : Nat} (h : s.tileStops t = true ∨ (s.coreOf t).held = true) :
    s.coreStands t = true := by
  rcases h with h | h
  · simp [State.coreStands, h]
  · simp [State.coreStands, h]

/-- No wait of a core that stands ends, and it fires no actor. -/
theorem exec_waitEnd_stands {s : State} {t : Nat} (h : s.coreStands t = true) :
    ∀ i ∈ [Instr.fputResume t, .fgetResume t, .fgetTimeout t, .fcntResume t, .beatInsnResume t, .writeOnceReadResume t,
      .streamQueueAdmit t, .wfeWake t, .bwaitObserve t, .gsendResume t, .groupInstall t, .draftWaitEnd t, .relatchDone t,
      .relatchTimeout t, .actorFiring t], exec i s = .next s := by
  have none := State.waitOf_stands h
  simp only [List.forall_mem_cons]
  exact ⟨execFputResume_none none, execFgetResume_none none, execFgetTimeout_none none, execFcntResume_none none,
    execBeatInsnResume_none none, execWriteOnceReadResume_none none, execStreamQueueAdmit_none none, execWfeWake_none none,
    execBwaitObserve_none none, execGsendResume_none none, execGroupInstall_none none, execDraftWaitEnd_none none,
    execRelatchDone_none none, execRelatchTimeout_none none, execActorFiring_stands h, by simp⟩

end Sys2Proof.Machine

namespace Sys2Proof.Proofs

open Sys2Proof.Machine

/-- Settles O53: each clause by the rule of its act; bring-up by what each step of it keeps of the node and its devices, and a core
that stands by having no wait that may end. -/
theorem platformActs : Obligations.PlatformActs := by
  unfold Obligations.PlatformActs
  refine ⟨?host, ?bringUp, ?reset, ?tileReset, ?management, ?debugging, ?equalise, ?steps, ?idle, ?period, ?waits, ?stands⟩
  case host => exact fun s dev addr write v =>
    ⟨exec_hostCxlMemAccess_exposed write v, exec_hostCxlMemAccess_elsewhere write v⟩
  case bringUp => exact fun s dev strap base => ⟨exec_powerOnReset_free base, exec_powerOnReset_taken base⟩
  case reset => exact fun s t fn => by rw [State.coreOf_resetTile]; exact ⟨rfl, rfl⟩
  case tileReset => exact fun s t => exec_tileReset_free
  case management =>
    exact fun s dev v => ⟨fun port => ⟨fun ne => exec_spdmRequest_still (.inl ne), exec_spdmRequest_fails port,
        exec_managementMessage_number v port, fun k other => exec_managementMessage_still v (.inl other), exec_jtagOpen_reached v port⟩,
      fun cut k => ⟨exec_spdmRequest_still (.inr cut), exec_managementMessage_still v (.inr cut), exec_jtagOpen_cut v cut⟩⟩
  case debugging =>
    intro s t c
    refine ⟨exec_debugHold_running, fun may w waiting still => ?_, exec_debugHold_closed, exec_debuggerRelease_held,
      exec_debuggerRelease_free, exec_debuggerAccess_closed, fun held may i v w => ⟨exec_debuggerAccess_writeGeneral held may v,
        exec_debuggerAccess_writePc held may v, exec_debuggerAccess_readRegister held may i v,
        fun fits => ⟨exec_debuggerAccess_read held may v fits, exec_debuggerAccess_write held may v fits⟩,
        exec_debuggerAccess_beyond held may w v⟩⟩
    exact exec_debugHold_open may fun n queue => still n (CoreRun.waiting.inj (waiting.symm.trans queue))
  case equalise => exact fun s dev a b => State.equalise_spanned
  case steps =>
    exact fun s g target apart alone alone' => ⟨fun run le ceiling ne =>
        ⟨exec_stepChangeRequest_below_floor alone run le ceiling ne, exec_stepChangeRequest_allowed alone run le ceiling ne⟩,
      exec_stepChangeRequest_ignored alone,
      fun holding => ⟨fun held => ⟨exec_stepHoldsDone_faster alone' holding held, exec_stepHoldsDone_slower alone' holding held⟩,
        fun _ => exec_stepHoldsDone_running alone' holding⟩,
      fun ramp => ⟨exec_stepRampDone_switched alone' ramp, exec_stepRampDone_raised alone' ramp⟩,
      exec_stepSwitchDone_switch alone' apart⟩
  case idle =>
    intro s g d
    refine ⟨fun k deeper quiet run bounds => ?_, fun awake => exec_idleEntry_still (awake.imp_right Die.deepest_none),
      exec_idleWake_busy, exec_idleWake_still⟩
    obtain rfl := Die.deepest_of_bounds bounds
    exact exec_idleEntry_deeper deeper quiet run
  case period => exact fun s dev fn => ⟨exec_counterPeriodEnd_early, exec_counterPeriodEnd_due⟩
  case waits => exact fun s t => exec_waitEnd_stands
  case stands => exact fun s t => State.coreStands_of_stops

end Sys2Proof.Proofs

/-! Proofs about encodings and steps: the decoder and the encoder (R23 to R49), fetching (R231), the guard and privilege (R85),
the issue of stream commands (R34), and what a step runs (R227). -/

namespace Sys2Proof

/-! ### The first word of a scalar instruction (R23, R25 to R27) -/

/-- The first word of a scalar instruction: the fields of form A, its op and its length code. -/
def firstWord (op : Nat) (f : FormA) (len : BitVec 2) : Word :=
  f.sub ++ BitVec.ofBool f.gn ++ f.guard ++ f.b ++ f.a ++ f.d ++ BitVec.ofNat 8 op ++ len

/-- The fields of form B's first word, whose b is reserved (R26). -/
def FormB.head (f : FormB) : FormA := { sub := f.sub, gn := f.gn, guard := f.guard, b := 0, a := f.a, d := f.d }

/-- The fields of form C's first word, whose b is reserved (R27). -/
def FormC.head (f : FormC) : FormA := { sub := f.sub, gn := f.gn, guard := f.guard, b := 0, a := f.a, d := f.d }

theorem packA_eq (op : Nat) (f : FormA) : packA op f = firstWord op f 0 := rfl
theorem packB_eq (op : Nat) (f : FormB) : packB op f = [firstWord op f.head 1, f.ext16 ++ f.imm16] := rfl
theorem packC_eq (op : Nat) (f : FormC) : packC op f = [firstWord op f.head 2, f.ext32, f.lit32] := rfl

@[simp] theorem unpackA_firstWord (op : Nat) (f : FormA) (len : BitVec 2) : unpackA (firstWord op f len) = f := by
  simp [unpackA, firstWord, BitVec.extractLsb'_append_eq_of_le, BitVec.extractLsb'_append_eq_right, BitVec.getLsbD_append,
    -BitVec.getLsbD_eq_getElem, -Nat.reduceAdd]

theorem extractLsb'_op_firstWord (op : Nat) (f : FormA) (len : BitVec 2) :
    (firstWord op f len).extractLsb' 2 8 = BitVec.ofNat 8 op := by
  simp [firstWord, BitVec.extractLsb'_append_eq_of_le, BitVec.extractLsb'_append_eq_right, -Nat.reduceAdd]

@[simp] theorem wordCount_firstWord (op : Nat) (f : FormA) (len : BitVec 2) :
    wordCount (firstWord op f len) = len.toNat + 1 := by
  simp [wordCount, firstWord, BitVec.extractLsb'_append_eq_right, -Nat.reduceAdd]

theorem bits_toNat {n : Nat} (w : BitVec n) (lo len : Nat) : bits w.toNat lo len = (w.extractLsb' lo len).toNat :=
  BitVec.extractLsb'_toNat lo len w |>.symm

theorem bits_op_firstWord {op : Nat} (f : FormA) (len : BitVec 2) (h : op < 256) :
    bits (firstWord op f len).toNat 2 8 = op := by
  rw [bits_toNat, extractLsb'_op_firstWord, BitVec.toNat_ofNat, Nat.mod_eq_of_lt h]

theorem unpackB_eq (w x : Word) : unpackB w x =
    { sub := (unpackA w).sub, gn := (unpackA w).gn, guard := (unpackA w).guard, a := (unpackA w).a, d := (unpackA w).d
      ext16 := x.extractLsb' 16 16, imm16 := x.extractLsb' 0 16 } := rfl

theorem unpackC_eq (w x y : Word) : unpackC w x y =
    { sub := (unpackA w).sub, gn := (unpackA w).gn, guard := (unpackA w).guard, a := (unpackA w).a, d := (unpackA w).d
      ext32 := x, lit32 := y } := rfl

@[simp] theorem unpackB_firstWord (op : Nat) (f : FormB) (len : BitVec 2) :
    unpackB (firstWord op f.head len) (f.ext16 ++ f.imm16) = f := by
  rw [unpackB_eq, unpackA_firstWord, BitVec.extractLsb'_append_eq_left, BitVec.extractLsb'_append_eq_right]
  rfl

@[simp] theorem unpackC_firstWord (op : Nat) (f : FormC) (len : BitVec 2) :
    unpackC (firstWord op f.head len) f.ext32 f.lit32 = f := by
  rw [unpackC_eq, unpackA_firstWord]
  rfl

/-! ### The op codes of the constructors (R32) -/

/-- The code maps of form A are inverse, `gsend` and `gsend.x` told apart by sub[0] (R380). -/
theorem formAInstr_of_asFormA {i : Instr} {op : Nat} {f : FormA} (h : asFormA i = some (op, f)) (bit : sendBit i = true) :
    formAInstr op f = some i := by
  cases i <;> cases h
  case gsendA => exact if_neg (by simpa [sendBit] using bit)
  case gsendXA => exact if_pos (by simpa [sendBit] using bit)
  all_goals rfl

/-- The code maps of form B are inverse. -/
theorem formBInstr_of_asFormB {i : Instr} {op : Nat} {f : FormB} (h : asFormB i = some (op, f)) (bit : sendBit i = true) :
    formBInstr op f = some i := by
  cases i <;> cases h
  case gsendB => exact if_neg (by simpa [sendBit] using bit)
  case gsendXB => exact if_pos (by simpa [sendBit] using bit)
  all_goals rfl

/-- The code maps of form C are inverse. -/
theorem formCInstr_of_asFormC {i : Instr} {op : Nat} {f : FormC} (h : asFormC i = some (op, f)) :
    formCInstr op f = some i := by
  cases i <;> cases h
  all_goals rfl

theorem opAllocated_of_asFormA {i : Instr} {op : Nat} {f : FormA} (h : asFormA i = some (op, f)) : opAllocated op = true := by
  cases i <;> cases h
  all_goals rfl

theorem opAllocated_of_asFormB {i : Instr} {op : Nat} {f : FormB} (h : asFormB i = some (op, f)) : opAllocated op = true := by
  cases i <;> cases h
  all_goals rfl

theorem opAllocated_of_asFormC {i : Instr} {op : Nat} {f : FormC} (h : asFormC i = some (op, f)) : opAllocated op = true := by
  cases i <;> cases h
  all_goals rfl

theorem lt_of_opAllocated {op : Nat} (h : opAllocated op = true) : op < 256 := by
  simp [opAllocated] at h
  omega

/-! ### The decoder on a word that is no stream command (R31 steps 3 to 5) -/

section

variable {w : Word} {op : Nat} (code : bits w.toNat 2 8 = op)
include code

/-- An op or a sub value that is not allocated is rejected before anything else is looked at. -/
theorem decodeScalar_unallocated (x y z : Word) (len : wordCount w ≠ 4)
    (h : opAllocated op = false ∨ subAllocated op (w.extractLsb' 29 3) = false) :
    decodeScalar w x y z = .error .illegalOp := by
  unfold decodeScalar
  rw [if_neg len, code]
  rcases h with h | h <;> simp [h]

variable (alloc : opAllocated op = true) (sub : subAllocated op (w.extractLsb' 29 3) = true)
include alloc sub

theorem decodeScalar_formA (x y z : Word) (len : wordCount w = 1) :
    decodeScalar w x y z =
      (if fieldsOkA op (unpackA w) then formAInstr op (unpackA w) else none).elim (.error .illegalForm) .ok := by
  simp only [decodeScalar, len, code, alloc, sub, Nat.reduceEqDiff, if_false, Bool.not_true, Bool.false_eq_true]
  split <;> simp [*]

theorem decodeScalar_formB (x y z : Word) (len : wordCount w = 2) :
    decodeScalar w x y z =
      (if w.extractLsb' 20 5 = 0 ∧ fieldsOkB op (unpackB w x) then formBInstr op (unpackB w x) else none).elim
        (.error .illegalForm) .ok := by
  simp only [decodeScalar, len, code, alloc, sub, Nat.reduceEqDiff, if_false, Bool.not_true, Bool.false_eq_true]
  split <;> simp_all

theorem decodeScalar_formC (x y z : Word) (len : wordCount w = 3) :
    decodeScalar w x y z =
      (if w.extractLsb' 20 5 = 0 ∧ fieldsOkC op (unpackC w x y) then formCInstr op (unpackC w x y) else none).elim
        (.error .illegalForm) .ok := by
  simp only [decodeScalar, len, code, alloc, sub, Nat.reduceEqDiff, if_false, Bool.not_true, Bool.false_eq_true]
  split <;> simp_all

end

/-! ### Round trips of scalar instructions -/

theorem extractLsb'_sub_firstWord (op : Nat) (f : FormA) (len : BitVec 2) : (firstWord op f len).extractLsb' 29 3 = f.sub :=
  congrArg FormA.sub (unpackA_firstWord op f len)

theorem extractLsb'_b_firstWord (op : Nat) (f : FormA) (len : BitVec 2) : (firstWord op f len).extractLsb' 20 5 = f.b :=
  congrArg FormA.b (unpackA_firstWord op f len)

theorem decodeScalar_packA {i : Instr} {op : Nat} {f : FormA} (h : asFormA i = some (op, f)) (wf : wfA op f = true)
    (bit : sendBit i = true) (x y z : Word) : decodeScalar (packA op f) x y z = .ok i := by
  obtain ⟨sub, fields⟩ := Bool.and_eq_true_iff.1 wf
  have alloc := opAllocated_of_asFormA h
  rw [packA_eq, decodeScalar_formA (bits_op_firstWord f 0 (lt_of_opAllocated alloc)) alloc
    (by rwa [extractLsb'_sub_firstWord]) x y z (wordCount_firstWord op f 0), unpackA_firstWord, if_pos fields,
    formAInstr_of_asFormA h bit]
  rfl

theorem decodeScalar_packB {i : Instr} {op : Nat} {f : FormB} (h : asFormB i = some (op, f)) (wf : wfB op f = true)
    (bit : sendBit i = true) (y z : Word) :
    decodeScalar (firstWord op f.head 1) (f.ext16 ++ f.imm16) y z = .ok i := by
  obtain ⟨sub, fields⟩ := Bool.and_eq_true_iff.1 wf
  have alloc := opAllocated_of_asFormB h
  rw [decodeScalar_formB (bits_op_firstWord f.head 1 (lt_of_opAllocated alloc)) alloc
    (by rwa [extractLsb'_sub_firstWord]) _ y z (wordCount_firstWord op f.head 1), unpackB_firstWord,
    if_pos ⟨extractLsb'_b_firstWord op f.head 1, fields⟩, formBInstr_of_asFormB h bit]
  rfl

theorem decodeScalar_packC {i : Instr} {op : Nat} {f : FormC} (h : asFormC i = some (op, f)) (wf : wfC op f = true) (z : Word) :
    decodeScalar (firstWord op f.head 2) f.ext32 f.lit32 z = .ok i := by
  obtain ⟨sub, fields⟩ := Bool.and_eq_true_iff.1 wf
  have alloc := opAllocated_of_asFormC h
  rw [decodeScalar_formC (bits_op_firstWord f.head 2 (lt_of_opAllocated alloc)) alloc
    (by rwa [extractLsb'_sub_firstWord]) _ _ z (wordCount_firstWord op f.head 2), unpackC_firstWord,
    if_pos ⟨extractLsb'_b_firstWord op f.head 2, fields⟩, formCInstr_of_asFormC h]
  rfl

/-- What an encoding is, by form, and what the instruction's fields then pass. -/
theorem encode_cases {i : Instr} {ws : List Word} (wf : i.wf = true) (h : encode i = some ws) :
    (∃ op f, asFormA i = some (op, f) ∧ wfA op f = true ∧ sendBit i = true ∧ ws = [packA op f]) ∨
    (∃ op f, asFormB i = some (op, f) ∧ wfB op f = true ∧ sendBit i = true ∧ ws = packB op f) ∨
    (∃ op f, asFormC i = some (op, f) ∧ wfC op f = true ∧ ws = packC op f) := by
  unfold Instr.wf at wf
  unfold encode at h
  split at h
  case h_1 op f ha =>
    obtain ⟨wf, bit⟩ : wfA op f = true ∧ sendBit i = true := by simpa [ha] using wf
    exact .inl ⟨op, f, ha, wf, bit, (Option.some.inj h).symm⟩
  case h_2 ha =>
    simp only [ha] at wf
    split at h
    case h_1 op f hb =>
      obtain ⟨wf, bit⟩ : wfB op f = true ∧ sendBit i = true := by simpa [hb] using wf
      exact .inr (.inl ⟨op, f, hb, wf, bit, (Option.some.inj h).symm⟩)
    case h_2 hb =>
      obtain ⟨⟨op, f⟩, hc, rfl⟩ := Option.map_eq_some_iff.1 h
      exact .inr (.inr ⟨op, f, hc, by simpa [hb, hc] using wf, rfl⟩)

/-- Whatever follows the words of an encoding, decoding gives the instruction back. -/
theorem decodeWords_encode {i : Instr} {ws : List Word} (wf : i.wf = true) (h : encode i = some ws) (more : List Word) :
    decodeWords (ws ++ more) = .ok i := by
  rcases encode_cases wf h with ⟨op, f, ha, wf, bit, rfl⟩ | ⟨op, f, hb, wf, bit, rfl⟩ | ⟨op, f, hc, wf, rfl⟩
  · exact decodeScalar_packA ha wf bit _ _ _
  · rw [packB_eq]; exact decodeScalar_packB hb wf bit _ _
  · rw [packC_eq]; exact decodeScalar_packC hc wf _

/-- The length code of an encoding's first word counts its words. -/
theorem length_encode {i : Instr} {ws : List Word} (wf : i.wf = true) (h : encode i = some ws) :
    ws.length = wordCount (ws.getD 0 0) := by
  rcases encode_cases wf h with ⟨op, f, -, -, -, rfl⟩ | ⟨op, f, -, -, -, rfl⟩ | ⟨op, f, -, -, rfl⟩
  · exact (wordCount_firstWord op f 0).symm
  · exact (wordCount_firstWord op f.head 1).symm
  · exact (wordCount_firstWord op f.head 2).symm

theorem encode_formA {i : Instr} {p : Nat × FormA} (h : asFormA i = some p) : encode i = some [packA p.1 p.2] := by
  simp [encode, h]

theorem encode_formB {i : Instr} {p : Nat × FormB} (ha : asFormA i = none) (hb : asFormB i = some p) :
    encode i = some (packB p.1 p.2) := by
  simp [encode, ha, hb]

theorem encode_formC {i : Instr} {p : Nat × FormC} (ha : asFormA i = none) (hb : asFormB i = none) (hc : asFormC i = some p) :
    encode i = some (packC p.1 p.2) := by
  simp [encode, ha, hb, hc]

/-! ### Words of the other kinds (R33, R37, R45, R47) -/

/-- The first word of a stream command (R33). -/
def firstStreamWord (code : Nat) (c : StreamWord) : Word :=
  c.b ++ c.a ++ BitVec.ofBool c.bar ++ BitVec.ofBool c.gn ++ c.guard ++ c.sn ++ BitVec.ofNat 6 code ++ 3#2

theorem packStream_eq (code : Nat) (c : StreamWord) : packStream code c = [firstStreamWord code c, c.w1, c.w2, c.w3] := rfl

@[simp] theorem wordCount_firstStreamWord (code : Nat) (c : StreamWord) : wordCount (firstStreamWord code c) = 4 := by
  simp [wordCount, firstStreamWord, BitVec.extractLsb'_append_eq_right, -Nat.reduceAdd]

theorem bits_code_firstStreamWord {code : Nat} (c : StreamWord) (h : code < 64) :
    bits (firstStreamWord code c).toNat 2 6 = code := by
  have field : (firstStreamWord code c).extractLsb' 2 6 = BitVec.ofNat 6 code := by
    simp [firstStreamWord, BitVec.extractLsb'_append_eq_of_le, BitVec.extractLsb'_append_eq_right, -Nat.reduceAdd]
  rw [bits_toNat, field, BitVec.toNat_ofNat, Nat.mod_eq_of_lt h]

@[simp] theorem unpackStream_firstStreamWord (code : Nat) (c : StreamWord) :
    unpackStream (firstStreamWord code c) c.w1 c.w2 c.w3 = c := by
  simp [unpackStream, firstStreamWord, BitVec.extractLsb'_append_eq_of_le, BitVec.extractLsb'_append_eq_right,
    BitVec.getLsbD_append, -BitVec.getLsbD_eq_getElem, -Nat.reduceAdd]

@[simp] theorem unpackEl_packEl (op : Nat) (c : ElWord) : unpackEl (packEl op c) = c := by
  simp [unpackEl, packEl, BitVec.extractLsb'_append_eq_of_le, BitVec.extractLsb'_append_eq_right, BitVec.getLsbD_append,
    -BitVec.getLsbD_eq_getElem, -Nat.reduceAdd]

theorem extractLsb'_op_packEl (op : Nat) (c : ElWord) : (packEl op c).extractLsb' 0 7 = BitVec.ofNat 7 op := by
  simp [packEl, BitVec.extractLsb'_append_eq_right, -Nat.reduceAdd]

theorem elReservedOk_packEl (op : Nat) (c : ElWord) : elReservedOk (packEl op c) = true := by
  simp [elReservedOk, packEl, BitVec.extractLsb'_append_eq_of_le, BitVec.extractLsb'_append_eq_right, -Nat.reduceAdd]

@[simp] theorem unpackRouter_packRouter (op : Nat) (c : RouterWord) : unpackRouter (packRouter op c) = c := by
  simp [unpackRouter, packRouter, BitVec.extractLsb'_append_eq_of_le, BitVec.extractLsb'_append_eq_right, BitVec.getLsbD_append,
    -BitVec.getLsbD_eq_getElem, -Nat.reduceAdd]

theorem extractLsb'_op_packRouter (op : Nat) (c : RouterWord) : (packRouter op c).extractLsb' 0 3 = BitVec.ofNat 3 op := by
  simp [packRouter, BitVec.extractLsb'_append_eq_right, -Nat.reduceAdd]

theorem extractLsb'_reserved_packRouter (op : Nat) (c : RouterWord) : (packRouter op c).extractLsb' 40 24 = 0 := by
  simp [packRouter, BitVec.extractLsb'_append_eq_of_le, -Nat.reduceAdd]

@[simp] theorem unpackLayout_packLayout (code : Nat) (c : LayoutWord) : unpackLayout (packLayout code c) = c := by
  simp [unpackLayout, packLayout, BitVec.extractLsb'_append_eq_of_le, BitVec.extractLsb'_append_eq_right, -Nat.reduceAdd]

theorem extractLsb'_code_packLayout (code : Nat) (c : LayoutWord) :
    (packLayout code c).extractLsb' 0 4 = BitVec.ofNat 4 code := by
  simp [packLayout, BitVec.extractLsb'_append_eq_right, -Nat.reduceAdd]

theorem streamInstr_of_asStream {i : Instr} {code : Nat} (h : asStream i = some code) :
    code < 64 ∧ streamInstr code = some i := by
  cases i <;> cases h
  all_goals exact ⟨by decide, rfl⟩

theorem elInstr_of_asEl {i : Instr} {op : Nat} (h : asEl i = some op) : op < 128 ∧ elInstr op = some i := by
  cases i <;> cases h
  all_goals exact ⟨by decide, rfl⟩

theorem routerInstr_of_asRouter {i : Instr} {op : Nat} (h : asRouter i = some op) : op < 8 ∧ routerInstr op = some i := by
  cases i <;> cases h
  all_goals exact ⟨by decide, rfl⟩

theorem layoutInstr_of_asLayout {i : Instr} {code : Nat} (h : asLayout i = some code) :
    code < 16 ∧ layoutInstr code = some i := by
  cases i <;> cases h
  all_goals exact ⟨by decide, rfl⟩

/-! ### The decoder on a stream command (R36) -/

section

variable {w : Word} {code : Nat} (field : bits w.toNat 2 6 = code)
include field

theorem decodeScalar_noStream (x y z : Word) (len : wordCount w = 4) (none : streamInstr code = none) :
    decodeScalar w x y z = .error .streamCmd := by
  simp only [decodeScalar, if_pos len, field, none]

/-- The order of checks on a stream command whose code is allocated: its fields, then its port. -/
theorem decodeScalar_stream {i : Instr} (x y z : Word) (len : wordCount w = 4) (instr : streamInstr code = some i) :
    decodeScalar w x y z =
      if streamFieldsOk code (unpackStream w x y z) then
        if streamRangeOk code (unpackStream w x y z) then .ok i else .error .portRange
      else .error .streamCmd := by
  simp only [decodeScalar, if_pos len, field, instr]
  cases streamFieldsOk code (unpackStream w x y z) <;> cases streamRangeOk code (unpackStream w x y z) <;> rfl

end

/-! ### Round trips of the other words -/

theorem decodeScalar_packStream {i : Instr} {code : Nat} {c : StreamWord} (h : asStream i = some code)
    (wf : wfStream code c = true) : decodeScalar (firstStreamWord code c) c.w1 c.w2 c.w3 = .ok i := by
  obtain ⟨fields, range⟩ := Bool.and_eq_true_iff.1 wf
  obtain ⟨lt, instr⟩ := streamInstr_of_asStream h
  rw [decodeScalar_stream (bits_code_firstStreamWord c lt) _ _ _ (wordCount_firstStreamWord code c) instr,
    unpackStream_firstStreamWord, if_pos fields, if_pos range]

theorem decodeEl_packEl {i : Instr} {op : Nat} {c : ElWord} (h : asEl i = some op) (wf : elFieldsOk op c = true) :
    decodeEl (packEl op c) = .ok i := by
  obtain ⟨lt, instr⟩ := elInstr_of_asEl h
  simp [decodeEl, extractLsb'_op_packEl, Nat.mod_eq_of_lt lt, instr, elReservedOk_packEl, wf]

theorem decodeRouter_packRouter {i : Instr} {op : Nat} {c : RouterWord} (h : asRouter i = some op)
    (wf : routerFieldsOk op c = true) : decodeRouter (packRouter op c) = .ok i := by
  obtain ⟨lt, instr⟩ := routerInstr_of_asRouter h
  simp [decodeRouter, extractLsb'_op_packRouter, Nat.mod_eq_of_lt lt, instr, extractLsb'_reserved_packRouter, wf]

theorem decodeLayout_packLayout {i : Instr} {code : Nat} {c : LayoutWord} (h : asLayout i = some code)
    (wf : layoutFieldsOk code c = true) : decodeLayout (packLayout code c) = .ok i := by
  obtain ⟨lt, instr⟩ := layoutInstr_of_asLayout h
  simp [decodeLayout, extractLsb'_code_packLayout, Nat.mod_eq_of_lt lt, instr, wf]

theorem StreamWord.wf_eq {i : Instr} {code : Nat} (c : StreamWord) (h : asStream i = some code) :
    StreamWord.wf i c = wfStream code c := by
  simp [StreamWord.wf, h]

theorem ElWord.wf_eq {i : Instr} {op : Nat} (c : ElWord) (h : asEl i = some op) : ElWord.wf i c = elFieldsOk op c := by
  simp [ElWord.wf, h]

theorem RouterWord.wf_eq {i : Instr} {op : Nat} (c : RouterWord) (h : asRouter i = some op) :
    RouterWord.wf i c = routerFieldsOk op c := by
  simp [RouterWord.wf, h]

theorem LayoutWord.wf_eq {i : Instr} {code : Nat} (c : LayoutWord) (h : asLayout i = some code) :
    LayoutWord.wf i c = layoutFieldsOk code c := by
  simp [LayoutWord.wf, h]

/-! ### Fields of a first word as numbers -/

theorem wordCount_eq (w : Word) : wordCount w = w.toNat % 4 + 1 := by
  simp [wordCount]

theorem bits_op (w : Word) : bits w.toNat 2 8 = w.toNat / 4 % 256 := by
  rw [bits, Nat.shiftRight_eq_div_pow]; rfl

theorem bits_code (w : Word) : bits w.toNat 2 6 = w.toNat / 4 % 64 := by
  rw [bits, Nat.shiftRight_eq_div_pow]; rfl

/-- The field b of a first word (R25). -/
theorem toNat_extractLsb'_b (w : Word) : (w.extractLsb' 20 5).toNat = w.toNat / 2 ^ 20 % 32 := by
  rw [BitVec.extractLsb'_toNat, Nat.shiftRight_eq_div_pow]

theorem streamInstr_none {code : Nat} (h : 0x16 ≤ code) : streamInstr code = none := by
  unfold streamInstr
  split
  case h_23 => rfl
  all_goals omega

theorem streamInstr_some {code : Nat} (h : code < 0x16) : ∃ i, streamInstr code = some i := by
  interval_cases code
  all_goals exact ⟨_, rfl⟩

end Sys2Proof

namespace Sys2Proof.Machine

open Sys2Proof.Rules

/-! ### The instructions of each form (R25 to R27) -/

theorem asFormA_scalarA : ∀ i ∈ scalarA, ∀ f, ∃ p, asFormA (i f) = some p := by
  rw [← List.forall_iff_forall_mem]
  repeat' apply And.intro
  all_goals exact fun f => ⟨_, rfl⟩

theorem asFormB_scalarB : ∀ i ∈ scalarB, ∀ f, asFormA (i f) = none ∧ ∃ p, asFormB (i f) = some p := by
  rw [← List.forall_iff_forall_mem]
  repeat' apply And.intro
  all_goals exact fun f => ⟨rfl, _, rfl⟩

theorem asFormC_scalarC : ∀ i ∈ scalarC, ∀ f, asFormA (i f) = none ∧ asFormB (i f) = none ∧ ∃ p, asFormC (i f) = some p := by
  rw [← List.forall_iff_forall_mem]
  repeat' apply And.intro
  all_goals exact fun f => ⟨rfl, rfl, _, rfl⟩

/-! ### Fetching (R23, R24, R231) -/

/-- A fetch that fits the scratchpad meets no address beyond it. -/
theorem fetchBeyond_none {pc n : Nat} (aligned : pc % 4 = 0) (fits : pc + 4 * n ≤ 0x300000) : fetchBeyond pc n = none := by
  simp only [fetchBeyond, List.find?_map, Option.map_eq_none_iff, List.find?_eq_none, List.mem_range]
  intro i hi
  simp [spLast]
  omega

/-- The first address that a fetch meets beyond the scratchpad is the scratchpad's end. -/
theorem fetchBeyond_some {pc n : Nat} (aligned : pc % 4 = 0) (inside : pc < 0x300000) (long : 0x300000 < pc + 4 * n) :
    fetchBeyond pc n = some 0x300000 := by
  have first : (List.range n).find? ((fun a => decide (a > spLast - 3)) ∘ fun i => pc + 4 * i) = some ((0x300000 - pc) / 4) := by
    simp only [List.find?_range_eq_some, Function.comp_apply, decide_eq_true_eq, List.mem_range, Bool.not_eq_true',
      decide_eq_false_iff_not]
    unfold spLast
    exact ⟨by omega, by omega, fun j hj => by omega⟩
  rw [fetchBeyond, List.find?_map, first, Option.map_some, Option.some.injEq]
  omega

section

variable {s : State} {t pc : Nat} (at_pc : (s.coreOf t).pc.toNat = pc)
include at_pc

theorem State.fetch_unaligned (odd : pc % 4 ≠ 0) : s.fetch t = .fails 0x05 (BitVec.ofNat 64 pc) := by
  simp only [State.fetch, at_pc, if_pos odd]

theorem State.fetch_outside (aligned : pc % 4 = 0) (outside : 0x300000 ≤ pc) :
    s.fetch t = .fails 0x06 (BitVec.ofNat 64 pc) := by
  have beyond : pc > spLast := by unfold spLast; omega
  simp only [State.fetch, at_pc, aligned, ne_eq, not_true_eq_false, if_false, if_pos beyond]

theorem State.fetch_words (aligned : pc % 4 = 0) (fits : pc + 4 * wordCount (s.fetchWord t pc) ≤ 0x300000) :
    s.fetch t = .words (s.fetchWord t pc) (s.fetchWord t (pc + 4)) (s.fetchWord t (pc + 8)) (s.fetchWord t (pc + 12)) := by
  have within : ¬ pc > spLast := by have := wordCount_eq (s.fetchWord t pc); unfold spLast; omega
  simp only [State.fetch, at_pc, aligned, ne_eq, not_true_eq_false, if_false, if_neg within, fetchBeyond_none aligned fits]

theorem State.fetch_long (aligned : pc % 4 = 0) (inside : pc < 0x300000)
    (long : 0x300000 < pc + 4 * wordCount (s.fetchWord t pc)) : s.fetch t = .fails 0x06 0x300000 := by
  have within : ¬ pc > spLast := by unfold spLast; omega
  simp only [State.fetch, at_pc, aligned, ne_eq, not_true_eq_false, if_false, if_neg within, fetchBeyond_some aligned inside long]
  rfl

end

/-! ### Privilege and the guard (R31 step 6, R85) -/

theorem privileged_deny {s : State} (w : Word) (go : State → Out) (user : s.core.m = 0) :
    privileged w s go = raise s 0x03 (w.setWidth 64) := by
  simp [privileged, Core.user, user]

/-- `eret` in user mode raises 0x03, whatever its guard. -/
theorem exec_eret_user {s : State} (f : FormA) (user : s.core.m = 0) (outside : s.core.ih = false) :
    exec (.eret f) s = .next (s.withCore
      (s.core.enterHandler 0x03 (s.core.pc.setWidth 64) ((packA 0x0A f).setWidth 64))) := by
  show execEret f s = _
  rw [execEret, privileged_deny _ _ user, raise_resume _ outside rfl]
  rfl

section

variable {gn : Bool} {g : BitVec 3} {s : State} (n : Nat) (guard : s.core.guardHolds gn g = false)
include guard

/-- What an instruction's meaning is once it has come to its guard and the guard does not hold. -/
theorem skip_of_guard_false {go : Out} : (if s.core.guardHolds gn g then go else finish s n) = done s s.core n := by
  rw [guard]; rfl

variable (w : Word) (go : State → Out) (owner : s.core.m = 2)
include owner

/-- A privileged instruction comes to its guard in mode 10. -/
theorem privileged_skip : privileged w s (fun s => guarded gn g n s go) = done s s.core n := by
  rw [privileged_pass _ _ (by simp [owner]), guarded_false _ _ guard]; rfl

/-- An instruction that some sub values make privileged comes to its guard in mode 10. -/
theorem ite_privileged_skip (p : Bool) :
    (if p then privileged w s (fun s => guarded gn g n s go) else guarded gn g n s go) = done s s.core n := by
  rw [privileged_skip n guard w go owner, guarded_false _ _ guard]; exact ite_self _

/-- An access to a system state register comes to its guard in mode 10. -/
theorem systemAccess_skip (i : Nat) : systemAccess w i s (fun s => guarded gn g n s go) = done s s.core n := by
  have allowed : systemDenied s.core i = false := by simp [systemDenied, Core.user, owner]
  rw [systemAccess, allowed, if_neg (by decide), guarded_false _ _ guard]; rfl

/-- A power control comes to its guard in mode 10. -/
theorem ownerOnly_skip (sub : BitVec 3) : ownerOnly sub w s (fun s => guarded gn g n s go) = done s s.core n := by
  rw [ownerOnly, owner, if_neg (by simp), guarded_false _ _ guard]; rfl

end

/-- Every instruction of form A comes to its guard: those without a privilege at once, the others where the mode suffices. -/
theorem exec_formA_skip {s : State} {i : Instr} {op : Nat} {f : FormA} (h : asFormA i = some (op, f)) (word : i ≠ .nop)
    (guard : s.core.guardHolds f.gn f.guard = false)
    (mode : s.core.m = 2 ∨ op ∉ [0x0A, 0x96, 0xA2, 0xA3, 0xA4, 0xA7]) : exec i s = done s s.core 4 := by
  cases i <;> cases h
  case nop => exact absurd rfl word
  case eret => exact privileged_skip lenA guard _ _ (mode.resolve_right (by decide))
  case gstatA => exact ite_privileged_skip lenA guard _ _ (mode.resolve_right (by decide)) _
  case relatch => exact privileged_skip lenA guard _ _ (mode.resolve_right (by decide))
  case ctxsv => exact privileged_skip lenA guard _ _ (mode.resolve_right (by decide))
  case ctxld => exact privileged_skip lenA guard _ _ (mode.resolve_right (by decide))
  case pwrA => exact ownerOnly_skip lenA guard _ _ (mode.resolve_right (by decide)) _
  all_goals exact skip_of_guard_false lenA guard

/-- Every instruction of form B comes to its guard: those without a privilege at once, the others where the mode suffices. -/
theorem exec_formB_skip {s : State} {i : Instr} {op : Nat} {f : FormB} (h : asFormB i = some (op, f))
    (guard : s.core.guardHolds f.gn f.guard = false)
    (mode : s.core.m = 2 ∨ op ∉ [0x96, 0xA0, 0xA1, 0xA7]) : exec i s = done s s.core 8 := by
  cases i <;> cases h
  case gstatB => exact ite_privileged_skip lenB guard _ _ (mode.resolve_right (by decide)) _
  case sget => exact systemAccess_skip lenB guard _ _ (mode.resolve_right (by decide)) _
  case sset => exact systemAccess_skip lenB guard _ _ (mode.resolve_right (by decide)) _
  case pwrB => exact ownerOnly_skip lenB guard _ _ (mode.resolve_right (by decide)) _
  all_goals exact skip_of_guard_false lenB guard

/-- Every instruction of form C comes to its guard at once. -/
theorem exec_formC_skip {s : State} {i : Instr} {op : Nat} {f : FormC} (h : asFormC i = some (op, f))
    (guard : s.core.guardHolds f.gn f.guard = false) : exec i s = done s s.core 12 := by
  cases i <;> cases h
  all_goals exact skip_of_guard_false lenC guard

/-! ### What an issue captures (R34) -/

/-- Registers captured by their numbers read as they were. -/
theorem mapGet_foldl_mapSet (f : BitVec 5 → Dword) (q : BitVec 5) (l : List (BitVec 5)) (m : Map Dword) :
    mapGet (l.foldl (fun m r => mapSet m r.toNat (f r)) m) q.toNat = if q ∈ l then some (f q) else mapGet m q.toNat := by
  induction l generalizing m with
  | nil => simp
  | cons r l ih =>
    rw [List.foldl_cons, ih]
    by_cases e : q = r
    · simp [e]
    · have ne : q.toNat ≠ r.toNat := fun h => e (BitVec.eq_of_toNat_eq h)
      simp [e, mapGet_mapSet_ne _ _ _ _ ne]

/-- A register that W1, W2 or W3 names in its low field is among those captured. -/
theorem mapGet_captureRegs {f : BitVec 5 → Dword} {c : StreamWord} {w : Word} (h : w = c.w1 ∨ w = c.w2 ∨ w = c.w3) :
    mapGet (captureRegs f c) (w.setWidth 5).toNat = some (f (w.setWidth 5)) := by
  rw [captureRegs, mapGet_foldl_mapSet, if_pos]
  rw [BitVec.setWidth_eq_extractLsb' (by decide)]
  rcases h with rfl | rfl | rfl <;> simp

/-- The command that an issuer's words make, but for the program that a `slay` reads. -/
def State.captured (s : State) (x : Issuer) (code : Nat) (w : StreamWord) (words : List Nat) : Cmd :=
  let c : Cmd := { (default : Cmd) with
    kind := .stream code, w0 := firstStreamWord code w, w1 := w.w1, w2 := w.w2, w3 := w.w3
    tile := x.tile, fn := x.fn, user := x.user, pc := x.pc, regs := captureRegs x.reg w
    entA := if usesA code then s.tid (dieOf x.tile) x.fn w.a.toNat else 0
    entB := if usesB code then s.tid (dieOf x.tile) x.fn w.b.toNat else 0
    stage := .queued, gen := 1 }
  { c with bar := if w.bar then some c.r3 else none, words := words }

theorem State.capture_eq (s : State) (x : Issuer) (code : Nat) (w : StreamWord) :
    ∃ words, s.capture x code w = s.captured x code w words := by
  unfold State.capture
  dsimp only
  split <;> exact ⟨_, rfl⟩

section

variable (s : State) (x : Issuer) (code : Nat) (w : StreamWord) (words : List Nat)

theorem State.captured_a : (s.captured x code w words).a = w.a.toNat :=
  congrArg (fun c => c.a.toNat) (unpackStream_firstStreamWord code w)

theorem State.captured_b : (s.captured x code w words).b = w.b.toNat :=
  congrArg (fun c => c.b.toNat) (unpackStream_firstStreamWord code w)

theorem State.captured_sn : (s.captured x code w words).sn = w.sn.toNat :=
  congrArg (fun c => c.sn.toNat) (unpackStream_firstStreamWord code w)

variable {x} (zero : x.reg 0 = 0)
include zero

/-- A register that W1, W2 or W3 names in its low field reads as it did for the issuer. -/
theorem State.captured_reg {v : Word} (h : v = w.w1 ∨ v = w.w2 ∨ v = w.w3) :
    (s.captured x code w words).reg (v.toNat % 32) = x.reg (v.setWidth 5) := by
  have regs : (s.captured x code w words).regs = captureRegs x.reg w := rfl
  have number : v.toNat % 32 = (v.setWidth 5).toNat := (BitVec.toNat_setWidth 5 v).symm
  rw [Cmd.reg, regs, number, mapGet_captureRegs h]
  split
  · rename_i none
    rw [show v.setWidth 5 = 0 from BitVec.eq_of_toNat_eq none, zero]
  · rfl

theorem State.captured_bar :
    (s.captured x code w words).bar = if w.bar then some (x.reg (w.w3.setWidth 5)) else none := by
  rw [← State.captured_reg s code w words zero (.inr (.inr rfl))]
  rfl

end

/-! ### The issue of a stream command (R34) -/

theorem firstBad_none {l : List (Bool × BitVec 7)} (h : ∀ b ∈ l, b.1 = false) : firstBad l = none := by
  rw [firstBad, Option.map_eq_none_iff, List.find?_eq_none]
  intro b hb
  simp [h b hb]

/-- A barrier that passes its checks for the core passes them at issue. -/
theorem State.barrierIssue_none {s : State} {a : Dword} (h : BarrierOk s a) : s.barrierIssue s.coreIssuer a = none := by
  obtain ⟨aligned, own, high⟩ := h
  have high : s.core.m = 0 → supervisorArea ≤ a.toNat % 2 ^ 22 := high
  refine firstBad_none ?_
  simpa [State.coreIssuer, aligned, own, Core.user] using high

/-- A command whose entries, barrier and values pass their checks is built as captured. -/
theorem State.buildCmd_ok {s : State} {code : Nat} {w : StreamWord} {c : Cmd} (captured : s.capture s.coreIssuer code w = c)
    (entA : usesA code = true → entBad c.entA = false) (entB : usesB code = true → entBad c.entB = false)
    (bar : ∀ a, (if code = 0x0F then some c.r1 else c.bar) = some a → BarrierOk s a)
    (count : code = 0x0F → 0 ≤ c.r2.toInt ∧ c.r2.toNat < 2 ^ 48)
    (values : ∀ b ∈ s.valueChecks s.coreIssuer c, b.1 = false) :
    s.buildCmd s.coreIssuer code w = .ok c := by
  have entries : ¬ ((usesA code && entBad c.entA) || (usesB code && entBad c.entB)) = true := by
    simp only [Bool.or_eq_true, Bool.and_eq_true, not_or, not_and, Bool.not_eq_true]
    exact ⟨entA, entB⟩
  have barrier : ((if code = 0x0F then some c.r1 else c.bar).bind fun a =>
      (s.barrierIssue s.coreIssuer a).map fun e => (e, some a)) = none := by
    rw [Option.bind_eq_none_iff]
    intro a ha
    rw [State.barrierIssue_none (bar a ha), Option.map_none]
  have counted : ¬ (decide (code = 0x0F) && (decide (c.r2.toInt < 0) || decide (c.r2.toNat ≥ 2 ^ 48))) = true := by
    simp only [Bool.and_eq_true, Bool.or_eq_true, decide_eq_true_eq]
    rintro ⟨sbar, bad⟩
    have := count sbar
    omega
  simp only [State.buildCmd, captured, if_neg entries, barrier, if_neg counted, firstBad_none values]

/-- A command that is built without a follow-on takes the next number, and its place where the queue has one left. -/
theorem issueStream_built {s : State} {code : Nat} {c : Cmd} (i : Instr) (guard : s.core.guardHolds s.ir.gn s.ir.guard = true)
    (present : s.issueAbsent code = false) (built : s.buildCmd s.coreIssuer code s.ir = .ok c) (alone : c.hasFollow = false) :
    issueStream i code s =
      let u : State := { s with cmds := mapSet s.cmds s.nextCmd { c with stage := .stalled }, nextCmd := s.nextCmd + 1 }
      if s.core.queue.length < queueDepth then finish (u.placeCmd s.nextCmd) lenStream else wait u (.streamQueue s.nextCmd) := by
  have command : s.buildCommand s.coreIssuer code s.ir = .ok (c, none) := by
    simp only [State.buildCommand, built, alone, Bool.false_eq_true, if_false]
  simp only [issueStream, guarded_true _ _ guard, present, Bool.false_eq_true, if_false, command, State.newCmd]

theorem exec_stream : ∀ r ∈ streamRows, ∀ s : State, exec r.1 s = issueStream r.1 r.2 s := by
  rw [← List.forall_iff_forall_mem]
  repeat' apply And.intro
  all_goals exact fun s => rfl

/-! ### What a turn finds to do (R227) -/

section

variable {s u : State} {t : Turn} (turn : Turns s t u)
include turn

theorem nextTurn_of_turns : s.nextTurn = (t, u) := by
  obtain ⟨rest, sched, rfl⟩ := turn
  simp only [State.nextTurn, sched]

theorem step_of_idle {v : State} (found : u.todo t = .idle v) : step s = .next v := by
  simp only [step, nextTurn_of_turns turn, found]

theorem step_of_run {i : Instr} {v : State} (found : u.todo t = .run i v) : step s = exec i v := by
  simp only [step, nextTurn_of_turns turn, found]

end

/-- Where no turn is listed, the next one is drawn (log entry 1). -/
theorem step_unlisted {s : State} (none : s.sched = []) :
    step s = step { s with sched := [Config.sched s.tick], tick := s.tick + 1 } := by
  simp only [step, State.nextTurn, none]

/-! ### The turn of a core -/

/-- A core that takes its turn does not stand. -/
theorem coreStands_of_turn {u : State} {t : Nat} (may : CoreTurn u t) : u.coreStands t = false := by
  obtain ⟨-, held, runs, staying, enabled, alone, -⟩ := may
  have own : (decide (fnOf (u.coreOf t).fn = 16) && u.tenantOn t) = false := by simpa using alone
  simp [State.coreStands, State.tileStops, held, runs, staying, enabled, own]

/-- Whether a core stands depends on no field of it but its function and the debugger's hold. -/
theorem coreStands_setCore {s : State} {t : Nat} {c : Core} (fn : c.fn = (s.coreOf t).fn) (held : c.held = (s.coreOf t).held) :
    (s.setCore t c).coreStands t = s.coreStands t := by
  have region : (s.setCore t c).regionOf t = s.regionOf t := by simp only [State.regionOf, State.tile_setCore_same]; rfl
  have save : (s.setCore t c).standsForSave t = s.standsForSave t := by
    simp only [State.standsForSave, State.coreOf_setCore_same, fn, region]; rfl
  simp only [State.coreStands, State.coreOf_setCore_same, fn, held, save]
  rfl

section

variable {u : State} {t : Nat} (run : (u.coreOf t).run = .running) (stands : u.coreStands t = false)
include run stands

theorem coreTodo_imprecise {code : BitVec 7} {fval : Dword} {r : List (BitVec 7 × Dword)}
    (imprecise : (u.coreOf t).imprecise = (code, fval) :: r) :
    coreTodo t u = .idle ((u.setCore t { u.coreOf t with imprecise := r }).takeTrap t code (u.coreOf t).pc64 fval) := by
  simp only [coreTodo, run, stands, imprecise, ne_eq, not_true_eq_false, decide_false, Bool.or_false, Bool.false_eq_true, if_false]

variable (precise : (u.coreOf t).imprecise = [])
include precise

theorem coreTodo_fails {code : BitVec 7} {fval : Dword} (fetched : u.fetch t = .fails code fval) :
    coreTodo t u = .idle (u.takeTrap t code (u.coreOf t).pc64 fval) := by
  simp only [coreTodo, run, stands, precise, fetched, ne_eq, not_true_eq_false, decide_false, Bool.or_false, Bool.false_eq_true,
    if_false]

variable {w x y z : Word} (fetched : u.fetch t = .words w x y z)
include fetched

theorem coreTodo_error {e : DecodeError} (rejected : decodeScalar w x y z = .error e) :
    coreTodo t u = .idle (u.takeTrap t (decodeCause e) (u.coreOf t).pc64 (w.setWidth 64)) := by
  simp only [coreTodo, run, stands, precise, fetched, rejected, ne_eq, not_true_eq_false, decide_false, Bool.or_false,
    Bool.false_eq_true, if_false]

theorem coreTodo_ok {i : Instr} (decoded : decodeScalar w x y z = .ok i) :
    coreTodo t u = .run i { u with cur := t, ir := unpackStream w x y z } := by
  simp only [coreTodo, run, stands, precise, fetched, decoded, ne_eq, not_true_eq_false, decide_false, Bool.or_false,
    Bool.false_eq_true, if_false]

end

/-! ### The turns of units and layout engines -/

section

variable {u : State} {t l slot : Nat} {r : Region} {i : Instr} (region : u.regionOf t = some (l, r)) (acts : r.acts = true)
  (parity : (u.tile t).parity.contains slot = false) (may : u.mayRun (deviceOf t) r.fn = true)
  (clock : u.dieStopped (dieOf t) = false) (enabled : u.disabled t = false)
include region acts parity may clock enabled

theorem unitTodo_element (unit : slot < 328) (on : (unpackEl ((u.tile t).slot slot)).enable = true)
    (decoded : decodeEl ((u.tile t).slot slot) = .ok i) : unitTodo t slot u = .run i { u with cur := t, slot := slot } := by
  simp only [unitTodo, region, acts, parity, may, State.tileStops, clock, enabled, Bool.not_true, Bool.or_self, Bool.false_eq_true,
    if_false, if_pos unit, on, if_true, decoded]

theorem unitTodo_router (operator : 328 ≤ slot) (last : slot < 360)
    (on : (unpackRouter (((u.tile t).slot slot).setWidth 64)).enable = true)
    (decoded : decodeRouter (((u.tile t).slot slot).setWidth 64) = .ok i) :
    unitTodo t slot u = .run i { u with cur := t, slot := slot } := by
  simp only [unitTodo, region, acts, parity, may, State.tileStops, clock, enabled, Bool.not_true, Bool.or_self, Bool.false_eq_true,
    if_false, if_neg (Nat.not_lt.2 operator), if_pos last, on, if_true, decoded]

end

theorem layoutTodo_word {u : State} {e : Nat} {l : LayoutRun} {c : Cmd} {w : Word} {i : Instr} (run : u.layoutRun e = some l)
    (cmd : mapGet u.cmds l.cmd = some c) (going : (u.age (layoutAge (e / 16) (e % 16 - 8))).stopped = none)
    (may : u.mayRun (e / 32) c.fn = true) (clock : u.dieStopped (e / 16) = false) (word : l.prog[l.pc]? = some w)
    (decoded : decodeLayout w = .ok i) : layoutTodo e u = .run i { u with engine := e } := by
  simp only [layoutTodo, run, cmd, going, may, clock, word, decoded, Option.isNone_none, Bool.and_self, Bool.not_true,
    Bool.or_self, Bool.false_eq_true, if_false]

/-! ### How much time passes (R156, R292, R313, R412) -/

section

variable {β : Type} {f : Nat → β → Nat}

theorem foldl_le_start (le : ∀ n x, f n x ≤ n) (l : List β) (n : Nat) : l.foldl f n ≤ n := by
  induction l generalizing n with
  | nil => exact Nat.le_refl n
  | cons x l ih => exact (ih (f n x)).trans (le n x)

/-- A fold that only goes down comes at last below what each element makes of some value. -/
theorem foldl_le_of_mem (le : ∀ n x, f n x ≤ n) {l : List β} {x : β} (mem : x ∈ l) (n : Nat) : ∃ m, l.foldl f n ≤ f m x := by
  induction l generalizing n with
  | nil => simp at mem
  | cons y l ih =>
    rcases List.mem_cons.1 mem with rfl | mem
    · exact ⟨n, foldl_le_start le l _⟩
    · exact ih mem _

theorem foldl_eq_start {l : List β} {n : Nat} (same : ∀ x ∈ l, f n x = n) : l.foldl f n = n := by
  induction l with
  | nil => rfl
  | cons x l ih => rw [List.foldl_cons, same x List.mem_cons_self, ih fun y hy => same y (List.mem_cons_of_mem _ hy)]

end

/-- Of n fc on a die, how many the core of one tile lets pass: as many as its `fget` has left where it waits in one with a limit. -/
def State.tileMayPass (s : State) (g t n : Nat) : Nat :=
  if dieOf t ≠ g then n
  else match s.waitOf t with
    | some (.fget _ _ (some limit) since _) => min n (since + limit - (s.die g).cycle)
    | _ => n

theorem State.mayPassCycles_eq (s : State) (g n : Nat) :
    s.mayPassCycles g n = s.tiles.foldl (fun n x => s.tileMayPass g x.1 n) n := rfl

theorem State.tileMayPass_le (s : State) (g t n : Nat) : s.tileMayPass g t n ≤ n := by
  unfold State.tileMayPass
  split
  · exact Nat.le_refl n
  · split
    · exact Nat.min_le_left _ _
    · exact Nat.le_refl n

theorem State.tileMayPass_fget {s : State} {g t port since limit : Nat} {d : BitVec 5} {before} (on : dieOf t = g)
    (waits : s.waitOf t = some (.fget port d (some limit) since before)) (n : Nat) :
    s.tileMayPass g t n = min n (since + limit - (s.die g).cycle) := by
  simp only [State.tileMayPass, on, waits, ne_eq, not_true_eq_false, if_false]

/-- A tile lets all of n fc pass where its `fget`, if it waits in one with a limit, has that many left. -/
theorem State.tileMayPass_eq {s : State} {g t n : Nat}
    (left : ∀ port since limit d before, dieOf t = g → s.waitOf t = some (.fget port d (some limit) since before) →
      (s.die g).cycle + n ≤ since + limit) : s.tileMayPass g t n = n := by
  unfold State.tileMayPass
  split
  · rfl
  · rename_i on
    split
    · rename_i waits
      have := left _ _ _ _ _ (not_not.1 on) waits
      omega
    · rfl

theorem mem_of_mapGet {α : Type} {m : Map α} {k : Nat} {v : α} (h : mapGet m k = some v) : (k, v) ∈ m := by
  induction m with
  | nil => simp [mapGet] at h
  | cons p r ih =>
    obtain ⟨j, u⟩ := p
    by_cases e : j = k
    · simp_all [mapGet]
    · exact List.mem_cons_of_mem _ (ih (by simpa [mapGet, e] using h))

/-- A tile whose core waits is one that the state lists. -/
theorem State.tile_mem_of_waiting {s : State} {t : Nat} {w : Wait} (waits : (s.coreOf t).run = .waiting w) :
    ∃ x ∈ s.tiles, x.1 = t := by
  cases found : mapGet s.tiles t with
  | some x => exact ⟨(t, x), mem_of_mapGet found, rfl⟩
  | none =>
    rw [State.coreOf, State.tile, found] at waits
    cases waits

theorem State.mayPassCycles_le (s : State) (g n : Nat) : s.mayPassCycles g n ≤ n := by
  rw [State.mayPassCycles_eq]
  exact foldl_le_start (fun n (x : Nat × Tile) => s.tileMayPass_le g x.1 n) _ n

theorem State.mayPassCycles_all {s : State} {g n : Nat}
    (left : ∀ t port since limit d before, dieOf t = g → Waits s t (.fget port d (some limit) since before) →
      (s.die g).cycle + n ≤ since + limit) : s.mayPassCycles g n = n := by
  rw [State.mayPassCycles_eq]
  exact foldl_eq_start fun x _ => State.tileMayPass_eq fun port since limit d before on waits =>
    left x.1 port since limit d before on (State.waitOf_some.1 waits)

theorem State.mayPassCycles_limit {s : State} {g n t port since limit : Nat} {d : BitVec 5} {before}
    (passes : 0 < s.mayPassCycles g n) (on : dieOf t = g) (waits : Waits s t (.fget port d (some limit) since before)) :
    (s.die g).cycle + s.mayPassCycles g n ≤ since + limit := by
  obtain ⟨x, mem, rfl⟩ := State.tile_mem_of_waiting waits.2
  obtain ⟨m, below⟩ := foldl_le_of_mem (fun n x => s.tileMayPass_le g x.1 n) mem n
  rw [← State.mayPassCycles_eq, State.tileMayPass_fget on (State.waitOf_some.2 waits)] at below
  omega

/-- What stands at a source is taken at fc 1 of its beat, and the die's count of fc is then what it was. -/
theorem State.passFirst_cycle (s : State) (g n : Nat) : ((s.passFirst g n).die g).cycle = (s.die g).cycle := by
  refine List.foldlRecOn (motive := fun (v : State) => (v.die g).cycle = (s.die g).cycle) _ _ rfl fun v same r _ => ?_
  dsimp only
  split
  · exact same
  · rw [State.die_setDie_same]

theorem State.passCycles_cycle {s : State} {g : Nat} (n : Nat) (clock : s.dieStopped g = false) :
    ((s.passCycles g n).die g).cycle = (s.die g).cycle + s.mayPassCycles g n := by
  rw [State.passCycles, clock, if_neg (by decide)]
  show (State.die (State.setDie _ g _) g).cycle = _
  rw [State.die_setDie_same]
  show ((s.passFirst g _).die g).cycle + _ = _
  rw [State.passFirst_cycle]

/-- Of n µs on a device, how many pass before something is due for one of its tenants. -/
def State.mayPassMicros (s : State) (dev n : Nat) : Nat :=
  (s.device dev).tenants.foldl (fun n p => if p.1 = 16 then n else p.2.mayPass n) n

theorem Tenant.mayPass_le (x : Tenant) (n : Nat) : x.mayPass n ≤ n := by
  unfold Tenant.mayPass
  dsimp only
  split_ifs <;> omega

theorem State.mayPassMicros_le (s : State) (dev n : Nat) : s.mayPassMicros dev n ≤ n := by
  refine foldl_le_start (fun n p => ?_) _ n
  split
  · exact Nat.le_refl n
  · exact p.2.mayPass_le n

theorem State.mayPassMicros_all {s : State} {dev n : Nat} (all : ∀ x ∈ (s.device dev).tenants, x.1 = 16 ∨ x.2.mayPass n = n) :
    s.mayPassMicros dev n = n := by
  refine foldl_eq_start fun x mem => ?_
  rcases all x mem with owner | same
  · exact if_pos owner
  · rw [same, ite_self]

theorem State.passMicros_micros (s : State) (dev n : Nat) :
    ((s.passMicros dev n).device dev).micros = (s.device dev).micros + s.mayPassMicros dev n := by
  refine List.foldlRecOn (motive := fun (v : State) => (v.device dev).micros = _) _ _ ?_ fun v same g _ => same
  rw [State.device_setDevice_same]
  rfl

end Sys2Proof.Machine

namespace Sys2Proof.Proofs

open Sys2Proof.Machine Sys2Proof.Rules

/-- Settles O57: an encoding's first word holds the fields of form A whatever the form, the code maps are inverse, and the decoder's
checks are those of a well-formed instruction. -/
theorem scalarEncoding : Obligations.ScalarEncoding := by
  unfold Obligations.ScalarEncoding
  refine ⟨fun i hi f _ => ?formA, fun i hi f _ => ?formB, fun i hi f _ => ?formC, fun i ws wf h => ?roundTrip⟩
  case formA =>
    obtain ⟨p, h⟩ := asFormA_scalarA i hi f
    exact ⟨_, encode_formA h⟩
  case formB =>
    obtain ⟨ha, p, hb⟩ := asFormB_scalarB i hi f
    exact ⟨_, _, encode_formB ha hb⟩
  case formC =>
    obtain ⟨ha, hb, p, hc⟩ := asFormC_scalarC i hi f
    exact ⟨_, _, _, encode_formC ha hb hc⟩
  case roundTrip =>
    exact ⟨length_encode wf h, by simpa using decodeWords_encode wf h [], decodeWords_encode wf h⟩

/-- Settles O58: the fields of a packed word are those that were packed, and the decoder's checks are those of well-formed fields. -/
theorem wordEncodings : Obligations.WordEncodings := by
  unfold Obligations.WordEncodings
  refine ⟨fun i c ws wf h => ?stream, fun i c w wf h => ?element, fun i c w wf h => ?router, fun i c w wf h => ?layout⟩
  case stream =>
    obtain ⟨code, hi, rfl⟩ := Option.map_eq_some_iff.1 h
    rw [StreamWord.wf_eq c hi] at wf
    rw [packStream_eq]
    exact ⟨decodeScalar_packStream hi wf, rfl, unpackStream_firstStreamWord code c⟩
  case element =>
    obtain ⟨op, hi, rfl⟩ := Option.map_eq_some_iff.1 h
    rw [ElWord.wf_eq c hi] at wf
    exact ⟨decodeEl_packEl hi wf, unpackEl_packEl op c⟩
  case router =>
    obtain ⟨op, hi, rfl⟩ := Option.map_eq_some_iff.1 h
    rw [RouterWord.wf_eq c hi] at wf
    exact ⟨decodeRouter_packRouter hi wf, unpackRouter_packRouter op c⟩
  case layout =>
    obtain ⟨code, hi, rfl⟩ := Option.map_eq_some_iff.1 h
    rw [LayoutWord.wf_eq c hi] at wf
    exact ⟨decodeLayout_packLayout hi wf, unpackLayout_packLayout code c⟩

/-- Settles O55: a fetch by where its words lie, and the decoder's checks in their order, one lemma of the decoder per form. -/
theorem fetchAndDecode : Obligations.FetchAndDecode := by
  unfold Obligations.FetchAndDecode
  refine ⟨fun s t => ⟨State.fetch_unaligned rfl, State.fetch_outside rfl, State.fetch_words rfl, State.fetch_long rfl, wordCount_eq⟩,
    fun w x y z => ⟨fun short => ?scalar, fun long => ?stream⟩⟩
  case scalar =>
    have len : wordCount w ≠ 4 := by rw [wordCount_eq]; omega
    have code := bits_op w
    refine ⟨fun op => decodeScalar_unallocated code x y z len (.inl op),
      fun op sub => decodeScalar_unallocated code x y z len (.inr sub),
      fun op sub => ⟨fun form bad => ?_, fun form b => ?_, fun form bad => ?_, fun form bad => ?_⟩⟩
    · rw [decodeScalar_formA code op sub x y z (by rw [wordCount_eq, form]), bad]; rfl
    · have reserved : ¬ w.extractLsb' 20 5 = 0 := fun zero => b (by rw [← toNat_extractLsb'_b, zero]; rfl)
      have forms : wordCount w = 2 ∨ wordCount w = 3 := by rw [wordCount_eq]; omega
      rcases forms with two | three
      · rw [decodeScalar_formB code op sub x y z two, if_neg (not_and_of_not_left _ reserved)]; rfl
      · rw [decodeScalar_formC code op sub x y z three, if_neg (not_and_of_not_left _ reserved)]; rfl
    · rw [decodeScalar_formB code op sub x y z (by rw [wordCount_eq, form]), bad]; simp
    · rw [decodeScalar_formC code op sub x y z (by rw [wordCount_eq, form]), bad]; simp
  case stream =>
    have len : wordCount w = 4 := by rw [wordCount_eq, long]
    have code := bits_code w
    refine ⟨fun beyond => decodeScalar_noStream code x y z len (streamInstr_none beyond), fun known bad => ?_,
      fun known fields bad => ?_⟩
    · obtain ⟨i, instr⟩ := streamInstr_some known
      rw [decodeScalar_stream code x y z len instr, bad]; rfl
    · obtain ⟨i, instr⟩ := streamInstr_some known
      rw [decodeScalar_stream code x y z len instr, if_pos fields, bad]; rfl

/-- Settles O10: `eret` by its privilege check, which stands before its guard, and each form by what its instructions come to first. -/
theorem guardAndPrivilege : Obligations.GuardAndPrivilege := by
  unfold Obligations.GuardAndPrivilege
  exact ⟨fun s f user outside => exec_eret_user f user outside,
    fun s i => ⟨fun op f => exec_formA_skip, fun op f => exec_formB_skip, fun op f => exec_formC_skip⟩⟩

/-- Settles O44: a command that passes its checks is built as it is captured, and what is captured is read from the issuer's words
and registers. -/
theorem streamCommands : Obligations.StreamCommands := by
  unfold Obligations.StreamCommands
  refine ⟨?issue, ?skip, ?place, ?capture⟩
  case issue =>
    intro r hr s guard present code c n u entA entB bar count values alone
    have issued := issueStream_built r.1 guard present (State.buildCmd_ok rfl entA entB bar count values) alone
    rw [exec_stream r hr, issued]
    exact ⟨fun room => if_pos room, fun full => if_neg (Nat.not_lt.2 full)⟩
  case skip =>
    intro r hr s guard
    rw [exec_stream r hr, issueStream, guarded_false _ _ guard]
    rfl
  case place =>
    intro s t n waits room
    show execStreamQueueAdmit t s = _
    simp only [execStreamQueueAdmit, State.waitOf_some.2 waits]
    exact if_pos room
  case capture =>
    intro s code _ w c
    obtain ⟨words, captured⟩ := s.capture_eq s.coreIssuer code w
    have reg {v : Word} := State.captured_reg s code w words (x := s.coreIssuer) s.core.reg_zero (v := v)
    rw [show c = _ from captured]
    exact ⟨rfl, rfl, rfl, rfl, rfl, rfl, rfl, rfl, s.captured_a _ code w words, s.captured_b _ code w words,
      s.captured_sn _ code w words, reg (.inl rfl), reg (.inr (.inl rfl)), reg (.inr (.inr rfl)),
      State.captured_bar s code w words s.core.reg_zero, fun a => if_pos a, fun b => if_pos b⟩

/-- Settles O54: each turn by what it finds to do, and time by the fold over what may bound it. -/
theorem stepRuns : Obligations.StepRuns := by
  unfold Obligations.StepRuns
  refine ⟨?core, ?imprecise, ?unit, ?layout, ?act, ?cycles, ?micros, fun s => step_unlisted⟩
  case core =>
    intro s u t turn may
    have stands := coreStands_of_turn may
    obtain ⟨run, -, -, -, -, -, precise⟩ := may
    exact ⟨fun w x y z i fetched decoded => step_of_run turn (coreTodo_ok run stands precise fetched decoded),
      fun w x y z e fetched rejected => step_of_idle turn (coreTodo_error run stands precise fetched rejected),
      fun code fval fetched => step_of_idle turn (coreTodo_fails run stands precise fetched)⟩
  case imprecise =>
    intro s u t code fval r turn may imprecise
    have stands := coreStands_of_turn may
    rw [coreStands_setCore (c := { u.coreOf t with imprecise := [] }) rfl rfl] at stands
    have run : (u.coreOf t).run = .running := by simpa using may.1
    exact step_of_idle turn (coreTodo_imprecise run stands imprecise)
  case unit =>
    intro s u t slot l r turn region acts parity may clock enabled
    exact ⟨fun unit on i decoded => step_of_run turn (unitTodo_element region acts parity may clock enabled unit on decoded),
      fun operator last on i decoded =>
        step_of_run turn (unitTodo_router region acts parity may clock enabled operator last on decoded)⟩
  case layout =>
    exact fun s u e l c w turn run cmd going may clock word i decoded =>
      step_of_run turn (layoutTodo_word run cmd going may clock word decoded)
  case act => exact fun s u i turn => step_of_run turn rfl
  case cycles =>
    exact fun s u g n turn clock => ⟨u.passCycles g n, u.mayPassCycles g n, step_of_idle turn rfl, u.mayPassCycles_le g n,
      State.passCycles_cycle n clock, State.mayPassCycles_all,
      fun passes t port since limit d before => State.mayPassCycles_limit passes⟩
  case micros =>
    exact fun s u d n turn => ⟨u.passMicros d n, u.mayPassMicros d n, step_of_idle turn rfl, u.mayPassMicros_le d n,
      u.passMicros_micros d n, State.mayPassMicros_all⟩

/-- Settles O56: the decoder evaluated on each word. -/
theorem sampleWords : Obligations.SampleWords := by
  unfold Obligations.SampleWords
  exact ⟨rfl, rfl, rfl, rfl, rfl, rfl, rfl, rfl, rfl, rfl, rfl, rfl, rfl, rfl, rfl, rfl, rfl, rfl, rfl⟩

end Sys2Proof.Proofs

/-! Proofs about numbers: the draw of FP32 results and the order of their sources (R60, R113, R114), and the packing and block
elements on DATA tokens (R57, R72, R135, R136). -/

namespace Sys2Proof.Machine

open Sys2Proof.Rules

/-! ### A result outside mode SR keeps the generator (R60) -/

theorem nanResult_gen {f : FloatFmt} {g : Word} {vs : List Val} {r : Rounded} (h : nanResult f g vs = some r) : r.gen = g := by
  unfold nanResult at h
  split at h
  case h_3 => cases h
  all_goals
    cases h
    rfl

/-- A choice between a NaN's result and another keeps what both keep. -/
theorem getD_nanResult_gen {f : FloatFmt} {g : Word} {r : Rounded} (vs : List Val) (h : r.gen = g) :
    ((nanResult f g vs).getD r).gen = g := by
  cases hn : nanResult f g vs with
  | none => exact h
  | some n => exact nanResult_gen hn

section
variable {rm : BitVec 3} (h : rm ≠ rmSR) (flush : Bool) (g : Word)
include h

theorem drawIf_eq : drawIf rm g = g := if_neg h

theorem roundFloat_gen (f : FloatFmt) (neg : Bool) (x : Mag) : (roundFloat f rm flush g neg x).gen = g := by
  have same : (if rm = rmSR then srDraw g else g) = g := if_neg h
  simp only [roundFloat, same]
  repeat' split
  all_goals rfl

theorem finishExact_gen (f : FloatFmt) (x : ExactRes) : (finishExact f rm flush g x).gen = g := by
  cases x with
  | invalid => rfl
  | inf n => rfl
  | zero n => exact drawIf_eq h g
  | fin n x => exact roundFloat_gen h flush g f n x

theorem add32_gen (a b : Val) : (add32 rm flush g a b).gen = g := by
  unfold add32
  split
  case h_1 r hn => exact nanResult_gen hn
  case h_2 => exact finishExact_gen h flush g _ _

theorem mul32_gen (a b : Val) : (mul32 rm flush g a b).gen = g := by
  unfold mul32
  split
  case h_1 r hn => exact nanResult_gen hn
  case h_2 => exact finishExact_gen h flush g _ _

theorem fma32_gen (negP negC : Bool) (a b c : Val) : (fma32 rm flush g negP negC a b c).gen = g := by
  unfold fma32
  split
  case h_1 r hn =>
    split
    · exact nanResult_gen (r := r) hn
    · exact nanResult_gen hn
  case h_2 => exact finishExact_gen h flush g _ _

theorem div32_gen (a b : Val) : (div32 rm flush g a b).gen = g := by
  unfold div32
  split
  case h_1 r hn => exact nanResult_gen hn
  case h_2 => exact finishExact_gen h flush g _ _

theorem sqrt32_gen (a : Val) : (sqrt32 rm flush g a).gen = g := by
  unfold sqrt32
  split
  case h_1 r hn => exact nanResult_gen hn
  case h_2 => exact finishExact_gen h flush g _ _

theorem integral32_gen (a : Val) : (integral32 rm g a).gen = g := by
  unfold integral32
  split
  case h_1 r hn => exact nanResult_gen hn
  case h_2 =>
    split
    case h_1 n m e => exact drawIf_eq h g
    case h_2 n => exact drawIf_eq h g
    case h_3 => rfl

end

/-- A minimum or maximum takes no draw in any mode (R115). -/
theorem minmax32_gen (isMax : Bool) (g : Word) (a b : Val) : (minmax32 isMax g a b).gen = g := by
  unfold minmax32
  dsimp only
  split_ifs
  · exact getD_nanResult_gen [a, b] rfl
  · exact getD_nanResult_gen [a] rfl
  all_goals rfl

/-! ### The order of the sources of a sum and a product (R114) -/

theorem nanResult_numbers {a b : Val} (f : FloatFmt) (g : Word) (ha : a.isNan = false) (hb : b.isNan = false) :
    nanResult f g [a, b] = none := by
  simp [nanResult, ha, hb]

/-- Two finite values are added at the lower of their exponents, whichever comes first. -/
theorem addExact_comm (rm : BitVec 3) (a b : Val) : addExact rm a b = addExact rm b a := by
  cases a <;> cases b
  case zero.zero x y => cases x <;> cases y <;> rfl
  case inf.inf x y => cases x <;> cases y <;> rfl
  case fin.fin x m e y n k => simp only [addExact, min_comm e k, Int.add_comm (scaledInt x m e _)]
  all_goals rfl

theorem mulVal_comm (a b : Val) : mulVal a b = mulVal b a := by
  cases a <;> cases b
  case fin.fin x m e y n k => simp only [mulVal, bne_comm (a := x) (b := y), Nat.mul_comm m, Int.add_comm e]
  all_goals simp only [mulVal, Val.sign, bne_comm]

section
variable {a b : Val} (ha : a.isNan = false) (hb : b.isNan = false) (rm : BitVec 3) (flush : Bool) (g : Word)
include ha hb

theorem add32_comm : add32 rm flush g a b = add32 rm flush g b a := by
  simp only [add32, nanResult_numbers fp32 g ha hb, nanResult_numbers fp32 g hb ha, addExact_comm rm a b]

theorem mul32_comm : mul32 rm flush g a b = mul32 rm flush g b a := by
  simp only [mul32, nanResult_numbers fp32 g ha hb, nanResult_numbers fp32 g hb ha, mulVal_comm a b]

end

/-! ### The firing of a unit with an empty output slot (R126, R127) -/

/-- A unit with an empty slot does not wait for itself. -/
theorem State.awaitsSelf_empty {s : State} {t slot : Nat} (r : Region) (h : ((s.tile t).unitAt slot).out = []) :
    s.awaitsSelf r t slot = false := by
  simp [State.awaitsSelf, h]

/-- A unit whose operation can fire fires, and delivers what it leaves in its slot. -/
theorem unitTurn_fires {s u : State} {c : Ctx} {go : Ctx → State → Option State} (fires : Fires s c) (h : go c s = some u) :
    unitTurn go s = fired c u := by
  obtain ⟨l, t, slot, w, op, ent⟩ := c
  obtain ⟨ht, hslot, live, hw, hop, hent, hout⟩ := fires
  obtain ⟨⟨l', r⟩, hr, hl⟩ := Option.map_eq_some_iff.1 live
  simp only [hr, Option.map_some, Option.bind_some] at ht hslot hl hw hop hent
  subst ht hslot hl hop hent
  simp only [unitTurn, hr, hw, hout, List.length_nil, State.deliver, State.awaitsSelf_empty r hout, ne_eq, not_true_eq_false,
    decide_false, Bool.false_and, Bool.false_eq_true, if_false, h]

@[simp] theorem dataTok_isData (v : Word) : (dataTok v).isData = true := rfl
@[simp] theorem dataTok_data (v : Word) : (dataTok v).data = v := rfl
@[simp] theorem dataTok_isErr (v : Word) : (dataTok v).isErr = false := rfl

/-! ### Packing and unpacking (R57, R135) -/

theorem packEl1_data {s : State} {c : Ctx} {v : Word} (h : Data s c 0 v) :
    let t := s.takeIn c 0
    let u := t.unitOf c
    let w := c.width
    let n := u.buf.length + 1
    packEl1 c s = some ((t.setUnitOf c { u with buf := if n = groupLen w then [] else u.buf ++ [dataTok v] }).put c
      (if n * w / 32 = u.buf.length * w / 32 then [] else [dataTok (wordAt (packed w (u.buf ++ [dataTok v])) (n * w / 32 - 1))])) := by
  simp only [packEl1, h, dataTok_isData, if_true]

/-- One word's number is the word. -/
theorem packed_word (v : Word) : packed 32 [dataTok v] = v.toNat := by
  simp [packed, Nat.mod_eq_of_lt v.isLt]

/-- A width that divides a word's is not 6, so that a word completes its elements and stays in no buffer. -/
theorem unpackEl1_data {s : State} {c : Ctx} {v : Word} (h : Data s c 0 v) (empty : ((s.takeIn c 0).unitOf c).buf = [])
    (divides : c.width ∣ 32) (uncapped : c.w.k = 0) :
    let t := s.takeIn c 0
    let u := t.unitOf c
    let w := c.width
    unpackEl1 c s = some ((t.setUnitOf c { u with buf := [], w := [BitVec.ofNat 32 ((u.w.headD 0).toNat + 32 / w)] }).put c
      ((List.range (32 / w)).map fun i => dataTok (BitVec.ofNat 32 (v.toNat / 2 ^ (w * i) % 2 ^ w)))) := by
  have ne : c.width ≠ 6 := by
    intro six
    rw [six] at divides
    omega
  simp only [unpackEl1, h, dataTok_isData, if_true, empty, List.nil_append, packed_word, uncapped, ne, decide_false,
    Bool.false_and, Bool.false_eq_true, if_false, List.length_nil, List.length_singleton, Nat.zero_mul, Nat.zero_div, Nat.one_mul,
    Nat.sub_zero, Nat.zero_add]

/-! ### A block's first element (R136) -/

/-- A DATA token on each input opens a block: the value of in1 is held, what goes first leaves, and the element's result after
it. -/
theorem heldTurn_opens {s : State} {c : Ctx} {v b : Word} (h₀ : Data s c 0 v) (h₁ : Data s c 1 b)
    (closed : (s.unitOf c).held = none) (ready : (s.unitOf c).w.length ≠ 2) (first : Ctx → Token → List Token)
    (convert1 : Ctx → Word → Word → Token → Rounded) :
    let r := convert1 c (s.unitOf c).gen v (dataTok b)
    heldTurn first convert1 c s = some ((((s.takeIn c 0).setUnitOf c
      { s.unitOf c with gen := r.gen, held := some (dataTok b), w := [1] }).raiseRegion c.l r.flags).put c
        (first c (dataTok b) ++ [dataTok (BitVec.ofNat 32 r.bits)])) := by
  simp only [heldTurn, h₀, h₁, closed, ready, dataTok_isData, dataTok_isErr, dataTok_data, Bool.false_eq_true, if_false,
    if_true]

end Sys2Proof.Machine

namespace Sys2Proof.Proofs

open Sys2Proof.Machine Sys2Proof.Rules

/-- Settles O12: outside mode SR every path of a row, a NaN's result too, hands the generator on, and exact sums and products are
symmetric before their rounding. -/
theorem fpDrawAndOrder : Obligations.FpDrawAndOrder := by
  unfold Obligations.FpDrawAndOrder
  refine ⟨fun r hr rm flush gen a b c h => ?_, fun rm flush gen a b c ha hb =>
    ⟨add32_comm ha hb rm flush gen, mul32_comm ha hb rm flush gen⟩⟩
  simp only [fpRows, List.mem_cons, List.not_mem_nil, or_false] at hr
  rcases hr with rfl | rfl | rfl | rfl | rfl | rfl | rfl | rfl | rfl | rfl | rfl | rfl
  · exact add32_gen h flush gen _ _
  · exact add32_gen h flush gen _ _
  · exact mul32_gen h flush gen _ _
  · exact fma32_gen h flush gen false false _ _ _
  · exact fma32_gen h flush gen false true _ _ _
  · exact fma32_gen h flush gen true false _ _ _
  · exact div32_gen h flush gen _ _
  · exact minmax32_gen false gen _ _
  · exact minmax32_gen true gen _ _
  · rfl
  · exact sqrt32_gen h flush gen _
  · exact integral32_gen h gen _

/-- Settles O24: the turn of a unit that fires, with what each operation does on the DATA tokens at its inputs. -/
theorem packAndQuant : Obligations.PackAndQuant := by
  unfold Obligations.PackAndQuant
  intro s c v fires h₀
  refine ⟨unitTurn_fires fires (packEl1_data h₀), fun empty divides uncapped =>
    unitTurn_fires fires (unpackEl1_data h₀ empty divides uncapped), fun b h₁ closed ready => ⟨?_, ?_⟩⟩
  · exact unitTurn_fires fires (heldTurn_opens h₀ h₁ closed ready _ _)
  · exact unitTurn_fires fires (heldTurn_opens h₀ h₁ closed ready _ _)

end Sys2Proof.Proofs

/-! Proofs about the fabric's units: integer values and rows (R132, R137), what a firing leaves unchanged (R126 to R151), elements on
the tokens at their inputs (R126 to R148), the router (R149 to R151), and the fabric's scalar instructions (R152 to R159). -/

namespace Sys2Proof.Machine

open Sys2Proof.Rules

/-! ### Integer operations of elements on 32-bit vectors (R132) -/

theorem plainResult_eq_word (g : Word) {n : Nat} {v : Word} (h : v.toNat = n) : plainResult g n = word g v := by
  subst h
  rfl

/-- A reading of a word, signed or unsigned, gives the word back. -/
@[simp] theorem ofInt_readEl (c : Ctx) (v : Word) : BitVec.ofInt 32 (readEl c v) = v := by
  unfold readEl
  split_ifs
  · rw [BitVec.ofInt_natCast, BitVec.ofNat_toNat, BitVec.setWidth_eq]
  · exact BitVec.ofInt_toInt

/-- Without `.sat` an exact result is taken modulo 2^32. -/
theorem wrapEl_wraps {c : Ctx} (h : c.sub.testBit 0 = false) (g : Word) (x : Int) : wrapEl c g x = word g (BitVec.ofInt 32 x) := by
  simp only [wrapEl, h, Bool.false_eq_true, if_false]
  exact plainResult_eq_word g (by simp)

theorem ofInt_two_pow (n : Nat) : BitVec.ofInt 32 (2 ^ n) = BitVec.twoPow 32 n := by
  apply BitVec.eq_of_toNat_eq
  rw [BitVec.toNat_ofInt, BitVec.toNat_twoPow]
  exact_mod_cast Int.toNat_natCast (2 ^ n % 2 ^ 32)

theorem toNat_sshiftRight_eq (a : Word) (n : Nat) : (a.sshiftRight n).toNat = (a.toInt / 2 ^ n % 2 ^ 32).toNat := by
  simp [BitVec.sshiftRight_eq, BitVec.toNat_ofInt, Int.shiftRight_eq_div_pow]

/-! ### The operations that follow R128 in every row -/

/-- Each constructor of the table fires by its row's inputs and rule, in 32-bit vectors where the model reckons with numbers. -/
theorem exec_simpleRow : ∀ r ∈ simpleRows, ∀ s : State, exec r.1 s = unitTurn (simple r.2.1 r.2.2) s := by
  have shr (a b : Word) : a.toNat / 2 ^ (b.toNat % 32) = (a >>> (b.toNat % 32)).toNat := by
    rw [BitVec.toNat_ushiftRight, Nat.shiftRight_eq_div_pow]
  have sar (a b : Word) : (a.toInt / 2 ^ (b.toNat % 32) % 2 ^ 32).toNat = (a.sshiftRight (b.toNat % 32)).toNat :=
    (toNat_sshiftRight_eq a _).symm
  have cmp (p : Prop) [Decidable p] : (if p then 1 else 0) = (if p then 1 else 0 : Word).toNat := by split_ifs <;> rfl
  have abs (a : Word) : a.toNat % 2 ^ 31 = (a &&& 0x7FFFFFFF#32).toNat := by
    rw [BitVec.toNat_and]
    exact (Nat.and_two_pow_sub_one_eq_mod a.toNat 31).symm
  simp only [simpleRows, List.forall_mem_cons]
  refine ⟨fun _ => rfl, fun _ => rfl, fun _ => rfl, fun _ => rfl, fun _ => rfl, fun _ => rfl, fun _ => rfl, fun _ => rfl, ?shr, ?sar,
    fun _ => rfl, fun _ => rfl, ?cmp, fun _ => rfl, fun _ => rfl, fun _ => rfl, fun _ => rfl, fun _ => rfl, fun _ => rfl, fun _ => rfl,
    fun _ => rfl, ?abs, fun _ => rfl, fun _ => rfl, fun _ => rfl, fun _ => rfl, fun _ => rfl, fun _ => rfl, fun _ => rfl, fun _ => rfl,
    fun _ => rfl, fun _ => rfl, fun _ h => nomatch h⟩
  case shr =>
    intro s
    show execElIshr s = _
    simp only [execElIshr, shr]
    rfl
  case sar =>
    intro s
    show execElIsar s = _
    simp only [execElIsar, sar]
    rfl
  case cmp =>
    intro s
    show execElIcmp s = _
    simp only [execElIcmp, cmp]
    rfl
  case abs =>
    intro s
    show execElFabs s = _
    simp only [execElFabs, abs]
    rfl

/-! ### The value that a row of DATA tokens gathers (R137) -/

section
variable {c : Ctx} (int : c.sub.testBit 0 = true) (g v x : Word)

theorem foldRow_rcnt : foldRow { c with op := 0x2C } g v x = word g (v + 1) := rfl

include int

theorem foldRow_rsum : foldRow { c with op := 0x28 } g v x = word g (v + x) := if_pos int

theorem foldRow_rmax : foldRow { c with op := 0x29 } g v x = word g (if x.toInt ≤ v.toInt then v else x) := if_pos int

theorem foldRow_rmin : foldRow { c with op := 0x2B } g v x = word g (if v.toInt ≤ x.toInt then v else x) := if_pos int

end

/-- A count of tokens is their number modulo 2^32. -/
theorem foldl_succ_eq_length (vs : List Word) (n : Word) : vs.foldl (fun v _ => v + 1) n = n + BitVec.ofNat 32 vs.length := by
  induction vs generalizing n with
  | nil => simp
  | cons x r ih =>
    rw [List.foldl_cons, ih, List.length_cons, BitVec.ofNat_add, BitVec.add_comm (BitVec.ofNat 32 r.length), BitVec.add_assoc]
    rfl

/-- Keeping the greater word in the signed reading gathers the greatest of the readings. -/
theorem toInt_foldl_max (vs : List Word) (v : Word) :
    (vs.foldl (fun v x => if x.toInt ≤ v.toInt then v else x) v).toInt = vs.foldl (fun m x => max m x.toInt) v.toInt := by
  refine (List.foldl_hom BitVec.toInt fun v x => ?_).symm
  rw [apply_ite BitVec.toInt, max_comm, max_def]

theorem toInt_foldl_min (vs : List Word) (v : Word) :
    (vs.foldl (fun v x => if v.toInt ≤ x.toInt then v else x) v).toInt = vs.foldl (fun m x => min m x.toInt) v.toInt := by
  refine (List.foldl_hom BitVec.toInt fun v x => ?_).symm
  rw [apply_ite BitVec.toInt, min_def]

/-! ### What lies outside a tile and a region -/

/-- What a firing on tile t in the region of leader l may not change: every part of the machine but its tiles and regions, the
tile's core, the other tiles and the other regions. -/
def State.outside (t l : Nat) (s : State) : State × Core × ({ u // u ≠ t } → Tile) × ({ k // k ≠ l } → Option Region) :=
  ({ s with tiles := [], regions := [] }, (s.tile t).core, fun u => s.tile u, fun k => mapGet s.regions k)

theorem State.outside_setTile {s : State} {t l : Nat} {x : Tile} (h : x.core = (s.tile t).core) :
    (s.setTile t x).outside t l = s.outside t l := by
  have others : (fun u : { u // u ≠ t } => (s.setTile t x).tile u) = fun u : { u // u ≠ t } => s.tile u :=
    funext fun u => s.tile_setTile_ne t u x u.2
  simp only [State.outside, others, State.tile_setTile_same, h, State.setTile_regions]
  rfl

@[simp] theorem State.outside_setRegion (s : State) (t l : Nat) (r : Region) :
    (s.setRegion l r).outside t l = s.outside t l := by
  have others : (fun k : { k // k ≠ l } => mapGet (mapSet s.regions l r) k) = fun k : { k // k ≠ l } => mapGet s.regions k :=
    funext fun k => mapGet_mapSet_ne s.regions l k r k.2
  simp only [State.outside, State.setRegion, others]
  rfl

@[simp] theorem State.outside_setUnit (s : State) (t l n : Nat) (u : UnitState) :
    (s.setUnit t n u).outside t l = s.outside t l := State.outside_setTile rfl

@[simp] theorem State.outside_setFo (s : State) (t l p : Nat) (q : Port) :
    (s.setFo t p q).outside t l = s.outside t l := State.outside_setTile rfl

@[simp] theorem State.outside_setFi (s : State) (t l p : Nat) (q : Port) :
    (s.setFi t p q).outside t l = s.outside t l := State.outside_setTile rfl

@[simp] theorem State.outside_pushChan (s : State) (t l c : Nat) (k : Token) :
    (s.pushChan t c k).outside t l = s.outside t l := State.outside_setTile rfl

@[simp] theorem State.outside_setInChan (s : State) (t l c : Nat) (q : Channel) :
    (s.setInChan t c q).outside t l = s.outside t l := State.outside_setTile rfl

@[simp] theorem State.outside_emit (s : State) (t l n : Nat) (ks : List Token) :
    (s.emit t n ks).outside t l = s.outside t l := State.outside_setUnit s t l n _

@[simp] theorem State.outside_markTaken (s : State) (t l n id : Nat) :
    (s.markTaken t n id).outside t l = s.outside t l := State.outside_setUnit s t l n _

@[simp] theorem State.outside_settle (s : State) (r : Region) (t l n : Nat) :
    (s.settle r t n).outside t l = s.outside t l := by
  simp only [State.settle]
  split_ifs
  · rfl
  · exact State.outside_setUnit s t l n _
  · rfl

@[simp] theorem State.outside_pushFo (s : State) (t l p : Nat) (k : Token) :
    (s.pushFo l t p k).outside t l = s.outside t l := by
  simp only [State.pushFo]
  split
  · simp
  · split
    · simp
    · simp

@[simp] theorem State.outside_placeOrdered (t l p i fuel : Nat) (s : State) :
    (State.placeOrdered l t p i fuel s).outside t l = s.outside t l := by
  induction fuel generalizing s with
  | zero => rfl
  | succ fuel ih =>
    simp only [State.placeOrdered]
    split
    · rfl
    · split
      · split_ifs
        · rfl
        all_goals simp [ih]
      · rfl

theorem State.outside_of_sendFo {s u : State} {t l p st : Nat} {k : Token} (h : s.sendFo l t p st k = some u) :
    u.outside t l = s.outside t l := by
  simp only [State.sendFo] at h
  split at h
  · cases h
  · split at h
    · cases h
      simp
    · split_ifs at h
      cases h
      simp

@[simp] theorem State.outside_handOn (s : State) (t l n : Nat) (k : Token) :
    (s.handOn l t n k).outside t l = s.outside t l := by
  unfold State.handOn
  split
  · refine List.foldlRecOn (motive := fun (v : State) => v.outside t l = s.outside t l) _ _ rfl fun v h q _ => ?_
    dsimp only
    split
    · exact h
    · split_ifs
      · exact h
      · split
        · exact h
        · simpa using h
  · rfl

@[simp] theorem State.outside_routeHead (s : State) (t l n : Nat) (k : Token) :
    (s.routeHead l t n k).outside t l = s.outside t l := by
  simp only [State.routeHead]
  split_ifs
  · rfl
  · split
    · next h => simpa using State.outside_of_sendFo h
    · rfl
  · simp
  · rfl
  · split
    · rfl
    · split
      · rfl
      · split <;> simp

@[simp] theorem State.outside_deliver (t l n fuel : Nat) (s : State) :
    (State.deliver l t n fuel s).outside t l = s.outside t l := by
  induction fuel generalizing s with
  | zero => rfl
  | succ fuel ih =>
    simp only [State.deliver]
    split
    · rfl
    · split
      · simp
      · split_ifs
        · simp [ih]
        · simp

@[simp] theorem State.outside_takePort (s : State) (r : Region) (t l p id : Nat) :
    (s.takePort r t p id).outside t l = s.outside t l := by
  simp only [State.takePort]
  split_ifs <;> exact State.outside_setFi s t l p _

@[simp] theorem State.outside_takeSrc (s : State) (t l n : Nat) (acc : Bool) (src : Src) :
    (s.takeSrc l t n acc src).outside t l = s.outside t l := by
  simp only [State.takeSrc]
  split
  · rfl
  · cases src with
    | const => rfl
    | out m => cases acc <;> simp
    | queue key => dsimp only; split <;> simp
    | source key => dsimp only; split <;> simp
    | port p => exact State.outside_takePort s _ t l p n
    | chan c => dsimp only; split_ifs <;> exact State.outside_setInChan s t l c _

@[simp] theorem State.outside_raiseRegion (s : State) (t l : Nat) (fl : BitVec 5) :
    (s.raiseRegion l fl).outside t l = s.outside t l := by
  unfold State.raiseRegion
  split
  · rfl
  · exact State.outside_setRegion s t l _

section
variable (s : State) (c : Ctx)

@[simp] theorem State.outside_setUnitOf (u : UnitState) : (s.setUnitOf c u).outside c.t c.l = s.outside c.t c.l :=
  State.outside_setUnit s c.t c.l c.slot u

@[simp] theorem State.outside_put (ks : List Token) : (s.put c ks).outside c.t c.l = s.outside c.t c.l :=
  State.outside_emit s c.t c.l c.slot ks

@[simp] theorem State.outside_takeIn (i : Nat) : (s.takeIn c i).outside c.t c.l = s.outside c.t c.l :=
  State.outside_takeSrc s c.t c.l c.slot false _

@[simp] theorem State.outside_takeAll (is seen : List Nat) : (s.takeAll c is seen).outside c.t c.l = s.outside c.t c.l := by
  induction is generalizing s seen with
  | nil => rfl
  | cons i r ih =>
    simp only [State.takeAll]
    split_ifs
    · exact ih s seen
    · rw [ih, State.outside_takeIn]

end

theorem State.outside_of_gather {s u : State} {c : Ctx} {used : List Nat} {g : Got} (h : s.gather c used = (u, g)) :
    u.outside c.t c.l = s.outside c.t c.l := by
  have kept : (s.gather c used).1.outside c.t c.l = s.outside c.t c.l := by
    simp only [State.gather]
    split
    · exact State.outside_takeIn s c _
    · split_ifs
      · rfl
      · exact State.outside_takeAll s c _ []
      · split
        · split_ifs <;> exact State.outside_takeAll s c _ []
        · rfl
  rwa [h] at kept

section
variable (s : State) (o : OpCtx)

@[simp] theorem OpCtx.outside_take (c : Nat) : (o.take s c).outside o.t o.l = s.outside o.t o.l :=
  State.outside_takeSrc s o.t o.l o.slot false _

@[simp] theorem OpCtx.outside_take2 (c d : Nat) : (o.take2 s c d).outside o.t o.l = s.outside o.t o.l := by
  unfold OpCtx.take2
  split_ifs <;> simp

@[simp] theorem OpCtx.outside_send (c : Nat) (k : Token) : (o.send s c k).outside o.t o.l = s.outside o.t o.l :=
  State.outside_pushChan s o.t o.l c k

@[simp] theorem State.outside_forgetTime (t l c : Nat) : (s.forgetTime t c).outside t l = s.outside t l :=
  State.outside_setInChan s t l c _

end

/-- What lies outside a tile holds whose turn it is. -/
theorem State.cur_of_outside {s u : State} {t l : Nat} (h : u.outside t l = s.outside t l) : u.cur = s.cur :=
  congrArg (fun o => o.1.cur) h

/-- The ways of accesses lie outside every tile and region. -/
theorem State.noWay_of_outside {s u : State} {t l : Nat} (h : u.outside t l = s.outside t l) (dev pa : Nat) :
    u.noWay dev pa = s.noWay dev pa :=
  congrArg (fun o => State.noWay o.1 dev pa) h

/-! ### Turns that keep what lies outside -/

/-- A firing, where there is one, keeps what lies outside its tile and region. -/
def State.Keeps (s : State) (t l : Nat) (fire : Option State) : Prop := ∀ u, fire = some u → u.outside t l = s.outside t l

@[simp] theorem State.keeps_none (s : State) (t l : Nat) : s.Keeps t l none := fun _ h => nomatch h

@[simp] theorem State.keeps_some (s u : State) (t l : Nat) : s.Keeps t l (some u) ↔ u.outside t l = s.outside t l := by
  simp [State.Keeps]

theorem State.Keeps.ite {s : State} {t l : Nat} {p : Prop} [Decidable p] {a b : Option State} (ha : s.Keeps t l a)
    (hb : s.Keeps t l b) : s.Keeps t l (if p then a else b) := by
  split_ifs
  · exact ha
  · exact hb

/-- A turn on tile s.cur leaves the machine as it was, or keeps what lies outside the tile and its region. -/
def State.TurnKeeps (s : State) (out : Out) : Prop :=
  ∀ t, out = .next t → t = s ∨ ∃ l, (s.regionOf s.cur).map Prod.fst = some l ∧ t.outside s.cur l = s.outside s.cur l

/-- Whatever a unit delivers and marks, its turn keeps what its firing keeps. -/
theorem unitTurn_keeps {s : State} {go : Ctx → State → Option State}
    (h : ∀ (c : Ctx) (u : State), c.t = s.cur → u.outside c.t c.l = s.outside c.t c.l → u.Keeps c.t c.l (go c u)) :
    s.TurnKeeps (unitTurn go s) := by
  intro t ht
  simp only [unitTurn] at ht
  split at ht
  case h_2 => cases ht; exact .inl rfl
  case h_1 l r w hr _ =>
    have came := State.outside_deliver s.cur l s.slot ((s.tile s.cur).unitAt s.slot).out.length s
    refine .inr ⟨l, by simp [hr], ?_⟩
    generalize State.deliver l s.cur s.slot ((s.tile s.cur).unitAt s.slot).out.length s = v at ht came
    have marked : (if v.awaitsSelf r s.cur s.slot then v.markTaken s.cur s.slot nobody else v).outside s.cur l =
        s.outside s.cur l := by
      split
      · rw [State.outside_markTaken, came]
      · exact came
    split at ht
    · cases ht
      exact came
    · split at ht
      · cases ht
        exact came
      · next u fires =>
        have kept := (h _ _ rfl marked u fires).trans marked
        split at ht
        · cases ht
          exact came
        · cases ht
          refine (State.outside_deliver s.cur l s.slot _ _).trans (Eq.trans ?_ kept)
          exact State.outside_setTile rfl

/-- The turn of an operator is its firing, which its tile counts. -/
theorem opTurn_keeps {s : State} {go : OpCtx → State → Option State} (h : ∀ o : OpCtx, s.Keeps o.t o.l (go o s)) :
    s.TurnKeeps (opTurn go s) := by
  intro t ht
  simp only [opTurn] at ht
  split at ht
  case h_2 => cases ht; exact .inl rfl
  case h_1 l r w hr _ =>
    refine .inr ⟨l, by simp [hr], ?_⟩
    split at ht
    · cases ht
      rfl
    · next u fires =>
      have kept := h _ u fires
      cases ht
      rw [State.cur_of_outside kept]
      refine Eq.trans ?_ kept
      exact State.outside_setTile rfl

/-- What a turn that keeps the outside leaves as it was, part by part. -/
theorem State.TurnKeeps.frame {s t : State} (h : s.TurnKeeps (.next t)) :
    t = { s with tiles := t.tiles, regions := t.regions } ∧ t.coreOf s.cur = s.coreOf s.cur ∧
    (∀ u, u ≠ s.cur → t.tile u = s.tile u) ∧
    ∀ l, (s.regionOf s.cur).map Prod.fst ≠ some l → mapGet t.regions l = mapGet s.regions l := by
  rcases h t rfl with rfl | ⟨l, live, kept⟩
  · exact ⟨rfl, rfl, fun _ _ => rfl, fun _ _ => rfl⟩
  · obtain ⟨rest, core, tiles, regions⟩ := by simpa only [State.outside, Prod.mk.injEq] using kept
    refine ⟨congrArg (fun v : State => { v with tiles := t.tiles, regions := t.regions }) rest, core,
      fun u other => congrFun tiles ⟨u, other⟩, fun k other => congrFun regions ⟨k, ?_⟩⟩
    rintro rfl
    exact other live

/-! ### The firings of elements -/

section
variable (s : State) (c : Ctx)

theorem simple_keeps (used : List Nat) (f : Calc) : s.Keeps c.t c.l (simple used f c s) := by
  unfold simple
  split
  case h_1 => simp
  all_goals
    next got =>
    simpa using State.outside_of_gather got

theorem reduction_keeps : s.Keeps c.t c.l (reduction c s) := by
  unfold reduction
  split
  · simp
  · dsimp only
    split_ifs <;> simp

theorem packEl1_keeps : s.Keeps c.t c.l (packEl1 c s) := by
  unfold packEl1
  split
  · simp
  · dsimp only
    split_ifs <;> simp

theorem unpackEl1_keeps : s.Keeps c.t c.l (unpackEl1 c s) := by
  unfold unpackEl1
  split
  · simp
  · dsimp only
    split_ifs <;> simp

theorem heldTurn_keeps (first : Ctx → Token → List Token) (convert1 : Ctx → Word → Word → Token → Rounded) :
    s.Keeps c.t c.l (heldTurn first convert1 c s) := by
  unfold heldTurn
  dsimp only
  repeat' split
  all_goals simp

theorem feedLane_keeps : s.Keeps c.t c.l (feedLane c s) := by
  unfold feedLane
  split
  · simp
  · dsimp only
    split_ifs
    · simp [State.outside_setTile]
    · simp

theorem resolveOne_outside (x : Cst) : (resolveOne c x s).outside c.t c.l = s.outside c.t c.l := by simp [resolveOne]

theorem normTurn_keeps : s.Keeps c.t c.l (normTurn c s) := by
  unfold normTurn
  dsimp only
  repeat' split
  all_goals simp [resolveOne_outside]

@[simp] theorem outside_dropA : (dropA c s).outside c.t c.l = s.outside c.t c.l := by
  unfold dropA
  split <;> simp

theorem caddTurn_keeps : s.Keeps c.t c.l (caddTurn c s) := by
  unfold caddTurn
  extract_lets u a b isMark isErr isData bad wholeA wholeB clearA clearB gainA gainB a0 srcA s1 b1 srcB s2
  have keptA (v : State) : (clearA v).outside c.t c.l = v.outside c.t c.l := State.outside_setUnitOf v c _
  have keptB (v : State) : (clearB v).outside c.t c.l = v.outside c.t c.l := State.outside_setUnitOf v c _
  refine .ite ?_ (.ite ?_ (.ite ?_ (.ite ?_ (.ite ?_ (.ite ?_ (.ite ?_ (.ite ?_ ?gains)))))))
  case gains =>
    have kept1 : s1.outside c.t c.l = s.outside c.t c.l := by
      simp only [s1, a0]
      split_ifs <;> simp
    have keptB1 : b1.outside c.t c.l = s1.outside c.t c.l := by
      simp only [b1]
      split_ifs <;> simp
    have kept2 : s2.outside c.t c.l = s.outside c.t c.l := by
      simp only [s2]
      split_ifs <;> simp [kept1, keptB1]
    exact .ite ((s.keeps_some _ _ _).2 kept2) (s.keeps_none _ _)
  all_goals simp [keptA, keptB]
  split_ifs <;> simp

theorem accTurn_keeps : s.Keeps c.t c.l (accTurn c s) := by
  unfold accTurn
  split
  · simp
  · dsimp only
    repeat' split
    all_goals simp

end

/-- Where every access of the tile's device has its way, no memory node stops its region. -/
theorem nodeTurn_keeps {s : State} {c : Ctx} (way : ∀ pa, s.noWay (deviceOf c.t) pa = false) (used : List Nat) (access : Nat)
    {perform : Ctx → State → Nat → Word → Option State} (h : ∀ (u : State) pa v, u.Keeps c.t c.l (perform c u pa v)) :
    s.Keeps c.t c.l (nodeTurn used access perform c s) := by
  unfold nodeTurn
  extract_lets user unit relatch
  refine .ite (s.keeps_none _ _) ?_
  split
  case h_1 => exact s.keeps_none _ _
  case h_2 u k got => simpa using State.outside_of_gather got
  case h_3 u got => simpa using State.outside_of_gather got
  case h_4 u k got =>
    refine .ite ?_ ?_
    all_goals simpa using State.outside_of_gather got
  case h_5 u vs got =>
    have kept := State.outside_of_gather got
    split
    case h_1 cause _ => simpa using kept
    case h_2 pa _ =>
      rw [if_neg (by simp [State.noWay_of_outside kept, way])]
      exact fun v fires => (h u pa _ v fires).trans kept

section
variable (s : State)

theorem execElLut_keeps : s.TurnKeeps (execElLut s) := unitTurn_keeps fun c u _ _ => simple_keeps u c _ _

theorem execElScan_keeps : s.TurnKeeps (execElScan s) := unitTurn_keeps fun c u _ _ => by
  split
  · simp
  · split_ifs <;> simp

theorem execElMstrip_keeps : s.TurnKeeps (execElMstrip s) := unitTurn_keeps fun c u _ _ => by
  split
  · simp
  · dsimp only
    split_ifs <;> simp

theorem execElMins_keeps : s.TurnKeeps (execElMins s) := unitTurn_keeps fun c u _ _ => by
  dsimp only
  refine .ite (by simp) ?_
  split
  · simp
  · split_ifs <;> simp

theorem execElConst_keeps : s.TurnKeeps (execElConst s) := unitTurn_keeps fun c u _ _ => by
  split <;> simp

theorem execElIota_keeps : s.TurnKeeps (execElIota s) := unitTurn_keeps fun c u _ _ => by
  split
  · simp
  · dsimp only
    split_ifs <;> simp

theorem execElErr_keeps : s.TurnKeeps (execElErr s) := unitTurn_keeps fun c u _ _ => by
  split <;> simp

theorem execElBsplit_keeps : s.TurnKeeps (execElBsplit s) := unitTurn_keeps fun c u _ _ => by
  split <;> simp

theorem execElBjoin_keeps : s.TurnKeeps (execElBjoin s) := unitTurn_keeps fun c u _ _ => by
  split
  · simp
  · dsimp only
    split_ifs <;> simp

theorem execElSel_keeps : s.TurnKeeps (execElSel s) := unitTurn_keeps fun c u _ _ => by
  split
  · simp
  · refine .ite (by simp) (.ite (.ite (by simp) ?data) ?marker)
    case data => split <;> simp
    case marker => split <;> simp

theorem execElDsel_keeps : s.TurnKeeps (execElDsel s) := unitTurn_keeps fun c u _ _ => by
  dsimp only
  split
  case h_1 => simp
  case h_2 v k got => simpa using State.outside_of_gather got
  case h_3 v _ _ _ got =>
    have kept := State.outside_of_gather got
    split
    · split_ifs <;> simp [kept]
    · simp

theorem execElJoin_keeps : s.TurnKeeps (execElJoin s) := unitTurn_keeps fun c u _ _ => by
  dsimp only
  split
  case h_1 => simp
  case h_2 v k got => simpa using State.outside_of_gather got
  case h_3 v _ _ _ got => simpa using State.outside_of_gather got

theorem execElGate_keeps : s.TurnKeeps (execElGate s) := unitTurn_keeps fun c u _ _ => by
  split
  case h_1 => simp
  case h_5 v vs got =>
    have kept := State.outside_of_gather got
    split_ifs <;> simp [kept]
  all_goals
    next got =>
    simpa using State.outside_of_gather got

theorem execElMrd_keeps (way : ∀ pa, s.noWay (deviceOf s.cur) pa = false) : s.TurnKeeps (execElMrd s) := by
  refine unitTurn_keeps fun c u tile kept => nodeTurn_keeps (fun pa => ?_) _ _ fun v pa x => ?_
  · rw [State.noWay_of_outside kept, tile]
    exact way pa
  · dsimp only
    split_ifs <;> simp

theorem execElMwr_keeps (way : ∀ pa, s.noWay (deviceOf s.cur) pa = false) : s.TurnKeeps (execElMwr s) := by
  refine unitTurn_keeps fun c u tile kept => nodeTurn_keeps (fun pa => ?_) _ _ fun v pa x => ?_
  · rw [State.noWay_of_outside kept, tile]
    exact way pa
  · simp

/-- The intake of a delay takes a token into the unit's buffer, and no turn counts it (R140). -/
theorem execElDelayIntake_keeps : s.TurnKeeps (execElDelayIntake s) := by
  intro t ht
  simp only [execElDelayIntake] at ht
  split at ht
  case h_2 => cases ht; exact .inl rfl
  case h_1 l r w hr _ =>
    refine .inr ⟨l, by simp [hr], ?_⟩
    split at ht
    · split at ht
      · cases ht
        rfl
      · cases ht
        exact (State.outside_setUnitOf _ _ _).trans (State.outside_takeIn _ _ _)
    · cases ht
      rfl

/-! ### The firings of operators -/

theorem steerTurn_keeps (o : OpCtx) : s.Keeps o.t o.l (steerTurn o s) := by
  unfold steerTurn
  dsimp only
  split
  · split
    all_goals exact .ite (by simp) (by simp)
  · simp

theorem mergeTurn_keeps (o : OpCtx) : s.Keeps o.t o.l (mergeTurn o s) := by
  unfold mergeTurn
  dsimp only
  refine .ite (by simp) ?_
  split
  case h_4 => exact .ite (by simp) (by simp)
  all_goals simp

theorem carryTurn_keeps (o : OpCtx) : s.Keeps o.t o.l (carryTurn o s) := by
  unfold carryTurn
  dsimp only
  refine .ite ?init ?loop
  case init =>
    split
    · exact .ite (by simp) (by simp)
    · simp
  case loop =>
    split
    · simp
    · refine .ite (.ite (by simp) (by simp)) (.ite (by simp) ?_)
      split
      · exact .ite (by simp) (by simp)
      · simp

theorem execFork_keeps : s.TurnKeeps (execFork s) := opTurn_keeps fun o => by
  dsimp only
  split
  · exact .ite (by simp) (by simp)
  · simp

theorem execDrop_keeps : s.TurnKeeps (execDrop s) := opTurn_keeps fun o => by
  dsimp only
  split
  · split
    case h_1 => exact .ite (by simp) (.ite (by simp) (by simp))
    all_goals exact .ite (by simp) (by simp)
  · simp

end

/-! ### What the used inputs hold, by the rows of R128 -/

/-- A unit whose operation cannot fire leaves the machine as it was. -/
theorem unitTurn_waits {s : State} {c : Ctx} {go : Ctx → State → Option State} (fires : Fires s c) (h : go c s = none) :
    unitTurn go s = .next s := by
  obtain ⟨l, t, slot, w, op, ent⟩ := c
  obtain ⟨ht, hslot, live, hw, hop, hent, hout⟩ := fires
  obtain ⟨⟨l', r⟩, hr, hl⟩ := Option.map_eq_some_iff.1 live
  simp only [hr, Option.map_some, Option.bind_some] at ht hslot hl hw hop hent
  subst ht hslot hl hop hent
  simp only [unitTurn, hr, hw, hout, List.length_nil, State.deliver, State.awaitsSelf_empty r hout, ne_eq, not_true_eq_false,
    decide_false, Bool.false_and, Bool.false_eq_true, if_false, h]

/-- The used inputs that do not name k. -/
def Ctx.live (c : Ctx) (used : List Nat) : List Nat := used.filter fun i => elInput c.w i ≠ selK

/-- An input that names k reads k. -/
theorem State.peekIn_selK {s : State} {c : Ctx} {i : Nat} (h : elInput c.w i = selK) :
    ((s.peekIn c i).map Token.data).getD c.w.k = c.w.k := by
  unfold State.peekIn
  split
  · rfl
  · next r hr => simp [State.inputSrc, hr, State.srcOf, h, State.peekSrc]

/-- In a rising list the least member with a property is the first one. -/
theorem find?_eq_some_of_least {l : List Nat} {p : Nat → Bool} {i : Nat} (rising : l.Pairwise (· < ·)) (mem : i ∈ l) (hi : p i = true)
    (least : ∀ j ∈ l, j < i → p j = false) : l.find? p = some i := by
  obtain ⟨before, after, rfl⟩ := List.append_of_mem mem
  refine List.find?_eq_some_iff_append.2 ⟨hi, before, after, rfl, fun j hj => ?_⟩
  have lt : j < i := (List.pairwise_append.1 rising).2.2 j hj i List.mem_cons_self
  simp [least j (List.mem_append_left _ hj) lt]

section
variable {s : State} {c : Ctx} {used : List Nat}

/-- The first live input that holds an ERR. -/
def State.firstErr (s : State) (c : Ctx) (used : List Nat) : Option (Nat × Option Token) :=
  ((c.live used).map fun i => (i, s.peekIn c i)).find? fun h => match h.2 with
    | some k => k.isErr
    | none => false

theorem State.firstErr_eq : s.firstErr c used =
    ((c.live used).map fun i => (i, s.peekIn c i)).find? fun h => h.2.any Token.isErr := by
  refine congrArg (List.find? · _) (funext fun h => ?_)
  cases h.2 <;> rfl

theorem State.gather_of_firstErr {i : Nat} {k : Token} (h : s.firstErr c used = some (i, some k)) :
    s.gather c used = (s.takeIn c i, .err k) := by
  dsimp only [State.gather]
  split
  case h_1 j m found =>
    cases h.symm.trans found
    rfl
  case h_2 other => exact absurd h (other i k)

theorem State.gather_err {i : Nat} {k : Token} (rising : used.Pairwise (· < ·)) (mem : i ∈ c.live used)
    (head : s.peekIn c i = some k) (err : k.isErr = true)
    (first : ∀ j ∈ c.live used, j < i → ∀ m, s.peekIn c j = some m → m.isErr = false) :
    s.gather c used = (s.takeIn c i, .err k) := by
  have least : (c.live used).find? (fun j => (s.peekIn c j).any Token.isErr) = some i := by
    refine find?_eq_some_of_least (rising.filter _) mem (by simp [head, err]) fun j hj lt => ?_
    cases hm : s.peekIn c j with
    | none => rfl
    | some m => exact first j hj lt m hm
  refine State.gather_of_firstErr ?_
  rw [State.firstErr_eq, List.find?_map]
  exact (congrArg _ least).trans (by simp [head])

/-- The tokens at the heads of the live inputs, where each of them holds one. -/
def State.liveTokens (s : State) (c : Ctx) (used : List Nat) : List Token :=
  (c.live used).map fun i => (s.peekIn c i).getD eorTok

section
variable (noErr : ∀ i ∈ c.live used, ∀ m, s.peekIn c i = some m → m.isErr = false)
include noErr

theorem State.firstErr_none : s.firstErr c used = none := by
  simp only [State.firstErr_eq, List.find?_eq_none, List.mem_map]
  rintro _ ⟨i, hi, rfl⟩
  cases hm : s.peekIn c i with
  | none => simp
  | some m => simp [noErr i hi m hm]

theorem State.gather_wait (missing : ∃ i ∈ c.live used, s.peekIn c i = none) : s.gather c used = (s, .wait) := by
  have noFirst := State.firstErr_none noErr
  dsimp only [State.gather]
  split
  case h_1 j m found => cases noFirst.symm.trans found
  case h_2 =>
    obtain ⟨i, hi, hm⟩ := missing
    exact if_pos (List.any_eq_true.2 ⟨_, List.mem_map.2 ⟨i, hi, rfl⟩, by simp [hm]⟩)

/-- Where every live input holds a token and none an ERR, the kinds of the tokens decide. -/
theorem State.gather_tokens (present : ∀ i ∈ c.live used, (s.peekIn c i).isSome = true) :
    let toks := s.liveTokens c used
    let taken := s.takeAll c (c.live used) []
    s.gather c used = if toks.all Token.isData
      then (taken, .data (used.map fun i => ((s.peekIn c i).map Token.data).getD c.w.k))
      else if toks.all fun j => j.kind = (toks.headD eorTok).kind then (taken, .marker (toks.headD eorTok))
      else (taken, .mixed) := by
  have noFirst := State.firstErr_none noErr
  have all : ¬((c.live used).map fun i => (i, s.peekIn c i)).any (fun h => h.2.isNone) = true := by
    simpa [Option.isSome_iff_ne_none] using present
  have held : ((c.live used).map fun i => (i, s.peekIn c i)).filterMap (fun h => h.2) = s.liveTokens c used := by
    rw [List.filterMap_map, State.liveTokens, ← List.filterMap_eq_map]
    refine List.filterMap_congr fun i hi => ?_
    obtain ⟨m, hm⟩ := Option.isSome_iff_exists.1 (present i hi)
    simp [hm]
  dsimp only [State.gather]
  split
  case h_1 j m found => cases noFirst.symm.trans found
  case h_2 =>
    refine (if_neg all).trans ?_
    rw [Ctx.live] at held
    rw [held]
    refine ite_congr rfl (fun _ => rfl) fun mixed => ?_
    cases hl : s.liveTokens c used with
    | nil => exact absurd (by rw [hl]; rfl) mixed
    | cons k r => simp [Ctx.live]

theorem State.gather_marker {k : Token} (first : (c.live used).head?.bind (s.peekIn c) = some k) (marker : k.isData = false)
    (kinds : ∀ i ∈ c.live used, ∃ m, s.peekIn c i = some m ∧ m.kind = k.kind) :
    s.gather c used = (s.takeAll c (c.live used) [], .marker k) := by
  have present : ∀ i ∈ c.live used, (s.peekIn c i).isSome = true := fun i hi =>
    let ⟨_, hm, _⟩ := kinds i hi
    Option.isSome_of_eq_some hm
  obtain ⟨r, hr⟩ : ∃ r, s.liveTokens c used = k :: r := by
    unfold State.liveTokens
    cases hl : c.live used with
    | nil => simp [hl] at first
    | cons i r =>
      simp only [hl, List.head?_cons, Option.bind_some] at first
      exact ⟨_, by rw [List.map_cons, first]; rfl⟩
  have same : ∀ j ∈ s.liveTokens c used, j.kind = k.kind := by
    simp only [State.liveTokens, List.forall_mem_map]
    intro i hi
    obtain ⟨m, hm, kind⟩ := kinds i hi
    rw [hm]
    exact kind
  rw [State.gather_tokens noErr present, if_neg (by simp [hr, marker]), if_pos (by simpa [hr] using same), hr]
  rfl

theorem State.gather_mixed (present : ∀ i ∈ c.live used, (s.peekIn c i).isSome = true)
    (differ : ∃ i ∈ c.live used, ∃ j ∈ c.live used, (s.peekIn c i).map Token.kind ≠ (s.peekIn c j).map Token.kind) :
    s.gather c used = (s.takeAll c (c.live used) [], .mixed) := by
  have uneven (kind : BitVec 3) : ¬ ∀ k ∈ s.liveTokens c used, k.kind = kind := by
    intro same
    obtain ⟨i, hi, j, hj, ne⟩ := differ
    have reads {i : Nat} (hi : i ∈ c.live used) : (s.peekIn c i).map Token.kind = some kind := by
      obtain ⟨m, hm⟩ := Option.isSome_iff_exists.1 (present i hi)
      have := same m (List.mem_map.2 ⟨i, hi, by rw [hm]; rfl⟩)
      rw [hm, Option.map_some, this]
    exact ne ((reads hi).trans (reads hj).symm)
  rw [State.gather_tokens noErr present, if_neg, if_neg]
  · simpa using uneven _
  · simpa [Token.isData] using uneven kData

end

theorem State.gather_data {v : Nat → Word} (data : ∀ i ∈ c.live used, Data s c i (v i))
    (const : ∀ i ∈ used, elInput c.w i = selK → v i = c.w.k) :
    s.gather c used = (s.takeAll c (c.live used) [], .data (used.map v)) := by
  have noErr : ∀ i ∈ c.live used, ∀ m, s.peekIn c i = some m → m.isErr = false := by
    intro i hi m hm
    cases (data i hi).symm.trans hm
    rfl
  rw [State.gather_tokens noErr fun i hi => Option.isSome_of_eq_some (data i hi), if_pos]
  · have values : used.map (fun i => ((s.peekIn c i).map Token.data).getD c.w.k) = used.map v := by
      refine List.map_congr_left fun i hi => ?_
      by_cases hk : elInput c.w i = selK
      · rw [State.peekIn_selK hk, const i hi hk]
      · rw [data i (List.mem_filter.2 ⟨hi, by simpa using hk⟩)]
        rfl
    rw [values]
  · simp only [State.liveTokens, List.all_map, List.all_eq_true, Function.comp_apply]
    intro i hi
    rw [data i hi]
    rfl

/-! ### Operations that follow R128 in every row -/

section
variable {f : Calc} {u : State}

theorem simple_wait (h : s.gather c used = (u, .wait)) : simple used f c s = none := by simp only [simple, h]

theorem simple_err {k : Token} (h : s.gather c used = (u, .err k)) : simple used f c s = some (u.put c [k]) := by
  simp only [simple, h]

theorem simple_marker {k : Token} (h : s.gather c used = (u, .marker k)) : simple used f c s = some (u.put c [k]) := by
  simp only [simple, h]

theorem simple_mixed (h : s.gather c used = (u, .mixed)) : simple used f c s = some (u.put c [u.errOf c 0x14]) := by
  simp only [simple, h]

theorem simple_data {vs : List Word} (h : s.gather c used = (u, .data vs)) : simple used f c s =
    some (emits c u (f c (u.unitOf c).gen (vs[0]?.getD 0) (vs[1]?.getD 0) (vs[2]?.getD 0))) := by
  simp only [simple, h]

end

end

/-- The operations of R132 to R135 use the first one, two or three inputs. -/
theorem used_of_simpleRow {r : Instr × List Nat × Calc} (row : r ∈ simpleRows) : ∃ n, r.2.1 = List.range n := by
  have used : ∀ r ∈ simpleRows, r.2.1 ∈ [List.range 1, List.range 2, List.range 3] := by
    simp [simpleRows, List.range_succ]
  simp only [List.mem_cons, List.not_mem_nil, or_false] at used
  rcases used r row with h | h | h
  · exact ⟨1, h⟩
  · exact ⟨2, h⟩
  · exact ⟨3, h⟩

theorem execElLut_data {s u : State} {c : Ctx} {vs : List Word} (fires : Fires s c) (got : s.gather c [0, 1, 2] = (u, .data vs)) :
    let v := lutBits (s.tile c.t) (c.slot - 256) (vs[0]?.getD 0) (vs[1]?.getD 0) (vs[2]?.getD 0) 32 0 (c.w.k.getLsbD 0)
    execElLut s = fired c (emits c u { bits := v, flags := 0, gen := (u.unitOf c).gen }) :=
  unitTurn_fires fires (simple_data
    (f := fun c g a b d => plainResult g (lutBits (s.tile c.t) (c.slot - 256) a b d 32 0 (c.w.k.getLsbD 0))) got)

/-! ### Reductions and scans (R137, R138) -/

theorem reduction_data {s : State} {c : Ctx} {k : Token} (head : s.peekIn c 0 = some k) (data : k.isData = true) :
    let t := s.takeIn c 0
    let u := t.unitOf c
    let r := folded c u k.data
    reduction c s = some ((t.setUnitOf c { u with w := [BitVec.ofNat 32 r.bits], gen := r.gen }).raiseRegion c.l r.flags) := by
  simp only [reduction, head, data, if_true]

theorem Token.isData_of_ends {k : Token} (h : k.ends = true) : k.isData = false := by
  cases hd : k.isData with
  | false => rfl
  | true =>
    have kind : k.kind = kData := by simpa [Token.isData] using hd
    simp [Token.ends, kind, kData, kEor, kEot] at h

theorem reduction_ends {s : State} {c : Ctx} {k : Token} (head : s.peekIn c 0 = some k) (ends : k.ends = true) :
    let t := s.takeIn c 0
    let u := t.unitOf c
    reduction c s = some ((t.setUnitOf c { u with w := [] }).put c [dataTok (gathered c u), k]) := by
  simp only [reduction, head, Token.isData_of_ends ends, ends, Bool.false_eq_true, if_false, if_true]

theorem execElScan_data {s : State} {c : Ctx} {v : Word} (fires : Fires s c) (head : Data s c 0 v) :
    let t := s.takeIn c 0
    let u := t.unitOf c
    let r := folded c u v
    execElScan s = fired c (((t.setUnitOf c { u with w := [BitVec.ofNat 32 r.bits], gen := r.gen }).raiseRegion c.l r.flags).put c
      [dataTok (BitVec.ofNat 32 r.bits)]) := by
  refine unitTurn_fires fires ?_
  simp only [head, dataTok_isData, if_true, dataTok_data]

/-! ### Stream and marker elements on the token at in0 (R138, R139, R141, R144) -/

/-- A field of a word, cut out by arithmetic or as bits. -/
theorem ofNat_field (v : Word) (f j : Nat) :
    BitVec.ofNat 32 (v.toNat / 2 ^ (f * j) % 2 ^ f) = (v.extractLsb' (f * j) f).setWidth 32 := by
  rw [← BitVec.ofNat_toNat, BitVec.extractLsb'_toNat, Nat.shiftRight_eq_div_pow]

section
variable {s : State} {c : Ctx} {k : Token} (fires : Fires s c) (head : s.peekIn c 0 = some k)
include fires head

theorem execElMstrip_token : execElMstrip s = fired c
    (if (k.kind = kEor ∧ c.sub.testBit 0) ∨ (k.kind = kEot ∧ c.sub.testBit 1) ∨ (k.kind = kBound ∧ c.sub.testBit 2)
      then s.takeIn c 0 else (s.takeIn c 0).put c [k]) := by
  refine unitTurn_fires fires ?_
  simp only [head, Bool.or_eq_true, Bool.and_eq_true, decide_eq_true_eq, or_assoc]

theorem execElConst_token : execElConst s = fired c ((s.takeIn c 0).put c [if k.isData then dataTok c.w.k else k]) := by
  refine unitTurn_fires fires ?_
  simp only [head]

theorem execElErr_token : execElErr s = fired c
    ((s.takeIn c 0).put c [if k.isData ∧ k.data ≠ 0 then s.errOf c (c.w.k.setWidth 7) else k]) := by
  refine unitTurn_fires fires ?_
  simp only [head, Bool.and_eq_true, decide_eq_true_eq]

variable (data : k.isData = true)
include data

theorem execElIota_data :
    let t := s.takeIn c 0
    let u := t.unitOf c
    execElIota s = fired c ((t.setUnitOf c { u with w := [u.w.headD c.w.k + 1] }).put c [dataTok (u.w.headD c.w.k)]) := by
  refine unitTurn_fires fires ?_
  simp only [head, data, if_true]

theorem execElBsplit_data : execElBsplit s = fired c ((s.takeIn c 0).put c ((List.range (32 / 2 ^ (c.sub % 8))).map fun j =>
    dataTok (k.data.extractLsb' (2 ^ (c.sub % 8) * j) (2 ^ (c.sub % 8)) |>.setWidth 32))) := by
  refine unitTurn_fires fires ?_
  simp only [head, data, if_true, Ctx.field, ofNat_field]

theorem execElBjoin_whole (whole : ((s.takeIn c 0).unitOf c).buf.length + 1 = 32 / 2 ^ (c.sub % 8)) :
    let t := s.takeIn c 0
    let u := t.unitOf c
    execElBjoin s = fired c ((t.setUnitOf c { u with buf := [] }).put c [dataTok (joined (2 ^ (c.sub % 8)) (u.buf ++ [k]))]) := by
  refine unitTurn_fires fires ?_
  simp only [head, data, Ctx.field, List.length_append, List.length_singleton, whole, if_true]

theorem execElMins_counts (mode : c.sub = 0) (few : ((s.unitOf c).w.headD 0 + 1).toNat < c.w.k.toNat) :
    let t := s.takeIn c 0
    execElMins s = fired c ((t.setUnitOf c { t.unitOf c with w := [(s.unitOf c).w.headD 0 + 1] }).put c [k]) := by
  refine unitTurn_fires fires ?_
  simp only [head, data, mode, Nat.zero_ne_one, decide_false, Bool.false_and, Bool.false_eq_true, if_false, if_true,
    Nat.not_le.2 few]

theorem execElMins_ends (mode : c.sub = 0) (many : c.w.k.toNat ≤ ((s.unitOf c).w.headD 0 + 1).toNat) :
    let t := s.takeIn c 0
    execElMins s = fired c ((t.setUnitOf c { t.unitOf c with w := [] }).put c [k, eorTok]) := by
  refine unitTurn_fires fires ?_
  simp only [head, data, mode, Nat.zero_ne_one, decide_false, Bool.false_and, Bool.false_eq_true, if_false, if_true, many]

end

/-! ### Switching elements (R141) -/

section
variable {s t : State} {c : Ctx} (fires : Fires s c)
include fires

theorem execElSel_selects {v : Word} {a : Token} (head : Data s c 0 v) (small : v.toNat < 2)
    (chosen : s.peekIn c (1 + v.toNat) = some a) :
    execElSel s = fired c ((s.takeAll c [0, 1 + v.toNat] []).put c [a]) := by
  refine unitTurn_fires fires ?_
  simp only [head, dataTok_isErr, dataTok_isData, dataTok_data, Bool.false_eq_true, if_false, if_true, ge_iff_le,
    Nat.not_le.2 small, chosen]

theorem execElSel_beyond {v : Word} (head : Data s c 0 v) (large : 2 ≤ v.toNat) :
    execElSel s = fired c ((s.takeIn c 0).put c [s.errOf c 0x15]) := by
  refine unitTurn_fires fires ?_
  simp only [head, dataTok_isErr, dataTok_isData, dataTok_data, Bool.false_eq_true, if_false, if_true, ge_iff_le, large]

theorem execElDsel_data {v a : Word} {vs : List Word} (got : s.gather c [0, 1] = (t, .data vs)) (index : Data s c 0 v)
    (value : Data s c 1 a) (within : v.toNat ≤ c.sub) :
    execElDsel s = fired c (if v.toNat = c.w.k.toNat % 256 then t.put c [dataTok a] else t) := by
  refine unitTurn_fires fires ?_
  simp only [got, index, value, dataTok_isData, dataTok_data, Bool.not_true, Bool.false_eq_true, if_false, gt_iff_lt, Nat.not_lt.2 within]
  rfl

theorem execElJoin_data {vs : List Word} {h : Token} (got : s.gather c [0, 1, 2] = (t, .data vs)) (head : s.peekIn c 0 = some h) :
    execElJoin s = fired c (t.put c [h]) := by
  refine unitTurn_fires fires ?_
  simp only [got, head, Option.toList_some]

theorem execElGate_data {a v : Word} (got : s.gather c [0, 1] = (t, .data [a, v])) :
    execElGate s = fired c (if v ≠ 0 then t.put c [dataTok a] else t) := by
  refine unitTurn_fires fires ?_
  simp only [got]
  rfl

end

/-! ### Delays (R140) -/

theorem execElDelayIntake_takes {s : State} {c : Ctx} {k : Token} (tile : c.t = s.cur) (slot : c.slot = s.slot) (op : c.op = 0x30)
    (ent : c.ent = 0) (live : (s.regionOf s.cur).map Prod.fst = some c.l) (word : (s.tile s.cur).el s.slot = some c.w)
    (room : (s.unitOf c).buf.length + (s.unitOf c).out.length < c.w.k.toNat) (head : s.peekIn c 0 = some k) :
    let t := s.takeIn c 0
    execElDelayIntake s = .next (t.setUnitOf c { t.unitOf c with buf := (t.unitOf c).buf ++ [k] }) := by
  obtain ⟨l, t, n, w, o, e⟩ := c
  obtain ⟨⟨l', r⟩, hr, hl⟩ := Option.map_eq_some_iff.1 live
  dsimp only at tile slot op ent hl word room head ⊢
  subst tile slot op ent hl
  simp only [execElDelayIntake, hr, word, room, if_true, head]

theorem execElDelayOutput_moves {s : State} {t slot l : Nat} {g : Region} {k : Token} {r : List Token} (live : s.regionOf t = some (l, g))
    (acts : g.acts = true) (may : s.mayRun (deviceOf t) g.fn = true) (runs : s.tileStops t = false)
    (word : ((s.tile t).el slot).isSome = true) (op : (s.tile t).elOp slot = 0x30) (empty : ((s.tile t).unitAt slot).out = [])
    (oldest : ((s.tile t).unitAt slot).buf = k :: r) :
    execElDelayOutput t slot s = .next (State.deliver l t slot 1
      ((s.setUnit t slot { (s.tile t).unitAt slot with buf := r }).emit t slot [k])) := by
  obtain ⟨w, hw⟩ := Option.isSome_iff_exists.1 word
  simp [execElDelayOutput, live, hw, op, acts, may, runs, empty, oldest, State.deliver]

/-! ### A unit's state after it is set -/

@[simp] theorem State.unitAt_setUnit (s : State) (t n : Nat) (u : UnitState) : ((s.setUnit t n u).tile t).unitAt n = u := by
  simp [State.setUnit, Tile.unitAt]

@[simp] theorem State.setUnit_setUnit (s : State) (t n : Nat) (u v : UnitState) :
    (s.setUnit t n u).setUnit t n v = s.setUnit t n v := by
  simp [State.setUnit]

@[simp] theorem State.unitOf_setUnitOf (s : State) (c : Ctx) (u : UnitState) : (s.setUnitOf c u).unitOf c = u :=
  s.unitAt_setUnit c.t c.slot u

@[simp] theorem State.setUnitOf_setUnitOf (s : State) (c : Ctx) (u v : UnitState) :
    (s.setUnitOf c u).setUnitOf c v = s.setUnitOf c v := s.setUnit_setUnit c.t c.slot u v

/-! ### The matrix edge (R145 to R148) -/

theorem feedLane_operand {s : State} {c : Ctx} {k : Token} (head : s.peekIn c 0 = some k) (operand : k.isData = true ∨ k.ends = true) :
    let t := s.takeIn c 0
    let lane := c.sub % 128
    let v : Token := { k with data := BitVec.ofNat 32 (k.data.toNat % 2 ^ entWidth c.ent) }
    let a := (t.tile c.t).array
    feedLane c s = some (t.setTile c.t
      { t.tile c.t with array := { a with lanes := mapSet a.lanes lane ((mapGet a.lanes lane).getD [] ++ [v]) } }) := by
  intro t lane v a
  have enters : (v.isData || v.ends) = true := by rw [Bool.or_eq_true]; exact operand
  simp only [feedLane, head]
  exact if_pos enters

theorem normTurn_group {s : State} {c : Ctx} {v : Word} (fabric : c.strip = false) (head : Data s c 0 v)
    (group : (s.unitOf c).buf.length = 7) :
    let t := s.takeIn c 0
    normTurn c s = some (resolveOne c (groupCst ((s.unitOf c).buf ++ [dataTok v])) (t.setUnitOf c { t.unitOf c with buf := [] })) := by
  simp [normTurn, fabric, head, group]

theorem caddTurn_groups {s : State} {c : Ctx} (fabric : c.strip = false) (wholeA : (s.unitOf c).buf.length = 8)
    (wholeB : (s.unitOf c).w.length = 8) :
    caddTurn c s = some ((s.setUnitOf c { s.unitOf c with buf := [], w := [] }).put c
      (cstGroup (cstAdd (groupCst (s.unitOf c).buf) (cstOfWords (s.unitOf c).w)))) := by
  simp [caddTurn, groupA, fabric, wholeA, wholeB]

theorem accTurn_data {s : State} {c : Ctx} {src : Src} {v : Word} (offered : accInput c s = some (src, dataTok v))
    (mode : c.sub ∈ [1, 2, 3, 4]) :
    let t := s.takeSrc c.l c.t c.slot true src
    let u := t.unitOf c
    let r := accFold c u.gen ((accValue c u).headD 0) v
    accTurn c s = some ((t.setUnitOf c { u with w := [BitVec.ofNat 32 r.bits], gen := r.gen }).raiseRegion c.l r.flags) := by
  have copy : c.sub ≠ 0 := by
    rintro h
    simp [h] at mode
  have csum : c.sub ≠ 5 := by
    rintro h
    simp [h] at mode
  simp only [accTurn, offered, copy, csum, dataTok_isData, dataTok_data, if_false, if_true]

/-! ### Router operators (R150, R151) -/

/-- An operator that can fire fires, and its tile counts it. -/
theorem opTurn_fires {s u : State} {o : OpCtx} {go : OpCtx → State → Option State} (turn : Operates s o)
    (kept : u.outside o.t o.l = s.outside o.t o.l) (h : go o s = some u) : opTurn go s = operated o u := by
  have cur : u.cur = s.cur := State.cur_of_outside kept
  obtain ⟨l, t, slot, w⟩ := o
  obtain ⟨ht, hslot, live, hw⟩ := turn
  obtain ⟨⟨l', r⟩, hr, hl⟩ := Option.map_eq_some_iff.1 live
  dsimp only at ht hslot hl hw
  subst ht hslot hl
  simp only [opTurn, hr, hw, h, cur]

/-- A DATA ctl token sends on, or drops, a token that is no marker (R150; log entry 24). -/
theorem steering_data {a : Token} (v : Word) (h : a.isData = true ∨ a.isErr = true) : steering a (dataTok v) = .data (v = 0) := by
  have passes : (a.isData || a.isErr) = true := by rw [Bool.or_eq_true]; exact h
  simp only [steering, dataTok_isData, passes, if_true]
  rfl

/-- A marker on ctl pairs with the same marker on inA. -/
theorem steering_marker {a m : Token} (data : m.isData = false) (err : m.isErr = false) (kind : m.kind = a.kind) :
    steering a m = .marker := by
  simp [steering, data, err, kind]

/-- Two outgoing channels have a slot each; one that is named twice has two (R149, R150). -/
theorem OpCtx.room2_of {o : OpCtx} {s : State} {c d : Nat}
    (h : if c = d then ((s.tile o.t).outChan c).length ≤ 14 else o.room s c = true ∧ o.room s d = true) : o.room2 s c d = true := by
  unfold OpCtx.room2
  split_ifs at h ⊢
  · simpa using Nat.succ_lt_succ (Nat.lt_succ_of_le h)
  · simpa using h

section
variable {s : State} {o : OpCtx}

theorem steerTurn_data {a : Token} {v : Word} (head : o.peek s o.w.inA.toNat = some a) (ctl : o.peek s o.w.ctl.toNat = some (dataTok v))
    (passes : a.isData = true ∨ a.isErr = true) (room : o.room s (if v = 0 then o.w.out0.toNat else o.w.out1.toNat) = true) :
    steerTurn o s = some (o.send (o.take2 s o.w.inA.toNat o.w.ctl.toNat) (if v = 0 then o.w.out0.toNat else o.w.out1.toNat) a) := by
  simp only [steerTurn, head, ctl, steering_data v passes, decide_eq_true_eq, room, if_true]

theorem steerTurn_marker {a m : Token} (head : o.peek s o.w.inA.toNat = some a) (ctl : o.peek s o.w.ctl.toNat = some m)
    (pair : steering a m = .marker) (room : o.room2 s o.w.out0.toNat o.w.out1.toNat = true) :
    steerTurn o s = some (o.send (o.send (o.take2 s o.w.inA.toNat o.w.ctl.toNat) o.w.out0.toNat a) o.w.out1.toNat a) := by
  simp only [steerTurn, head, ctl, pair, room, if_true]

theorem mergeTurn_inA {a : Token} (head : o.peek s o.w.inA.toNat = some a) (room : o.room s o.w.out0.toNat = true)
    (first : o.peek s o.w.inB.toNat = none ∨
      ((s.tile o.t).inChan o.w.inA.toNat).times.headD 0 ≤ ((s.tile o.t).inChan o.w.inB.toNat).times.headD 0) :
    mergeTurn o s = some (o.send ((o.take s o.w.inA.toNat).forgetTime o.t o.w.inA.toNat) o.w.out0.toNat a) := by
  simp only [mergeTurn, room, Bool.not_true, Bool.false_eq_true, if_false, head]
  cases hb : o.peek s o.w.inB.toNat with
  | none => rfl
  | some b => exact if_pos (first.resolve_left (by simp [hb]))

theorem mergeTurn_inB {b : Token} (head : o.peek s o.w.inB.toNat = some b) (room : o.room s o.w.out0.toNat = true)
    (first : o.peek s o.w.inA.toNat = none ∨
      ((s.tile o.t).inChan o.w.inB.toNat).times.headD 0 < ((s.tile o.t).inChan o.w.inA.toNat).times.headD 0) :
    mergeTurn o s = some (o.send ((o.take s o.w.inB.toNat).forgetTime o.t o.w.inB.toNat) o.w.out0.toNat b) := by
  simp only [mergeTurn, room, Bool.not_true, Bool.false_eq_true, if_false, head]
  cases ha : o.peek s o.w.inA.toNat with
  | none => rfl
  | some a => exact if_neg (Nat.not_le.2 (first.resolve_left (by simp [ha])))

theorem carryTurn_init {a : Token} (init : ((s.tile o.t).unitAt o.slot).w = []) (head : o.peek s o.w.inA.toNat = some a)
    (room : o.room s o.w.out0.toNat = true) :
    carryTurn o s = some ((o.send (o.take s o.w.inA.toNat) o.w.out0.toNat a).setUnit o.t o.slot
      { (s.tile o.t).unitAt o.slot with w := [1] }) := by
  simp only [carryTurn, init, head, room, if_true]

theorem carryTurn_loop {b : Token} {v : Word} (loop : ((s.tile o.t).unitAt o.slot).w ≠ []) (goes : v ≠ 0)
    (ctl : o.peek s o.w.ctl.toNat = some (dataTok v)) (head : o.peek s o.w.inB.toNat = some b) (room : o.room s o.w.out0.toNat = true) :
    carryTurn o s = some (o.send (o.take2 s o.w.inB.toNat o.w.ctl.toNat) o.w.out0.toNat b) := by
  simp only [carryTurn, loop, if_false, ctl, dataTok_isData, dataTok_data, Bool.not_true, Bool.false_eq_true, goes, head, room, if_true]

theorem carryTurn_leaves (loop : ((s.tile o.t).unitAt o.slot).w ≠ []) (ctl : o.peek s o.w.ctl.toNat = some (dataTok 0)) :
    carryTurn o s = some ((o.take s o.w.ctl.toNat).setUnit o.t o.slot { (s.tile o.t).unitAt o.slot with w := [] }) := by
  simp only [carryTurn, loop, if_false, ctl, dataTok_isData, dataTok_data, Bool.not_true, Bool.false_eq_true, if_true]

theorem execFork_sends (turn : Operates s o) {a : Token} (head : o.peek s o.w.inA.toNat = some a)
    (room : o.room2 s o.w.out0.toNat o.w.out1.toNat = true) :
    execFork s = operated o (o.send (o.send (o.take s o.w.inA.toNat) o.w.out0.toNat a) o.w.out1.toNat a) :=
  opTurn_fires turn (by simp) (by simp only [head, room, if_true])

theorem execDrop_consumes (turn : Operates s o) {a : Token} (head : o.peek s o.w.inA.toNat = some a)
    (ctl : o.peek s o.w.ctl.toNat = some (dataTok 0)) (passes : a.isData = true ∨ a.isErr = true) :
    execDrop s = operated o (o.take2 s o.w.inA.toNat o.w.ctl.toNat) :=
  opTurn_fires turn (by simp) (by simp only [head, ctl, steering_data 0 passes, decide_true, if_true])

theorem execDrop_passes (turn : Operates s o) {a : Token} {v : Word} (head : o.peek s o.w.inA.toNat = some a)
    (ctl : o.peek s o.w.ctl.toNat = some (dataTok v)) (passes : a.isData = true ∨ a.isErr = true) (nonzero : v ≠ 0)
    (room : o.room s o.w.out0.toNat = true) :
    execDrop s = operated o (o.send (o.take2 s o.w.inA.toNat o.w.ctl.toNat) o.w.out0.toNat a) :=
  opTurn_fires turn (by simp) (by
    simp only [head, ctl, steering_data v passes, nonzero, decide_false, Bool.false_eq_true, if_false, room, if_true])

theorem execDrop_marker (turn : Operates s o) {a m : Token} (head : o.peek s o.w.inA.toNat = some a)
    (ctl : o.peek s o.w.ctl.toNat = some m) (pair : steering a m = .marker) (room : o.room s o.w.out0.toNat = true) :
    execDrop s = operated o (o.send (o.take2 s o.w.inA.toNat o.w.ctl.toNat) o.w.out0.toNat a) :=
  opTurn_fires turn (by simp) (by simp only [head, ctl, pair, room, if_true])

end

/-! ### Forwarding (R149) -/

section
variable {s : State} {t chan u : Nat} {k : Token} {rest : List Token} (inside : chan < 40) (source : neighbour t (chan / 8) = some u)
  (here : s.tileStops t = false) (there : s.tileStops u = false) (head : (s.tile u).outChan (facing chan) = k :: rest)
include inside source here there head

theorem execRouterForward_head :
    let e := (s.tile t).chanEntry chan
    let left := if rest = [] then mapErase (s.tile u).chanOut (facing chan) else mapSet (s.tile u).chanOut (facing chan) rest
    let s1 := s.setTile u { s.tile u with chanOut := left }
    execRouterForward t chan s =
      if e ≤ 0x27 then .next (if (s.tile t).chanRoom e then s1.pushChan t e k else s)
      else if e = 0x3D ∨ e = 0x3E then .next ((s1.arrive t chan k).getD s)
      else .next s1 := by
  simp only [execRouterForward, inside, if_true, source, here, there, Bool.or_self, Bool.false_eq_true, if_false, head, Bool.or_eq_true,
    decide_eq_true_eq]

end

/-! ### Ports (R131, R155 to R157) -/

/-- The stream commands that stood before have left a port that none of them holds. -/
theorem Port.served_iff {q : Port} {before : List Nat} : q.served before = true ↔ ∀ c ∈ before, c ∉ q.owners := by
  simp [Port.served]

theorem Port.served_false {q : Port} {before : List Nat} (h : ∃ c ∈ before, c ∈ q.owners) : q.served before = false := by
  simpa [Port.served] using h

theorem Port.room_iff {q : Port} : q.room = true ↔ q.q.length < 32 := by simp [Port.room]

theorem Port.room_full {q : Port} (h : 32 ≤ q.q.length) : q.room = false := by simpa [Port.room] using h

section
variable {s : State} {port len : Nat} {v : Word}

theorem portPut_free (free : ((s.tile s.cur).fiPort port).owners = []) (room : ((s.tile s.cur).fiPort port).q.length < 32) :
    portPut port v len s = finish (s.pushFi s.cur port (dataTok v)) len := by
  simp [portPut, free, Port.room_iff.2 room]

theorem portPut_waits (h : ((s.tile s.cur).fiPort port).owners ≠ [] ∨ 32 ≤ ((s.tile s.cur).fiPort port).q.length) :
    portPut port v len s = wait s (.fput port v len ((s.tile s.cur).fiPort port).owners) := by
  rcases h with held | full
  · simp [portPut, held]
  · simp [portPut, Port.room_full full]

theorem portGet_token {d : BitVec 5} {limit : Option Nat} {k : Token} {l : List Token}
    (free : ((s.tile s.cur).foPort port).owners = []) (token : ((s.tile s.cur).foPort port).q = k :: l) :
    portGet port d limit len s = writeReg (s.popFo s.cur port) d (tokenDword k) len := by
  simp [portGet, free, token]

theorem portGet_waits {d : BitVec 5} {limit : Option Nat}
    (h : ((s.tile s.cur).foPort port).owners ≠ [] ∨ ((s.tile s.cur).foPort port).q = []) :
    portGet port d limit len s =
      wait s (.fget port d limit (s.die (dieOf s.cur)).cycle ((s.tile s.cur).foPort port).owners) := by
  simp only [portGet]
  split
  case h_1 free token => simp [free, token] at h
  case h_2 => rfl

end

section
variable {s : State} {t port : Nat}

theorem execFputResume_waiting {len : Nat} {v : Word} {before : List Nat} (w : Waits s t (.fput port v len before)) :
    execFputResume t s = if ((s.tile t).fiPort port).served before && ((s.tile t).fiPort port).room
      then .next ((({ s with cur := t } : State).pushFi t port (dataTok v)).resumed len) else .next s := by
  simp only [execFputResume, State.waitOf_some.2 w]

theorem execFgetResume_token {since : Nat} {d : BitVec 5} {limit : Option Nat} {before : List Nat} {k : Token} {l : List Token}
    (w : Waits s t (.fget port d limit since before)) (served : ((s.tile t).foPort port).served before = true)
    (token : ((s.tile t).foPort port).q = k :: l) (early : ∀ n, limit = some n → (s.die (dieOf t)).cycle ≤ since + n) :
    let u := ({ s with cur := t } : State).popFo t port
    execFgetResume t s = .next ((u.withCore (u.core.setReg d (tokenDword k))).resumed (fgetLen limit)) := by
  have within : (limit.all fun n => decide ((s.die (dieOf t)).cycle ≤ since + n)) = true := by
    cases limit with
    | none => rfl
    | some n => simpa using early n rfl
  simp only [execFgetResume, State.waitOf_some.2 w, token, served, within, Bool.and_self, if_true]

theorem execFgetResume_still {since : Nat} {d : BitVec 5} {limit : Option Nat} {before : List Nat}
    (w : Waits s t (.fget port d limit since before))
    (h : ((s.tile t).foPort port).served before = false ∨ ((s.tile t).foPort port).q = [] ∨
      ∃ n, limit = some n ∧ since + n < (s.die (dieOf t)).cycle) :
    execFgetResume t s = .next s := by
  simp only [execFgetResume, State.waitOf_some.2 w]
  split
  · refine if_neg ?_
    rcases h with held | empty | ⟨n, rfl, late⟩
    · simp [held]
    · simp_all
    · simp [Nat.not_le.2 late]
  · rfl

theorem execFgetTimeout_over {since limit : Nat} {d : BitVec 5} {before : List Nat}
    (w : Waits s t (.fget port d (some limit) since before))
    (h : since + limit < (s.die (dieOf t)).cycle ∨ (since + limit = (s.die (dieOf t)).cycle ∧ ((s.tile t).foPort port).q = [])) :
    let u : State := { s with cur := t }
    execFgetTimeout t s = .next ((u.withCore (u.core.setReg d 0x0000000700000000)).resumed lenB) := by
  simp only [execFgetTimeout, State.waitOf_some.2 w]
  refine if_pos ?_
  rcases h with late | ⟨last, empty⟩
  · simp [late]
  · simp [last, empty]

theorem execFgetTimeout_still {since limit : Nat} {d : BitVec 5} {before : List Nat}
    (w : Waits s t (.fget port d (some limit) since before))
    (h : (s.die (dieOf t)).cycle < since + limit ∨ ((s.die (dieOf t)).cycle = since + limit ∧
      ((s.tile t).foPort port).q ≠ [] ∧ ((s.tile t).foPort port).served before = true)) :
    execFgetTimeout t s = .next s := by
  simp only [execFgetTimeout, State.waitOf_some.2 w]
  refine if_neg ?_
  rcases h with early | ⟨last, token, served⟩
  · simp [Nat.lt_asymm early, Nat.ne_of_gt early]
  · simp [last, token, served]

theorem execFcntA_holds {f : FormA} (holds : Holds s f.gn f.guard) : execFcntA f s =
    writeReg s f.d (BitVec.ofNat 64 ((s.tile s.cur).available (f.sub.getLsbD 1) (portOf f.sub f.a))) lenA :=
  guarded_true _ _ holds

theorem execFcntB_holds {f : FormB} (holds : Holds s f.gn f.guard) :
    let n := (s.tile s.cur).available (f.sub.getLsbD 1) (portOf f.sub f.a)
    execFcntB f s = if f.imm16.toNat ≤ n then writeReg s f.d (BitVec.ofNat 64 n) lenB
      else wait s (.fcnt (f.sub.getLsbD 1) (portOf f.sub f.a) f.imm16.toNat f.d) :=
  guarded_true _ _ holds

theorem execFcntResume_waiting {least : Nat} {fo : Bool} {d : BitVec 5} (w : Waits s t (.fcnt fo port least d)) :
    let u : State := { s with cur := t }
    execFcntResume t s = if least ≤ (s.tile t).available fo port
      then .next ((u.withCore (u.core.setReg d (BitVec.ofNat 64 ((s.tile t).available fo port)))).resumed lenB)
      else .next s := by
  simp only [execFcntResume, State.waitOf_some.2 w]

end

/-! ### Slots, arguments and accumulators (R152 to R154, R158, R159) -/

/-- An instruction whose guard holds, and that no stream command of the tile stands before, goes on (R152). -/
theorem guarded_inFabricOrder {s : State} {gn : Bool} {g : BitVec 3} (holds : Holds s gn g) (order : s.fabricPending s.cur = false)
    (len : Nat) (i : Instr) (go : State → Out) : guarded gn g len s (fun s => inFabricOrder i s go) = go s := by
  simp [guarded_true len _ holds, inFabricOrder, order]

/-- The checks of R110 all pass on bytes that a core may access. -/
theorem localChecks_pass {c : Core} {ea : Int} {n : Nat} (h : Accessible c ea n) : ∀ x ∈ localChecks c ea n, x.1 = false := by
  obtain ⟨aligned, low, high, area⟩ := h
  have high' : ¬ spLast < ea + n - 1 := by simpa [spLast] using high
  intro x hx
  simp only [localChecks, List.mem_cons, List.not_mem_nil, or_false] at hx
  rcases hx with rfl | rfl | rfl
  · simp [aligned]
  · simp [low, high']
  · rw [Bool.and_eq_false_imp]
    exact fun user => decide_eq_false (Int.not_lt.2 (area (by simpa [Core.user] using user)))

theorem loadSlot_ok {s : State} {i : Instr} {a : BitVec 5} {n : Dword} {len : Nat}
    (access : Accessible s.core (s.core.reg a).toNat 16) (there : s.loadAbsent (s.core.reg a).toNat 16 = false)
    (slot : n.toNat ≤ 426) (idle : (s.tile s.cur).live = none)
    (ok : slotOk s.cur n.toNat (BitVec.ofNat 128 (s.loadLocal (s.core.reg a).toNat 16)) = true) :
    loadSlot i a n len s = finish (s.setTile s.cur
      ((s.tile s.cur).setSlot n.toNat (BitVec.ofNat 128 (s.loadLocal (s.core.reg a).toNat 16)))) len := by
  have word : slotWord (s.readLocal (s.core.reg a).toNat 16) = BitVec.ofNat 128 (s.loadLocal (s.core.reg a).toNat 16) := rfl
  unfold loadSlot
  refine (checks_pass _ fun c hc => ?_).trans ((if_neg (by simp [there])).trans (checks_pass _ ?_))
  · rcases List.mem_append.1 hc with hc | hc
    · exact localChecks_pass access c hc
    · simp only [idle, List.mem_cons, List.not_mem_nil, or_false] at hc
      rcases hc with rfl | rfl
      · simpa using slot
      · rfl
  · simp [word, ok]

theorem argWrite_ok {s : State} {n : Dword} {v : Word} {len : Nat} (h : n.toNat ≤ 327) :
    argWrite n v len s = finish (s.writeArg s.cur n.toNat v) len :=
  checks_pass _ (by simpa using h)

theorem State.writeArg_idle {s : State} {t n : Nat} {v : Word} (h : (s.tile t).live = none) :
    s.writeArg t n v = s.setTile t ((s.tile t).setSlot n
      (((s.tile t).slot n).extractLsb' 80 48 ++ v ++ ((s.tile t).slot n).extractLsb' 0 48)) := by
  simp [State.writeArg, h, withK]

theorem State.writeArg_live {s : State} {t n : Nat} {v : Word} (h : (s.tile t).live.isSome = true) :
    s.writeArg t n v = s.setTile t { s.tile t with argNet := (s.tile t).argNet ++ [(n, v)] } := by
  simp [State.writeArg, h]

theorem execAcrd_ok {s : State} {f : FormA} (holds : Holds s f.gn f.guard) (order : s.fabricPending s.cur = false) :
    let x := s.tile s.cur
    let n := accSlot f.a
    execAcrd f s = writeReg s f.d (accPiece (unpackEl (x.slot n)).sub.toNat f.sub.toNat (x.unitAt n).w) lenA :=
  guarded_inFabricOrder holds order _ _ _

theorem execAcclr_ok {s : State} {f : FormA} (holds : Holds s f.gn f.guard) (order : s.fabricPending s.cur = false) :
    execAcclr f s = finish (s.setUnit s.cur (accSlot f.a) { (s.tile s.cur).unitAt (accSlot f.a) with w := [] }) lenA :=
  guarded_inFabricOrder holds order _ _ _

end Sys2Proof.Machine

namespace Sys2Proof.Proofs

open Sys2Proof.Machine Sys2Proof.Rules

/-- Settles O22: reading a word and wrapping are ring operations modulo 2^32, and each row's step is one on 32-bit words, whose
fold is that of their readings. -/
theorem elementValues : Obligations.ElementValues := by
  unfold Obligations.ElementValues
  refine ⟨fun c g a b d wraps => ?_, fun c g vs int => ?_⟩
  · simp only [wrapEl_wraps wraps, Int.sub_eq_add_neg, BitVec.ofInt_add, BitVec.ofInt_neg, BitVec.ofInt_mul, ofInt_readEl, ofInt_two_pow,
      BitVec.shiftLeft_eq_mul_twoPow, BitVec.sub_eq_add_neg, and_self]
  intro row
  refine ⟨?sum, ?count, ?max, ?min⟩
  case sum =>
    simp only [row, foldRow_rsum int, BitVec.ofNat_toNat, BitVec.setWidth_eq]
    exact (List.sum_eq_foldl (xs := vs)).symm
  case count =>
    simp only [row, foldRow_rcnt, BitVec.ofNat_toNat, BitVec.setWidth_eq, foldl_succ_eq_length]
    exact BitVec.zero_add _
  case max =>
    simp only [row, foldRow_rmax int, BitVec.ofNat_toNat, BitVec.setWidth_eq, toInt_foldl_max]
    rfl
  case min =>
    simp only [row, foldRow_rmin int, BitVec.ofNat_toNat, BitVec.setWidth_eq, toInt_foldl_min]
    rfl

/-- Settles O30: every firing is a chain of updates of its own tile and region, each of which keeps what lies outside. -/
theorem fabricFrame : Obligations.FabricFrame := by
  unfold Obligations.FabricFrame
  intro i mem s t way ht
  suffices keeps : s.TurnKeeps (exec i s) from (ht ▸ keeps).frame
  rcases List.mem_append.1 mem with mem | mem
  · obtain ⟨r, row, rfl⟩ := List.mem_map.1 mem
    rw [exec_simpleRow r row]
    exact unitTurn_keeps fun c u _ _ => simple_keeps u c _ _
  · simp only [List.mem_cons, List.not_mem_nil, or_false] at mem
    rcases mem with rfl | rfl | rfl | rfl | rfl | rfl | rfl | rfl | rfl | rfl | rfl | rfl | rfl | rfl | rfl | rfl | rfl | rfl | rfl |
      rfl | rfl | rfl | rfl | rfl | rfl | rfl | rfl | rfl | rfl | rfl | rfl | rfl | rfl | rfl
    · exact execElLut_keeps s
    iterate 5 exact unitTurn_keeps fun c u _ _ => reduction_keeps u c
    · exact execElScan_keeps s
    · exact execElMstrip_keeps s
    · exact execElMins_keeps s
    · exact execElConst_keeps s
    · exact execElIota_keeps s
    · exact execElSel_keeps s
    · exact execElDsel_keeps s
    · exact execElJoin_keeps s
    · exact execElGate_keeps s
    · exact execElErr_keeps s
    · exact unitTurn_keeps fun c u _ _ => packEl1_keeps u c
    · exact unitTurn_keeps fun c u _ _ => unpackEl1_keeps u c
    · exact unitTurn_keeps fun c u _ _ => heldTurn_keeps u c _ _
    · exact unitTurn_keeps fun c u _ _ => heldTurn_keeps u c _ _
    · exact execElBsplit_keeps s
    · exact execElBjoin_keeps s
    · exact unitTurn_keeps fun c u _ _ => feedLane_keeps u c
    · exact unitTurn_keeps fun c u _ _ => normTurn_keeps u c
    · exact unitTurn_keeps fun c u _ _ => caddTurn_keeps u c
    · exact unitTurn_keeps fun c u _ _ => accTurn_keeps u c
    · exact execElMrd_keeps s (way (.inl rfl))
    · exact execElMwr_keeps s (way (.inr rfl))
    · exact execElDelayIntake_keeps s
    · exact opTurn_keeps (steerTurn_keeps s)
    · exact opTurn_keeps (mergeTurn_keeps s)
    · exact opTurn_keeps (carryTurn_keeps s)
    · exact execFork_keeps s
    · exact execDrop_keeps s

/-- Settles O20: each row of R128 by what the used inputs hold. -/
theorem elementMarkers : Obligations.ElementMarkers := by
  unfold Obligations.ElementMarkers
  intro r row s c fires live taken
  obtain ⟨n, used⟩ := used_of_simpleRow row
  rw [exec_simpleRow r row s]
  refine ⟨fun i k mem head err first => ?err, fun noErr => ⟨fun missing => ?wait, fun k first marker kinds => ?marker,
    fun present differ => ?mixed, fun v data const => ?data⟩⟩
  case err =>
    have rising : r.2.1.Pairwise (· < ·) := used ▸ List.pairwise_lt_range
    exact unitTurn_fires fires (simple_err (State.gather_err rising mem head err first))
  case wait => exact unitTurn_waits fires (simple_wait (State.gather_wait noErr missing))
  case marker => exact unitTurn_fires fires (simple_marker (State.gather_marker noErr first marker kinds))
  case mixed => exact unitTurn_fires fires (simple_mixed (State.gather_mixed noErr present differ))
  case data =>
    intro x
    have reads (i : Nat) : (r.2.1.map v)[i]?.getD 0 = x i := by
      by_cases h : i < n <;> simp [x, used, h]
    rw [unitTurn_fires fires (simple_data (State.gather_data data const)), reads, reads, reads]
    rfl

/-- Settles O21: the rows of R128 on DATA, and what a reduction or a scan makes of its value. -/
theorem elementResults : Obligations.ElementResults := by
  unfold Obligations.ElementResults
  refine ⟨⟨fun r row s c u vs fires got => ?simple, fun s c u vs fires got => ?lut⟩, fun i mem s c k fires head => ?reduction,
    fun s c v fires head => ?scan⟩
  case simple =>
    rw [exec_simpleRow r row s]
    exact unitTurn_fires fires (simple_data got)
  case lut => exact execElLut_data fires got
  case reduction =>
    have turn : exec i s = unitTurn reduction s := by
      simp only [List.mem_cons, List.not_mem_nil, or_false] at mem
      rcases mem with rfl | rfl | rfl | rfl | rfl
      all_goals rfl
    rw [turn]
    exact ⟨fun data => unitTurn_fires fires (reduction_data head data), fun ends => unitTurn_fires fires (reduction_ends head ends)⟩
  case scan => exact execElScan_data fires head

/-- Settles O23: each element by the tokens at its inputs. -/
theorem streamElements : Obligations.StreamElements := by
  unfold Obligations.StreamElements
  refine ⟨fun s c fires => ⟨fun k head => ?_, fun v a b index => ⟨?_, ?_, ?_⟩, fun t vs h got head => execElJoin_data fires got head,
    fun t a v got => execElGate_data fires got⟩, fun s c k => execElDelayIntake_takes, fun s t slot l g k r => execElDelayOutput_moves⟩
  · intro t u
    refine ⟨execElMstrip_token fires head, execElConst_token fires head, execElErr_token fires head, fun data =>
      ⟨execElIota_data fires head data, execElBsplit_data fires head data, execElBjoin_whole fires head data,
        fun mode few same => ?_, fun mode many same => ?_⟩⟩
    · rw [← same] at few
      exact (execElMins_counts fires head data mode few).trans (by rw [same])
    · rw [← same] at many
      exact execElMins_ends fires head data mode many
  · exact execElSel_selects fires index
  · exact execElSel_beyond fires index
  · exact fun got value within => execElDsel_data fires got index value within

/-- Settles O27: each matrix-edge element on a whole group at its inputs. -/
theorem matrixElements : Obligations.MatrixElements := by
  unfold Obligations.MatrixElements
  exact fun s c fires => ⟨fun k head operand => unitTurn_fires fires (feedLane_operand head operand),
    fun v fabric head group => unitTurn_fires fires (normTurn_group fabric head group),
    fun fabric wholeA wholeB => unitTurn_fires fires (caddTurn_groups fabric wholeA wholeB),
    fun src v offered mode => unitTurn_fires fires (accTurn_data offered mode)⟩

/-- Settles O28: each operator by the tokens at the heads of its channels, whose turn then counts the firing. -/
theorem routerOperators : Obligations.RouterOperators := by
  unfold Obligations.RouterOperators
  intro s o turn inA inB ctl out0 out1 came two
  refine ⟨fun a v head control passes => ⟨fun room => ?_, fun zero => ?_, fun nonzero room => ?_⟩,
    fun a m head control data err kind room => ⟨fun free => ?_, ?_⟩, fun a head free => ?_, fun a head room first => ?_,
    fun b head room first => ?_, fun a init head room => ?_, fun b v loop goes control head room => ?_, fun loop control => ?_⟩
  · exact opTurn_fires turn (by simp) (steerTurn_data head control passes room)
  · subst zero
    exact execDrop_consumes turn head control passes
  · exact execDrop_passes turn head control passes nonzero room
  · exact opTurn_fires turn (by simp) (steerTurn_marker head control (steering_marker data err kind) (OpCtx.room2_of free))
  · exact execDrop_marker turn head control (steering_marker data err kind) room
  · exact execFork_sends turn head (OpCtx.room2_of free)
  · exact opTurn_fires turn (by simp) (mergeTurn_inA head room first)
  · exact opTurn_fires turn (by simp) (mergeTurn_inB head room first)
  · exact opTurn_fires turn (by simp) (carryTurn_init init head room)
  · exact opTurn_fires turn (by simp) (carryTurn_loop loop goes control head room)
  · exact opTurn_fires turn (by simp) (carryTurn_leaves loop control)

/-- Settles O29: by the entry of the channel map. -/
theorem routerForwarding : Obligations.RouterForwarding := by
  unfold Obligations.RouterForwarding
  intro s t chan u k rest inside source here there head e left s1
  have goes : exec (.routerForward t chan) s = _ := execRouterForward_head inside source here there head
  refine ⟨fun named room => ?_, fun named full => ?_, fun unused => ?_, fun v taken arrives => ?_⟩
  · rw [goes, if_pos named, if_pos room]
  · rw [goes, if_pos named, if_neg (by simp [e, full])]
  · rw [goes, if_neg (by omega), if_neg (by omega)]
  · rw [goes, if_neg (by omega), if_pos taken, arrives]
    rfl

/-- Settles O31: each instruction by what its port has, and each end of a wait by what the wait names. -/
theorem fabricPorts : Obligations.FabricPorts := by
  unfold Obligations.FabricPorts
  refine ⟨?fput, ?fget, ?fcntA, ?fcntB, ?fputResume, ?fgetResume, ?fgetTimeout, ?fcntResume⟩
  case fput =>
    refine fun s port len v => ⟨fun f holds hport hv hlen => ?_, fun f holds hport hv hlen => ?_⟩
    all_goals
      subst hport hv hlen
      refine ⟨fun free room => ?_, fun h => ?_⟩
      · exact (guarded_true _ _ holds).trans (portPut_free free room)
      · exact (guarded_true _ _ holds).trans (portPut_waits h)
  case fget =>
    refine fun s port => ⟨fun f holds hport => ?_, fun f holds hport => ?_⟩
    all_goals
      subst hport
      refine ⟨fun k l free token => ?_, fun h => ?_⟩
      · exact (guarded_true _ _ holds).trans ((portGet_token free token).trans (writeReg_eq _ _ _ _))
      · exact (guarded_true _ _ holds).trans (portGet_waits h)
  case fcntA => exact fun s f holds => (execFcntA_holds holds).trans (writeReg_eq _ _ _ _)
  case fcntB =>
    exact fun s f holds => ⟨fun enough => (execFcntB_holds holds).trans ((if_pos enough).trans (writeReg_eq _ _ _ _)),
      fun few => (execFcntB_holds holds).trans (if_neg (Nat.not_le.2 few))⟩
  case fputResume =>
    refine fun s t port len v before w => ⟨fun served room => ?_, fun h => ?_⟩
    · exact (execFputResume_waiting w).trans (if_pos (by simp [Port.served_iff.2 served, Port.room_iff.2 room]))
    · refine (execFputResume_waiting w).trans (if_neg ?_)
      rcases h with held | full
      · simp [Port.served_false held]
      · simp [Port.room_full full]
  case fgetResume =>
    refine fun s t port since d limit before w => ⟨fun k l served token early => ?_, fun h => ?_⟩
    · exact execFgetResume_token w (Port.served_iff.2 served) token fun n hn => not_lt.1 fun late => early ⟨n, hn, late⟩
    · exact execFgetResume_still w (h.imp_left Port.served_false)
  case fgetTimeout =>
    exact fun s t port since limit d before w => ⟨execFgetTimeout_over w, fun h => execFgetTimeout_still w
      (h.imp_right fun ⟨last, token, served⟩ => ⟨last, token, Port.served_iff.2 served⟩)⟩
  case fcntResume =>
    exact fun s t port least fo d w => ⟨fun enough => (execFcntResume_waiting w).trans (if_pos enough),
      fun few => (execFcntResume_waiting w).trans (if_neg (Nat.not_le.2 few))⟩

/-- Settles O32: where the order of R152 lets an instruction go on, each by what it stores or reads; and a wait runs the instruction
from its start. -/
theorem fabricRegisters : Obligations.FabricRegisters := by
  unfold Obligations.FabricRegisters
  refine ⟨?cfgl, ?argw, ?accumulators, ?waits, ?pieces⟩
  case cfgl =>
    intro s i n a len form order access there slot idle w t ok
    rcases form with ⟨f, rfl, holds, rfl, rfl, rfl⟩ | ⟨f, rfl, holds, rfl, rfl, rfl⟩
    all_goals exact (guarded_inFabricOrder holds order _ _ _).trans (loadSlot_ok access there slot idle ok)
  case argw =>
    intro s i n v len form order small x held sent
    have writes {m : Dword} (slot : m.toNat = n) (goes : exec i s = argWrite m v len s) :
        (x.live = none → exec i s = done held held.core len) ∧ (x.live.isSome = true → exec i s = done sent sent.core len) := by
      subst slot
      refine ⟨fun idle => ?_, fun live => ?_⟩
      · rw [goes, argWrite_ok small, State.writeArg_idle idle]
        rfl
      · rw [goes, argWrite_ok small, State.writeArg_live live]
        rfl
    have field (m : Nat) : (BitVec.ofNat 64 (m % 512)).toNat = m % 512 := by
      rw [BitVec.toNat_ofNat]
      omega
    rcases form with ⟨f, rfl, holds, rfl, rfl, rfl⟩ | ⟨f, rfl, holds, rfl, rfl, rfl⟩ | ⟨f, rfl, holds, rfl, rfl, rfl⟩
    · exact writes rfl (guarded_inFabricOrder holds order _ _ _)
    · exact writes (field f.ext16.toNat) (guarded_inFabricOrder holds order _ _ _)
    · exact writes (field f.ext32.toNat) (guarded_inFabricOrder holds order _ _ _)
  case accumulators =>
    exact fun s f holds order => ⟨(execAcrd_ok holds order).trans (writeReg_eq _ _ _ _), execAcclr_ok holds order⟩
  case waits =>
    intro s t f w u
    have runs : exec (.beatInsnResume t) s = exec (.acclr f) u := by
      show execBeatInsnResume t s = execAcclr f u
      simp only [execBeatInsnResume, State.waitOf_some.2 w]
      rfl
    exact ⟨runs, fun holds order => runs.trans (execAcclr_ok holds order)⟩
  case pieces =>
    intro k v p pos
    simp [accPiece, pair, Nat.ne_of_gt pos]

end Sys2Proof.Proofs

/-! Proofs about lines and the beat, and about engines: boundaries, slips and the auto governor (R171 to R180), reports and retirement
(R173, R177), the beat instructions (R179 to R183), the region load (R164, R165), and the acts of engines, ports and the ring
(R185 to R250). -/

namespace Sys2Proof.Machine

open Sys2Proof.Rules

/-- A window that has not ended in mode 2 stays as it is (R180). -/
theorem State.closeWindow_open {s : State} {r : Region} (l : Nat) (h : r.mode ≠ 2 ∨ r.winBeats < 64) : s.closeWindow l r = (s, r) := by
  have still : r.windowDone = false := by
    rcases h with mode | early
    · simp [Region.windowDone, mode]
    · simp [Region.windowDone, early]
  simp [State.closeWindow, still]

/-! ### Regions, their stations and the fc of a die -/

@[simp] theorem State.mapGet_setRegion_same (s : State) (l : Nat) (r : Region) : mapGet (s.setRegion l r).regions l = some r :=
  mapGet_mapSet_same s.regions l r

theorem Region.station_setStation_same {r : Region} {st : Nat} (x : Station) (h : st < r.stations.length) :
    (r.setStation st x).station st = x := by
  simp [Region.station, Region.setStation, h]

theorem Region.station_setStation_ne (r : Region) {st k : Nat} (x : Station) (h : k ≠ st) : (r.setStation st x).station k = r.station k := by
  simp [Region.station, Region.setStation, List.getElem?_set_ne h.symm]

theorem State.cycleAt_of_dies {s u : State} (h : u.dies = s.dies) (t : Nat) : u.cycleAt t = s.cycleAt t := by
  simp only [State.cycleAt, State.die, h]

/-- A wake leaves every die's fc (R406). -/
theorem State.wakeDie_cycleAt (s : State) (g t : Nat) : (s.wakeDie g).cycleAt t = s.cycleAt t := by
  rcases s.wakeDie_cases g with h | h
  · rw [h]
  · rw [h, State.cycleAt, State.cycleAt]
    by_cases e : dieOf t = g
    · rw [e, State.die_setDie_same]
    · rw [State.die_setDie_ne _ _ _ _ e]

/-- What an event changes lies in its tile and the die that it wakes (R94, R406). -/
theorem State.post_cases (s : State) (t kind source data : Nat) :
    ∃ c, s.post t kind source data = (s.wakeDie (dieOf t)).setCore t c := by
  simp only [State.post]
  split
  · exact ⟨_, rfl⟩
  · exact ⟨_, rfl⟩

@[simp] theorem State.post_regions (s : State) (t kind source data : Nat) : (s.post t kind source data).regions = s.regions := by
  obtain ⟨c, h⟩ := s.post_cases t kind source data
  rw [h, State.setCore_regions, State.wakeDie_regions]

@[simp] theorem State.post_mem (s : State) (t kind source data : Nat) : (s.post t kind source data).mem = s.mem := by
  obtain ⟨c, h⟩ := s.post_cases t kind source data
  rw [h, State.setCore_mem, State.wakeDie_mem]

@[simp] theorem State.post_cycleAt (s : State) (t kind source data l : Nat) :
    (s.post t kind source data).cycleAt l = s.cycleAt l := by
  obtain ⟨c, h⟩ := s.post_cases t kind source data
  rw [h, ← s.wakeDie_cycleAt (dieOf t) l]
  rfl

/-! ### The source and the issue gates (R171, R188) -/

section
variable {s : State} {l t p st : Nat} {r : Region} {k : Token} {rest : List Token}

theorem State.takeItem_admits (live : mapGet s.regions l = some r) (tile : r.tiles.contains t = true) (may : s.lineMay l r = true)
    (head : ((s.tile t).fiPort p).q = k :: rest)
    (first : ((s.sourceStations r t p).find? fun st => s.mayAdmit l r t p st) = some st) :
    s.takeItem l t p = s.takeIntoItem l r t p st k := by
  simp only [State.takeItem, live, head, tile, may, Bool.not_true, Bool.or_self, Bool.false_eq_true, if_false, first]

theorem exec_sourceItemAdmit_admits (port : p < 64) (live : mapGet s.regions l = some r) (tile : r.tiles.contains t = true)
    (may : s.lineMay l r = true) (head : ((s.tile t).fiPort p).q = k :: rest)
    (first : ((s.sourceStations r t p).find? fun st => s.mayAdmit l r t p st) = some st) :
    exec (.sourceItemAdmit l (t * 64 + p)) s = .next (s.takeIntoItem l r t p st k) := by
  show Host.Outcome.next (s.takeItem l ((t * 64 + p) / 64) ((t * 64 + p) % 64)) = _
  rw [show (t * 64 + p) / 64 = t by omega, show (t * 64 + p) % 64 = p by omega, State.takeItem_admits live tile may head first]

theorem exec_issueGateClose (live : mapGet s.regions l = some r) (running : r.phase = .running) (inside : st < r.stations.length)
    (resumable : (r.station st).resumable = true) (may : s.lineMay l r = true) :
    exec (.issueGateClose l st) s = .next (if r.beatStart + r.beat - (r.station st).lead ≤ s.cycleAt l
      then s.setRegion l (r.setStation st { r.station st with gate := true }) else s) := by
  show execIssueGateClose l st s = _
  simp only [execIssueGateClose, live, running, inside, resumable, may, decide_true, Bool.and_self, Bool.true_and, decide_eq_true_eq]
  exact (apply_ite _ _ _ _).symm

end

/-! ### What a station has finished (R170) -/

/-- The configuration slots of every tile, from which the stations and readers of its units follow. -/
def State.slotsOf (s : State) : Nat → Map Slot128 := fun t => (s.tile t).slots

theorem State.slotsOf_setTile {s : State} {t : Nat} {x : Tile} (h : x.slots = (s.tile t).slots) :
    (s.setTile t x).slotsOf = s.slotsOf := by
  funext u
  by_cases e : u = t
  · subst e
    simp only [State.slotsOf, State.tile_setTile_same, h]
  · simp only [State.slotsOf, State.tile_setTile_ne _ _ _ _ e]

@[simp] theorem State.slotsOf_setUnit (s : State) (t n : Nat) (u : UnitState) : (s.setUnit t n u).slotsOf = s.slotsOf :=
  State.slotsOf_setTile rfl

@[simp] theorem State.slotsOf_setFi (s : State) (t p : Nat) (q : Port) : (s.setFi t p q).slotsOf = s.slotsOf :=
  State.slotsOf_setTile rfl

/-- Tiles with the same slots have the same units, with their stations, routes and inputs. -/
theorem Tile.units_congr {x y : Tile} (h : x.slots = y.slots) :
    x.enabled = y.enabled ∧ x.stationOf = y.stationOf ∧ x.el = y.el ∧ x.readersIn = y.readersIn := by
  have of_slots (x : Tile) : x.enabled = ({ Tile.reset with slots := x.slots } : Tile).enabled ∧
      x.stationOf = ({ Tile.reset with slots := x.slots } : Tile).stationOf ∧
      x.el = ({ Tile.reset with slots := x.slots } : Tile).el ∧
      x.readersIn = ({ Tile.reset with slots := x.slots } : Tile).readersIn := ⟨rfl, rfl, rfl, rfl⟩
  obtain ⟨e₁, s₁, l₁, r₁⟩ := of_slots x
  obtain ⟨e₂, s₂, l₂, r₂⟩ := of_slots y
  rw [e₁, e₂, s₁, s₂, l₁, l₂, r₁, r₂, h]
  exact ⟨rfl, rfl, rfl, rfl⟩

/-- Of a region: its tiles, its boundary queues by key and filling station, and the source queues that have closed. -/
def Region.frame (r : Region) : List Nat × List (Nat × Nat) × (Nat → Option Bool) :=
  (r.tiles, r.queues.map fun e => (e.1, e.2.src), fun k => (mapGet r.source k).map BoundaryQueue.closed)

section
variable {s u : State} {r q : Region} {st : Nat}

theorem Region.isSource_congr (slots : u.slotsOf = s.slotsOf) (tiles : q.tiles = r.tiles)
    (queues : q.queues.map Prod.fst = r.queues.map Prod.fst) (st : Nat) : q.isSource u st = r.isSource s st := by
  have tile (t : Nat) := Tile.units_congr (congrFun slots t)
  have keys (x : Region) : (x.queues.any fun e => keyStation e.1 = st) = (x.queues.map Prod.fst).any fun k => keyStation k = st := by
    rw [List.any_map]
    rfl
  simp only [Region.isSource, keys, queues, tiles, (tile _).1, (tile _).2.1]

theorem Region.finished_congr (slots : u.slotsOf = s.slotsOf) (frame : q.frame = r.frame) (item : (q.station st).item = (r.station st).item)
    (closed : (q.station st).closed = (r.station st).closed) : q.finished u st = r.finished s st := by
  have tile (t : Nat) := Tile.units_congr (congrFun slots t)
  have tiles : q.tiles = r.tiles := congrArg Prod.fst frame
  have queues : (q.queues.map fun e => (e.1, e.2.src)) = r.queues.map fun e => (e.1, e.2.src) := congrArg (fun f => f.2.1) frame
  have source (k : Nat) : (mapGet q.source k).map BoundaryQueue.closed = (mapGet r.source k).map BoundaryQueue.closed :=
    congrFun (congrArg (fun f => f.2.2) frame) k
  have keys : q.queues.map Prod.fst = r.queues.map Prod.fst := by
    have firsts := congrArg (List.map Prod.fst) queues
    rw [List.map_map, List.map_map] at firsts
    exact firsts
  have fills (x : Region) : (x.queues.filter fun e => e.2.src = st).map Prod.fst =
      ((x.queues.map fun e => (e.1, e.2.src)).filter fun e => e.2 = st).map Prod.fst := by
    simp only [List.filter_map, List.map_map]
    rfl
  have shut (x : Option BoundaryQueue) : x.any BoundaryQueue.closed = (x.map BoundaryQueue.closed).any id := by cases x <;> rfl
  simp only [Region.finished, State.admittedWhole, State.sourceKeys, Region.outlets, Region.isSource_congr slots tiles keys, item, closed,
    fills, queues, tiles, (tile _).1, (tile _).2.2.1, (tile _).2.2.2, shut, source]

theorem Region.finished_source_open {i k : Nat} (item : (r.station st).item = some i) (source : r.isSource s st = true)
    (key : k ∈ s.sourceKeys r st) (waits : ∀ q, mapGet r.source k = some q → q.closed = false) : r.finished s st = false := by
  have shut : (mapGet r.source k).any BoundaryQueue.closed = false := by
    cases h : mapGet r.source k with
    | none => rfl
    | some q => exact waits q h
  have whole : s.admittedWhole r st = false := by
    simp only [State.admittedWhole, source, Bool.not_true, Bool.false_or, List.all_eq_false]
    exact ⟨k, key, by simp [shut]⟩
  simp [Region.finished, item, whole]

end

/-! ### What goes green (R172 steps 2 and 3) -/

theorem mapGet_map_snd {α β : Type} (m : Map α) (f : Nat → α → β) (k : Nat) :
    mapGet (m.map fun e => (e.1, f e.1 e.2)) k = (mapGet m k).map (f k) := by
  induction m with
  | nil => rfl
  | cons e m ih =>
    obtain ⟨j, v⟩ := e
    by_cases h : j = k
    · simp [mapGet, h]
    · simpa [mapGet, h] using ih

/-- A unit's state and a port are no part of a die or of a configuration. -/
theorem State.resetStation_keeps (s : State) (r : Region) (st : Nat) :
    (s.resetStation r st).slotsOf = s.slotsOf ∧ (s.resetStation r st).dies = s.dies := by
  refine List.foldlRecOn (motive := fun (t : State) => t.slotsOf = s.slotsOf ∧ t.dies = s.dies) _ _ ⟨rfl, rfl⟩ fun t h x _ => ?_
  split_ifs
  · exact h
  · exact ⟨(t.slotsOf_setUnit x.1 x.2 _).trans h.1, h.2⟩

theorem State.emptyPorts_keeps (s : State) (ps : List (Nat × Nat)) :
    (s.emptyPorts ps).slotsOf = s.slotsOf ∧ (s.emptyPorts ps).dies = s.dies :=
  List.foldlRecOn (motive := fun (t : State) => t.slotsOf = s.slotsOf ∧ t.dies = s.dies) _ _ ⟨rfl, rfl⟩ fun t h x _ =>
    ⟨(t.slotsOf_setFi x.1 x.2 _).trans h.1, h.2⟩

theorem State.goGreen_state (s : State) (r : Region) (st : Nat) :
    (s.goGreen r st).1.slotsOf = s.slotsOf ∧ (s.goGreen r st).1.dies = s.dies := by
  obtain ⟨slots, dies⟩ := s.resetStation_keeps r st
  obtain ⟨slots', dies'⟩ := (s.resetStation r st).emptyPorts_keeps (s.stationPorts r st)
  exact ⟨slots'.trans slots, dies'.trans dies⟩

theorem State.goGreen_frame (s : State) (r : Region) (st : Nat) : (s.goGreen r st).2.frame = r.frame := by
  simp only [State.goGreen, Region.frame, List.map_map, Prod.mk.injEq, true_and]
  refine ⟨List.map_congr_left fun e _ => ?_, funext fun k => ?_⟩
  · simp only [Function.comp_apply]
    split_ifs <;> rfl
  · rw [mapGet_map_snd r.source (fun key b => if keyStation key = st then b.leaveInlet (r.station st).item else b), Option.map_map]
    congr 1
    funext b
    simp only [Function.comp_apply]
    split_ifs <;> rfl

/-- The item of a station as its loop takes it (R172 step 3). -/
def State.greenItem (s : State) (r : Region) (st : Nat) : GreenItem :=
  let x := r.station st
  { serial := x.item.getD 0, since := r.beats, progress := s.stationProgress r st
    inlets := inletsOf r.queues st x.item ++ inletsOf r.source st x.item
    ports := s.portInlets (s.stationPorts r st)
    admitted := (r.source.filter fun q => keyStation q.1 = st && q.2.closed).map Prod.fst
    outlets := (r.queues.filter fun q => q.2.src = st).map fun q => (q.1, q.2.fill.map Prod.snd)
    closed := x.closed }

/-- A station whose item has gone green, with occ places of its loop in use. -/
def Station.greened (x : Station) (g : GreenItem) (occ : Nat) : Station :=
  { x with item := none, loop := x.loop ++ [g], green := satWord (x.green.toNat + 1), peak := satWord (max x.peak.toNat occ) }

theorem State.goGreen_stations (s : State) (r : Region) (st : Nat) :
    (s.goGreen r st).2.stations = r.stations.set st ((r.station st).greened (s.greenItem r st) (r.occupied s st + 1)) := rfl

section
variable {s : State} {r : Region} {sts : List Nat}

theorem State.markGreen_finished (slips : List Nat) (done : ∀ st ∈ sts, r.finished s st = true) :
    State.markGreen sts s r slips = (s, r, slips) := by
  induction sts with
  | nil => rfl
  | cons st sts ih =>
    rw [State.markGreen, if_pos (done st List.mem_cons_self)]
    exact ih fun k mem => done k (List.mem_cons_of_mem _ mem)

theorem Region.finished_goGreen {st k : Nat} (other : k ≠ st) :
    (s.goGreen r st).2.finished (s.goGreen r st).1 k = r.finished s k := by
  have same : (s.goGreen r st).2.station k = r.station k := by
    rw [Region.station, State.goGreen_stations, List.getElem?_set_ne other.symm]
    rfl
  exact Region.finished_congr (s.goGreen_state r st).1 (s.goGreen_frame r st) (by rw [same]) (by rw [same])

variable {st : Nat} (mem : st ∈ sts) (once : sts.Nodup) (busy : r.finished s st = false)
  (others : ∀ k ∈ sts, k ≠ st → r.finished s k = true)
include mem once busy others

/-- The one station that has not finished goes green where it has a place. -/
theorem State.markGreen_green (slips : List Nat) (place : r.occupied s st < (r.station st).places) :
    State.markGreen sts s r slips = ((s.goGreen r st).1, (s.goGreen r st).2, slips) := by
  induction sts with
  | nil => cases mem
  | cons k sts ih =>
    obtain ⟨fresh, once⟩ := List.nodup_cons.1 once
    by_cases h : k = st
    · subst h
      rw [State.markGreen, if_neg (by simp [busy]), if_pos place]
      refine State.markGreen_finished _ fun j later => ?_
      have other : j ≠ k := fun e => fresh (e ▸ later)
      exact (Region.finished_goGreen other).trans (others j (List.mem_cons_of_mem _ later) other)
    · rw [State.markGreen, if_pos (others k List.mem_cons_self h)]
      exact ih ((List.mem_cons.1 mem).resolve_left (Ne.symm h)) once fun j later => others j (List.mem_cons_of_mem _ later)

/-- The one station that has not finished slips where it has no place. -/
theorem State.markGreen_slip (slips : List Nat) (full : (r.station st).places ≤ r.occupied s st) :
    State.markGreen sts s r slips = (s, r, slips ++ [st]) := by
  induction sts with
  | nil => cases mem
  | cons k sts ih =>
    obtain ⟨fresh, once⟩ := List.nodup_cons.1 once
    by_cases h : k = st
    · subst h
      rw [State.markGreen, if_neg (by simp [busy]), if_neg (Nat.not_lt.2 full)]
      exact State.markGreen_finished _ fun j later => others j (List.mem_cons_of_mem _ later) fun e => fresh (e ▸ later)
    · rw [State.markGreen, if_pos (others k List.mem_cons_self h)]
      exact ih ((List.mem_cons.1 mem).resolve_left (Ne.symm h)) once fun j later => others j (List.mem_cons_of_mem _ later)

end

theorem Region.occupied_empty {s : State} {r : Region} {st : Nat} (empty : (r.station st).loop = []) : r.occupied s st = 0 := by
  simp [Region.occupied, empty]

/-! ### The items move on (R172 steps 4 and 5) -/

/-- What a region keeps through a boundary: every field but its stations, queues and beat length, and what a boundary counts. -/
def Region.course (r : Region) : Region :=
  { r with
    stations := [], queues := [], source := [], gated := false, yields := 0, beat := 0, nextBeat := none, latched := none
    greens := [], winBeats := 0, winGreens := 0, winSlips := 0 }

@[simp] theorem State.goGreen_course (s : State) (r : Region) (st : Nat) : (s.goGreen r st).2.course = r.course := rfl

/-- What a station takes at a boundary where its loop's head does not re-enter: nothing at the source (R188). -/
def Region.incoming (s : State) (r : Region) (st : Nat) : Option Nat :=
  if st = 0 || r.isSource s st then none else (r.station (st - 1)).item

/-- The loop of a station is empty, or its head went green at this boundary. -/
def Region.loopRests (r : Region) (st : Nat) : Prop := ∀ g, (r.station st).loop.head? = some g → g.since = r.beats

theorem Region.reenters_rests {s : State} {r : Region} {st : Nat} (rests : r.loopRests st) : r.reenters s st = none := by
  cases loop : (r.station st).loop with
  | nil => simp [Region.reenters, loop]
  | cons g l =>
    have now : g.since = r.beats := rests g (by rw [loop]; rfl)
    simp only [Region.reenters, loop]
    split
    case h_1 head tail _ same =>
      obtain ⟨rfl, -⟩ := List.cons.inj same
      exact if_pos now
    case h_2 => rfl

theorem State.reenter_keeps (s : State) (r : Region) (st : Nat) (g : GreenItem) :
    (s.reenter r st g).1.dies = s.dies ∧ (s.reenter r st g).2.course = r.course := by
  refine ⟨?_, rfl⟩
  refine List.foldlRecOn (motive := fun (t : State) => t.dies = s.dies) _ _ ?_ fun _ h _ _ => h
  exact List.foldlRecOn (motive := fun (t : State) => t.dies = s.dies) _ _ (s.resetStation_keeps r st).2 fun _ h _ _ => h

theorem State.placeItems_keeps (sts : List Nat) (s : State) (r : Region) :
    (State.placeItems sts s r).1.dies = s.dies ∧ (State.placeItems sts s r).2.course = r.course := by
  induction sts generalizing s r with
  | nil => exact ⟨rfl, rfl⟩
  | cons st sts ih =>
    simp only [State.placeItems]
    split
    case h_1 g _ =>
      obtain ⟨dies, course⟩ := s.reenter_keeps r st g
      exact ⟨(ih _ _).1.trans dies, (ih _ _).2.trans course⟩
    case h_2 => exact ih _ _

/-- Where no head re-enters, each of the first n stations takes what comes to it, and the others stay. -/
theorem State.placeItems_rests {s : State} {n : Nat} {r : Region} (inside : n ≤ r.stations.length) (rests : ∀ st, st < n → r.loopRests st) :
    ∃ q, State.placeItems (List.range n).reverse s r = (s, q) ∧
      (∀ st, st < n → q.station st = { r.station st with item := r.incoming s st, closed := [], gate := false }) ∧
      (∀ st, n ≤ st → q.station st = r.station st) := by
  induction n generalizing r with
  | zero => exact ⟨r, rfl, fun _ h => absurd h (Nat.not_lt_zero _), fun _ _ => rfl⟩
  | succ n ih =>
    let q : Region := { r.setStation n { r.station n with item := r.incoming s n, closed := [], gate := false } with
      source := r.source.map fun q => if keyStation q.1 = n then (q.1, { q.2 with closed := false }) else q }
    have other (st : Nat) (h : st ≠ n) : q.station st = r.station st := r.station_setStation_ne _ h
    have here : q.station n = { r.station n with item := r.incoming s n, closed := [], gate := false } :=
      Region.station_setStation_same _ inside
    have length : q.stations.length = r.stations.length := List.length_set
    have moves : State.placeItems (List.range (n + 1)).reverse s r = State.placeItems (List.range n).reverse s q := by
      rw [List.range_succ, List.reverse_append]
      simp only [List.reverse_singleton, List.singleton_append, State.placeItems, Region.reenters_rests (rests n (Nat.lt_succ_self n))]
      rfl
    obtain ⟨p, goes, low, high⟩ := ih (r := q) (by omega) fun st h => by
      unfold Region.loopRests
      rw [other st (by omega)]
      exact rests st (by omega)
    refine ⟨p, moves.trans goes, fun st h => ?_, fun st h => ?_⟩
    · by_cases e : st = n
      · rw [e, high n le_rfl, here]
      · have incoming : q.incoming s st = r.incoming s st := by
          unfold Region.incoming
          rw [other (st - 1) (by omega)]
          rfl
        rw [low st (by omega), other st e, incoming]
    · rw [high st (by omega), other st (by omega)]

/-! ### The next beat (R172 steps 6 to 8) -/

theorem State.applyArgs_dies (s : State) (r : Region) : (s.applyArgs r).dies = s.dies :=
  List.foldlRecOn (motive := fun (t : State) => t.dies = s.dies) _ _ rfl fun _ h _ _ => h

theorem State.postGreens_cycleAt (s : State) (l : Nat) (r : Region) (t : Nat) : (s.postGreens l r).1.cycleAt t = s.cycleAt t := by
  simp only [State.postGreens]
  split
  · exact List.foldlRecOn (motive := fun (u : State) => u.cycleAt t = s.cycleAt t) _ _ rfl fun u h g _ =>
      (u.post_cycleAt l 0x11 g.1 g.2 t).trans h
  · rfl

theorem Region.setBeat_keeps (r : Region) (v : Nat) : (r.setBeat v).course = r.course ∧ (r.setBeat v).stations = r.stations := by
  unfold Region.setBeat
  split
  · exact ⟨rfl, rfl⟩
  · exact ⟨rfl, rfl⟩

/-- The length that the boundary before has latched takes effect (R181). -/
def Region.takeLength (r : Region) : Region :=
  match r.nextBeat with
  | some v => { r.setBeat v with nextBeat := none }
  | none => r

theorem Region.takeLength_keeps (r : Region) : r.takeLength.course = r.course ∧ r.takeLength.stations = r.stations := by
  unfold Region.takeLength
  split
  case h_1 v _ => exact r.setBeat_keeps v
  case h_2 => exact ⟨rfl, rfl⟩

/-- Step 6 of R172, the count of the window and the beat's length. -/
def State.turned (s : State) (r : Region) : Region :=
  let q := ({ s.issue r with winBeats := r.winBeats + 1 } : Region).takeLength
  { q with nextBeat := q.latched, latched := none }

theorem State.turned_keeps (s : State) (r : Region) : (s.turned r).course = r.course ∧ (s.turned r).stations = r.stations :=
  Region.takeLength_keeps { s.issue r with winBeats := r.winBeats + 1 }

/-- A region whose every queue has gone to its next inlet (R172 step 4). -/
def Region.handedOver (r : Region) : Region := { r with queues := r.queues.map fun q => (q.1, q.2.handOver) }

theorem Region.isSource_handedOver (s : State) (r : Region) (st : Nat) : r.handedOver.isSource s st = r.isSource s st :=
  Region.isSource_congr (q := r.handedOver) (r := r) rfl rfl (by simp [Region.handedOver, Function.comp_def]) st

/-- Steps 4 and 5 of R172. -/
def State.placed (s : State) (r : Region) : State × Region :=
  State.placeItems (List.range r.stations.length).reverse s r.handedOver

/-- Steps 4 to 7 of R172. -/
def State.stepOn (s : State) (l : Nat) (r : Region) : State × Region :=
  let p := s.placed r
  (p.1.applyArgs p.2).postGreens l (p.1.turned p.2)

theorem State.stepOn_cycleAt (s : State) (l : Nat) (r : Region) (t : Nat) : (s.stepOn l r).1.cycleAt t = s.cycleAt t := by
  have dies : ((s.placed r).1.applyArgs (s.placed r).2).dies = s.dies :=
    (State.applyArgs_dies _ _).trans (State.placeItems_keeps _ s r.handedOver).1
  exact (State.postGreens_cycleAt _ _ _ t).trans (State.cycleAt_of_dies dies t)

theorem State.stepOn_course (s : State) (l : Nat) (r : Region) : (s.stepOn l r).2.course = r.course :=
  ((s.placed r).1.turned_keeps (s.placed r).2).1.trans (State.placeItems_keeps _ s r.handedOver).2

theorem State.stepOn_stations (s : State) (l : Nat) (r : Region) : (s.stepOn l r).2.stations = (s.placed r).2.stations :=
  ((s.placed r).1.turned_keeps (s.placed r).2).2

theorem State.finishBoundary_none (s : State) (l : Nat) (r : Region) : s.finishBoundary l r none =
    if (s.stepOn l r).2.mayStart then (s.stepOn l r).1.startBeat l (s.stepOn l r).2
    else (if ((s.stepOn l r).2.holdAsked || (s.stepOn l r).2.preempt.isSome) && (s.stepOn l r).2.evmask.getLsbD 2
      then (s.stepOn l r).1.post l 0x13 0 ((s.stepOn l r).2.beats % 2 ^ 32 * 2 ^ 16)
      else (s.stepOn l r).1).setRegion l { (s.stepOn l r).2 with phase := .held } := rfl

/-- A region without a hold starts the beat (R172 step 8). -/
theorem Region.mayStart_unheld {r : Region} (free : Unheld r) : r.mayStart = true := by
  obtain ⟨asked, gov, parity, preempt⟩ := free
  simp [Region.mayStart, asked, gov, parity, preempt]

theorem Region.mayStart_asked {r : Region} (asked : r.holdAsked = true) : r.mayStart = false := by
  simp [Region.mayStart, asked]

theorem Region.station_of_stations {q r : Region} (h : q.stations = r.stations) (k : Nat) : q.station k = r.station k := by
  rw [Region.station, h, Region.station]

/-- A beat that starts opens every issue gate (R171). -/
theorem State.startBeat_region (s : State) (l : Nat) (r : Region) :
    ∃ q, mapGet (s.startBeat l r).regions l = some q ∧ q.phase = .running ∧ q.beatStart = s.cycleAt l ∧ q.beats = r.beats + 1 ∧
      q.rslip = r.rslip ∧ ∀ k, q.station k = { r.station k with gate := false } := by
  have opened (x : Region) (h : x.stations = r.stations) (k : Nat) :
      ({ x with stations := x.stations.map fun st => { st with gate := false } } : Region).station k = { r.station k with gate := false } := by
    simp only [Region.station, h, List.getElem?_map]
    cases r.stations[k]? with
    | none => rfl
    | some st => rfl
  have set (v : Nat) := r.setBeat_keeps v
  unfold State.startBeat
  cases r.direct with
  | none => exact ⟨_, s.mapGet_setRegion_same l _, rfl, rfl, rfl, rfl, opened r rfl⟩
  | some v =>
    refine ⟨_, s.mapGet_setRegion_same l _, rfl, rfl, ?_, ?_, opened (r.setBeat v) (set v).2⟩
    · exact (congrArg (·.beats + 1) (set v).1 :)
    · exact (congrArg Region.rslip (set v).1 :)

theorem State.finishBoundary_goes {s : State} {r : Region} (l : Nat) (go : r.mayStart = true) :
    ∃ q, mapGet (s.finishBoundary l r none).regions l = some q ∧ q.phase = .running ∧ q.beats = r.beats + 1 ∧ q.beatStart = s.cycleAt l ∧
      ∀ k, q.station k = { (s.placed r).2.station k with gate := false } := by
  have course := s.stepOn_course l r
  have starts : (s.stepOn l r).2.mayStart = true := (congrArg Region.mayStart course).trans go
  obtain ⟨q, live, running, start, beats, -, stations⟩ := (s.stepOn l r).1.startBeat_region l (s.stepOn l r).2
  rw [State.finishBoundary_none, if_pos starts]
  refine ⟨q, live, running, beats.trans (congrArg (·.beats + 1) course), start.trans (s.stepOn_cycleAt l r l), fun k => ?_⟩
  rw [stations, Region.station_of_stations (s.stepOn_stations l r)]

theorem State.finishBoundary_holds {s : State} {r : Region} (l : Nat) (hold : r.mayStart = false) :
    ∃ q, mapGet (s.finishBoundary l r none).regions l = some q ∧ q.phase = .held ∧ q.beats = r.beats ∧
      ∀ k, q.station k = (s.placed r).2.station k := by
  have course := s.stepOn_course l r
  have stands : (s.stepOn l r).2.mayStart = false := (congrArg Region.mayStart course).trans hold
  rw [State.finishBoundary_none, if_neg (by simp [stands])]
  exact ⟨_, State.mapGet_setRegion_same _ l _, rfl, (congrArg Region.beats course :), Region.station_of_stations (s.stepOn_stations l r)⟩

/-- A slip is counted; in mode 0 it latches no length (R175, R180). -/
theorem State.countSlip_course {s : State} {r : Region} (l : Nat) (slip : List Nat × Nat × Nat) (mode : r.mode = 0) :
    (s.countSlip l r slip).2.course = { r.course with rslip := satWord (r.rslip.toNat + 1) } := by
  obtain ⟨sts, serial, since⟩ := slip
  exact congrArg Region.course (congrArg Prod.snd (if_pos mode))

theorem State.finishBoundary_slipped {s : State} {r : Region} (l : Nat) (slip : List Nat × Nat × Nat) (go : r.mayStart = true)
    (mode : r.mode = 0) (ceiling : r.slipceil = 0) :
    ∃ q, mapGet (s.finishBoundary l r (some slip)).regions l = some q ∧ q.phase = .running ∧
      q.rslip = satWord (r.rslip.toNat + 1) ∧ q.beats = r.beats + 1 := by
  have before := s.stepOn_course l r
  let c := (s.stepOn l r).1.countSlip l (s.stepOn l r).2 slip
  have counted : c.2.course = { r.course with rslip := satWord (r.rslip.toNat + 1) } :=
    (State.countSlip_course (r := (s.stepOn l r).2) l slip ((congrArg Region.mode before).trans mode)).trans
      (congrArg (fun x : Region => ({ x with rslip := satWord (x.rslip.toNat + 1) } : Region)) before)
  have none : c.2.slipceil = 0 := (congrArg Region.slipceil counted).trans ceiling
  have starts : c.2.mayStart = true := (congrArg Region.mayStart counted).trans go
  have goes : s.finishBoundary l r (some slip) = c.1.startBeat l c.2 := by
    change (if (some slip).isSome && c.2.slipceil ≠ 0 && c.2.slipceil < c.2.rslip.toNat then (c.1.setRegion l c.2).stopRegion l 0x18 0
      else if c.2.mayStart then c.1.startBeat l c.2 else _) = _
    rw [if_neg (by simp [none]), if_pos starts]
  obtain ⟨q, live, running, -, beats, rslip, -⟩ := c.1.startBeat_region l c.2
  exact ⟨q, goes ▸ live, running, rslip.trans (congrArg Region.rslip counted), beats.trans (congrArg (·.beats + 1) counted)⟩

/-! ### The boundary and the end of a slip (R172, R175) -/

section
variable {s : State} {l : Nat} {r : Region}

theorem exec_beatBoundary_pauses (due : AtBoundary s l r) (parity : r.parityHold = true) :
    exec (.beatBoundary l) s = .next (s.setRegion l { r with paused := true }) := by
  show execBeatBoundary l s = _
  simp only [execBeatBoundary, due.1, due.2, parity, Bool.not_true, Bool.false_eq_true, if_false, if_true]

theorem exec_beatBoundary_stops (due : AtBoundary s l r) (parity : r.parityHold = false) {st : Nat} (inside : st < r.stations.length)
    (fixed : (r.station st).resumable = false) (busy : r.finished s st = false) :
    exec (.beatBoundary l) s = .next (s.stopRegion l 0x17 0) := by
  have stuck : ((List.range r.stations.length).any fun st => !(r.station st).resumable && !r.finished s st) = true :=
    List.any_eq_true.2 ⟨st, List.mem_range.2 inside, by simp [fixed, busy]⟩
  show execBeatBoundary l s = _
  simp only [execBeatBoundary, due.1, due.2, parity, stuck, Bool.not_true, Bool.false_eq_true, if_false, if_true]

/-- A boundary at which every station that is not resumable has finished. -/
theorem exec_beatBoundary_turns (due : AtBoundary s l r) (parity : r.parityHold = false) (mode : r.mode ≠ 2)
    (done : ∀ st, st < r.stations.length → (r.station st).resumable = true ∨ r.finished s st = true) :
    let g := State.markGreen (List.range r.stations.length) s r []
    exec (.beatBoundary l) s = .next (if g.2.2 = [] then g.1.finishBoundary l g.2.1 none else g.1.setRegion l { g.2.1 with
      phase := .slipping g.2.2 (g.1.cycleAt l)
      stations := g.2.1.stations.mapIdx fun i st => if g.2.2.contains i then { st with gate := false } else st }) := by
  have goes : ((List.range r.stations.length).any fun st => !(r.station st).resumable && !r.finished s st) = false := by
    rw [List.any_eq_false]
    intro st mem
    rcases done st (List.mem_range.1 mem) with h | h
    · simp [h]
    · simp [h]
  show execBeatBoundary l s = _
  simp only [execBeatBoundary, due.1, due.2, parity, goes, State.closeWindow_open l (.inl mode), Bool.not_true, Bool.false_eq_true,
    if_false]
  exact (apply_ite _ _ _ _).symm

theorem exec_slipEnd_goes {sts : List Nat} {since : Nat} (live : mapGet s.regions l = some r) (phase : r.phase = .slipping sts since)
    (ages : s.ageStands r = false) (may : s.lineMay l r = true) (mode : r.mode ≠ 2) (done : ∀ st ∈ sts, r.finished s st = true)
    (sinks : r.sinks.all Sink.ready = false) : exec (.slipEnd l) s =
      .next (s.finishBoundary l r (some (sts, (r.station (sts.headD 0)).item.getD 0, since))) := by
  have all : (sts.all fun st => r.finished s st) = true := List.all_eq_true.2 done
  show execSlipEnd l s = _
  simp only [execSlipEnd, live, phase, all, ages, sinks, may, State.closeWindow_open l (.inl mode), Bool.not_false, Bool.and_self, if_true]

theorem exec_slipEnd_still {sts : List Nat} {since : Nat} (live : mapGet s.regions l = some r) (phase : r.phase = .slipping sts since)
    (h : r.sinks.all Sink.ready = true ∨ ∃ st ∈ sts, r.finished s st = false) : exec (.slipEnd l) s = .next s := by
  have waits : ((sts.all fun st => r.finished s st) && !s.ageStands r && !r.sinks.all Sink.ready && s.lineMay l r) = false := by
    rcases h with ready | ⟨st, mem, busy⟩
    · simp [ready]
    · have : (sts.all fun st => r.finished s st) = false := List.all_eq_false.2 ⟨st, mem, by simp [busy]⟩
      simp [this]
  show execSlipEnd l s = _
  simp only [execSlipEnd, live, phase, waits, Bool.false_eq_true, if_false]

end

/-! ### The end of a window (R180) -/

section
variable {s : State} {l : Nat} {r : Region}

theorem State.governorLatch_quiet (v : Nat) (next : r.nextBeat = none) (direct : r.direct = none) (quiet : r.evmask.getLsbD 1 = false) :
    s.governorLatch l r v = (s, { r with nextBeat := if v = r.beat then none else some v }) := by
  by_cases same : v = r.beat
  · rw [State.governorLatch, if_pos (by simp [same]), if_pos same, ← next]
  · rw [State.governorLatch, if_neg (by simp [next, direct, same]), quiet, if_neg same]
    rfl

/-- The length that the auto governor takes at the end of a window (R180). -/
def Region.governed (r : Region) : Nat :=
  if 0 < r.winSlips ∨ r.hyshi ≤ r.winGreens then min r.ceiling (r.beat + r.step)
  else if r.winGreens ≤ r.hyslo then max r.floor (r.beat - r.step)
  else r.beat

theorem State.closeWindow_ends (mode : r.mode = 2) (ended : 64 ≤ r.winBeats) (next : r.nextBeat = none) (direct : r.direct = none)
    (quiet : r.evmask.getLsbD 1 = false) : s.closeWindow l r = (s, nextLength r r.governed) := by
  have done : r.windowDone = true := by simp [Region.windowDone, mode, ended]
  have latch (v : Nat) := State.governorLatch_quiet (s := s) (l := l) v next direct quiet
  have keeps : ({ r with winBeats := 0, winGreens := 0, winSlips := 0 } : Region) = nextLength r r.beat := by
    simp only [nextLength, if_true, ← next]
  unfold Region.governed
  by_cases long : 0 < r.winSlips ∨ r.hyshi ≤ r.winGreens
  · simp only [State.closeWindow, done, Bool.not_true, Bool.false_eq_true, Bool.or_eq_true, decide_eq_true_eq, long, if_true, if_false, latch]
  · by_cases short : r.winGreens ≤ r.hyslo
    · simp only [State.closeWindow, done, Bool.not_true, Bool.false_eq_true, Bool.or_eq_true, decide_eq_true_eq, long, short, if_true,
        if_false, latch]
    · simp only [State.closeWindow, done, Bool.not_true, Bool.false_eq_true, Bool.or_eq_true, decide_eq_true_eq, long, short, if_false,
        keeps]

theorem exec_governorWindow_ends (live : mapGet s.regions l = some r) (mode : r.mode = 2) (ended : 64 ≤ r.winBeats) (next : r.nextBeat = none)
    (direct : r.direct = none) (quiet : r.evmask.getLsbD 1 = false) (may : s.lineMay l r = true) :
    exec (.governorWindow l) s = .next (s.setRegion l (nextLength r r.governed)) := by
  show execGovernorWindow l s = _
  simp only [execGovernorWindow, live, may, State.closeWindow_ends mode ended next direct quiet, Bool.not_true, Bool.false_eq_true, if_false]

end

/-! ### Reports and retirement (R173, R177) -/

@[simp] theorem State.woMark_regions (s : State) (a : Nat) : (s.woMark a).regions = s.regions := by
  unfold State.woMark
  split
  · rfl
  · simp only []
    repeat' split
    all_goals rfl

@[simp] theorem State.writeCells_regions (s : State) (cells : List Host.Cell) : (s.writeCells cells).regions = s.regions :=
  List.foldlRecOn (motive := fun (t : State) => t.regions = s.regions) _ _ rfl fun t h c _ => (t.woMark_regions c.1).trans h

@[simp] theorem State.writeM_regions (s : State) (a : Nat) (bs : List Byte) : (s.writeM a bs).regions = s.regions := s.writeCells_regions _

@[simp] theorem State.drainNode_regions (s : State) (t n scope : Nat) : (s.drainNode t n scope).regions = s.regions :=
  List.foldlRecOn (motive := fun (t : State) => t.regions = s.regions) _ _ rfl fun t h cells _ => (t.writeCells_regions cells).trans h

@[simp] theorem State.drainNodes_regions (s : State) (tiles : List Nat) : (s.drainNodes tiles).regions = s.regions := by
  refine List.foldlRecOn (motive := fun (t : State) => t.regions = s.regions) _ _ rfl fun t h x _ => ?_
  refine List.foldlRecOn (motive := fun (t : State) => t.regions = s.regions) _ _ h fun t h m _ => ?_
  split
  · exact (t.drainNode_regions x (slotM m) 4).trans h
  · exact h

theorem mapGet_mapErase {α : Type} (m : Map α) (k : Nat) : mapGet (mapErase m k) k = none := by
  induction m with
  | nil => rfl
  | cons e m ih =>
    obtain ⟨j, v⟩ := e
    by_cases h : j = k
    · simpa [mapErase, h] using ih
    · simpa [mapErase, h, mapGet] using ih

theorem State.releaseRegion_gone (s : State) (l : Nat) : mapGet (s.releaseRegion l).regions l = none := by
  unfold State.releaseRegion
  split
  case h_1 none => exact none
  case h_2 =>
    rw [← mapGet_mapErase s.regions l]
    refine congrArg (fun m => mapGet (mapErase m l) l) ?_
    exact List.foldlRecOn (motive := fun (t : State) => t.regions = s.regions) _ _ rfl fun _ h _ _ => h

theorem State.releaseRegion_mem (s : State) (l : Nat) : (s.releaseRegion l).mem = s.mem := by
  unfold State.releaseRegion
  split
  · rfl
  · exact List.foldlRecOn (motive := fun (t : State) => t.mem = s.mem) _ _ rfl fun _ h _ _ => h

/-- A retirement changes at most the walker contexts that a graph's region belongs to (R282). -/
theorem State.graphRetire_cases (s : State) (graph : Option (Nat × Nat)) (err : Bool) :
    ∃ contexts, s.graphRetire graph err = { s with contexts := contexts } := by
  unfold State.graphRetire
  split
  · exact ⟨s.contexts, rfl⟩
  · split
    · exact ⟨s.contexts, rfl⟩
    · exact ⟨_, rfl⟩

theorem State.closeRegion_stores {s : State} {l : Nat} {r : Region} (word : Nat) (live : mapGet s.regions l = some r) :
    mapGet (s.closeRegion l word).regions l = none ∧
      (s.closeRegion l word).mem = (s.writeM (spBase l + r.cword) (toBytes word 8)).mem := by
  obtain ⟨contexts, graph⟩ := s.graphRetire_cases r.graph (word.testBit 16)
  simp only [State.closeRegion, live, graph, State.post_regions, State.post_mem, State.releaseRegion_gone, State.releaseRegion_mem,
    true_and]
  simp only [State.writeM, State.writeCells, State.foldl_woMark_mem]
  rfl

section
variable {s : State} {l i : Nat} {r : Region} {k : Sink} (live : mapGet s.regions l = some r) (sink : r.sinks[i]? = some k)
include live sink

theorem exec_sinkReport_reports (ready : k.ready = true) (first : k.reported = false) (may : s.lineMay l r = true) :
    let q := r.setSink i { k with reported := true }
    exec (.sinkReport l i) s =
      .next (if q.sinks.all Sink.reported then (s.setRegion l q).retire l else s.setRegion l q) := by
  show execSinkReport l i s = _
  simp only [execSinkReport, live, sink, ready, first, may, Bool.not_false, Bool.and_self, if_true]

theorem exec_sinkReport_still (waits : k.ready = false) : exec (.sinkReport l i) s = .next s := by
  show execSinkReport l i s = _
  simp only [execSinkReport, live, sink, waits, Bool.false_and, Bool.false_eq_true, if_false]

end

theorem State.retire_stores {s : State} {l : Nat} {r : Region} (live : mapGet s.regions l = some r) :
    mapGet (s.retire l).regions l = none ∧ (s.retire l).mem = ((s.drainNodes r.tiles).writeM (spBase l + r.cword)
      (toBytes (completionWord r.beats (r.err.getD 0) r.err.isSome r.flags) 8)).mem := by
  simp only [State.retire, live]
  exact State.closeRegion_stores _ (by rw [State.drainNodes_regions, live])

section
variable {s : State} {l : Nat} {r : Region}

/-- A boundary at which every station has finished and no loop holds an item: the items move on by a station (R172 step 5). -/
theorem exec_beatBoundary_moves (due : AtBoundary s l r) (parity : r.parityHold = false) (mode : r.mode ≠ 2)
    (done : ∀ st, st < r.stations.length → r.finished s st = true ∧ (r.station st).loop = [] ∧ r.isSource s st = false) :
    ∃ t q, exec (.beatBoundary l) s = .next t ∧ mapGet t.regions l = some q ∧
      (∀ st, st < r.stations.length → (q.station st).item = if st = 0 then none else (r.station (st - 1)).item) ∧
      (Unheld r → q.phase = .running ∧ q.beats = r.beats + 1 ∧ q.beatStart = s.cycleAt l) ∧
      (r.holdAsked = true → q.phase = .held ∧ q.beats = r.beats) := by
  have all : State.markGreen (List.range r.stations.length) s r [] = (s, r, []) :=
    State.markGreen_finished [] fun st mem => (done st (List.mem_range.1 mem)).1
  have goes : exec (.beatBoundary l) s = .next (s.finishBoundary l r none) := by
    rw [exec_beatBoundary_turns due parity mode fun st inside => .inr (done st inside).1, all, if_pos rfl]
  have rests (st : Nat) (inside : st < r.stations.length) : r.handedOver.loopRests st := by
    intro g head
    rw [show (r.handedOver.station st).loop = [] from (done st inside).2.1] at head
    exact nomatch head
  obtain ⟨p, placed, moved, -⟩ := State.placeItems_rests (s := s) (r := r.handedOver) le_rfl rests
  have item (st : Nat) (inside : st < r.stations.length) : (p.station st).item = if st = 0 then none else (r.station (st - 1)).item := by
    rw [moved st inside]
    simp only [Region.incoming, r.isSource_handedOver, (done st inside).2.2, Bool.or_false, decide_eq_true_eq]
    rfl
  have placed : s.placed r = (s, p) := placed
  cases may : r.mayStart with
  | true =>
    obtain ⟨q, live, running, beats, start, stations⟩ := State.finishBoundary_goes (s := s) l may
    refine ⟨_, q, goes, live, fun st inside => ?_, fun _ => ⟨running, beats, start⟩, fun asked => ?_⟩
    · rw [stations, placed]
      exact item st inside
    · rw [Region.mayStart_asked asked] at may
      exact nomatch may
  | false =>
    obtain ⟨q, live, held, beats, stations⟩ := State.finishBoundary_holds (s := s) l may
    refine ⟨_, q, goes, live, fun st inside => ?_, fun free => ?_, fun _ => ⟨held, beats⟩⟩
    · rw [stations, placed]
      exact item st inside
    · rw [Region.mayStart_unheld free] at may
      exact nomatch may

section
variable {st : Nat} (due : AtBoundary s l r) (parity : r.parityHold = false) (mode : r.mode ≠ 2)
  (resumable : (r.station st).resumable = true)
  (others : ∀ k, k < r.stations.length → k ≠ st → r.finished s k = true ∧ (r.station k).loop = [])
include due parity mode resumable others

/-- A boundary at which no station but a resumable one is unfinished. -/
theorem exec_beatBoundary_one :
    let g := State.markGreen (List.range r.stations.length) s r []
    exec (.beatBoundary l) s = .next (if g.2.2 = [] then g.1.finishBoundary l g.2.1 none else g.1.setRegion l { g.2.1 with
      phase := .slipping g.2.2 (g.1.cycleAt l)
      stations := g.2.1.stations.mapIdx fun i st => if g.2.2.contains i then { st with gate := false } else st }) := by
  refine exec_beatBoundary_turns due parity mode fun k small => ?_
  by_cases e : k = st
  · exact .inl (e ▸ resumable)
  · exact .inr (others k small e).1

variable (inside : st < r.stations.length) (busy : r.finished s st = false)
include inside busy

theorem exec_beatBoundary_slips (full : (r.station st).places = 0) :
    ∃ q, exec (.beatBoundary l) s = .next (s.setRegion l q) ∧ q.phase = .slipping [st] (s.cycleAt l) ∧ q.beats = r.beats := by
  have marked : State.markGreen (List.range r.stations.length) s r [] = (s, r, [st]) :=
    State.markGreen_slip (List.mem_range.2 inside) List.nodup_range busy (fun k mem => And.left ∘ others k (List.mem_range.1 mem)) []
      (by rw [full]; exact Nat.zero_le _)
  rw [exec_beatBoundary_one due parity mode resumable others, marked, if_neg (List.cons_ne_nil _ _)]
  exact ⟨_, rfl, rfl, rfl⟩

variable (empty : (r.station st).loop = [])
include empty

/-- The item of the one station that has not finished goes to its loop, where it has a place (R172 step 3). -/
theorem exec_beatBoundary_green (place : 0 < (r.station st).places) (free : Unheld r) :
    ∃ t q, exec (.beatBoundary l) s = .next t ∧ mapGet t.regions l = some q ∧ (q.station st).loop = [s.greenItem r st] ∧
      (q.station st).green = satWord ((r.station st).green.toNat + 1) := by
  let r' := (s.goGreen r st).2
  have marked : State.markGreen (List.range r.stations.length) s r [] = ((s.goGreen r st).1, r', []) :=
    State.markGreen_green (List.mem_range.2 inside) List.nodup_range busy (fun k mem => And.left ∘ others k (List.mem_range.1 mem)) []
      (by rwa [Region.occupied_empty empty])
  have goes : exec (.beatBoundary l) s = .next ((s.goGreen r st).1.finishBoundary l r' none) := by
    rw [exec_beatBoundary_one due parity mode resumable others, marked, if_pos rfl]
  have length : r'.stations.length = r.stations.length := List.length_set
  have greened : r'.station st = (r.station st).greened (s.greenItem r st) (r.occupied s st + 1) :=
    r.station_setStation_same _ inside
  have loop : (r'.station st).loop = [s.greenItem r st] := by
    rw [greened]
    exact congrArg (· ++ [s.greenItem r st]) empty
  have rests (k : Nat) (small : k < r'.stations.length) : r'.handedOver.loopRests k := by
    intro g head
    by_cases e : k = st
    · rw [e, show (r'.handedOver.station st).loop = _ from loop] at head
      exact Option.some.inj head ▸ rfl
    · have same : r'.station k = r.station k := r.station_setStation_ne _ e
      rw [show (r'.handedOver.station k).loop = [] from (congrArg Station.loop same).trans (others k (length ▸ small) e).2] at head
      exact nomatch head
  obtain ⟨p, placed, moved, -⟩ := State.placeItems_rests (s := (s.goGreen r st).1) (r := r'.handedOver) le_rfl rests
  have placed : (s.goGreen r st).1.placed r' = ((s.goGreen r st).1, p) := placed
  have may : r'.mayStart = true := Region.mayStart_unheld free
  obtain ⟨q, live, -, -, -, stations⟩ := State.finishBoundary_goes (s := (s.goGreen r st).1) l may
  have kept : q.station st = { r'.station st with
      item := r'.handedOver.incoming (s.goGreen r st).1 st, closed := [], gate := false } := by
    rw [stations, placed, moved st (lt_of_lt_of_eq inside length.symm)]
    rfl
  refine ⟨_, q, goes, live, ?_, ?_⟩
  · rw [kept]
    exact loop
  · rw [kept, greened]
    rfl

end

end

/-! ### Beat instructions (R179, R181 to R183) -/

/-- A bound of the largest of 4 and the static lengths is one of each of them (R179). -/
theorem Region.least_le_iff (r : Region) (x : Int) : (r.least : Int) ≤ x ↔ 4 ≤ x ∧ ∀ st ∈ r.stations, (st.length : Int) ≤ x := by
  have bound (l : List Station) (n : Nat) :
      ((l.foldl (fun n st => max n st.length) n : Nat) : Int) ≤ x ↔ (n : Int) ≤ x ∧ ∀ st ∈ l, (st.length : Int) ≤ x := by
    induction l generalizing n with
    | nil => simp
    | cons st l ih => simp only [List.foldl_cons, ih, Nat.cast_max, max_le_iff, List.forall_mem_cons, and_assoc]
  exact bound r.stations 4

section
variable {s : State} {r : Region} (order : s.loadPending s.cur = false) (leads : mapGet s.regions s.cur = some r)
include order leads

theorem onLine_leads (i : Instr) (go : Region → Out) : onLine i s go = go r := by
  simp only [onLine, order, leads, Bool.false_eq_true, if_false]

theorem beatSet_ok {sub : BitVec 3} {v : Dword} (i : Instr) (len : Nat) (still : r.mode ≠ 2 ∨ r.winBeats < 64)
    (ok : r.bsetFault sub.toNat v.toInt = none) :
    beatSet i sub v len s = finish (s.setRegion s.cur (r.bset sub.toNat v.toNat)) len := by
  simp only [beatSet, onLine_leads order leads, ok, State.closeWindow_open _ still, State.setLine]

theorem execBget_ok {f : FormA} (holds : Holds s f.gn f.guard) :
    execBget f s = writeReg s f.d (BitVec.ofNat 64 (r.bget f.sub.toNat)) lenA := by
  rw [execBget, guarded_true _ _ holds, onLine_leads order leads]

theorem execBhold_ok {f : FormA} (holds : Holds s f.gn f.guard) :
    execBhold f s = finish (if r.phase = .held then s else s.setRegion s.cur { r with holdAsked := true }) lenA := by
  rw [execBhold, guarded_true _ _ holds, onLine_leads order leads]
  rfl

theorem execBgo_ok {f : FormA} (holds : Holds s f.gn f.guard) :
    execBgo f s =
      finish (if r.phase = .held then (s.setRegion s.cur { r with holdAsked := false }).releaseHold s.cur else s) lenA := by
  rw [execBgo, guarded_true _ _ holds, onLine_leads order leads]
  rfl

theorem counterRead_ok {sub : BitVec 3} {v : Dword} (i : Instr) (d : BitVec 5) (len : Nat) (ok : r.badStation sub.toNat v = false) :
    counterRead i sub d v len s = writeReg s d (BitVec.ofNat 64 (r.counter s sub.toNat v.toNat)) len := by
  simp only [counterRead, onLine_leads order leads, ok, Bool.false_eq_true, if_false]

theorem counterClear_ok {sub : BitVec 3} {v : Dword} (i : Instr) (len : Nat) (ok : r.badStation sub.toNat v = false) :
    counterClear i sub v len s = finish (s.setRegion s.cur (r.clearCounter s sub.toNat v.toNat)) len := by
  simp only [counterClear, onLine_leads order leads, ok, Bool.false_eq_true, if_false, State.setLine]

end

section
variable {s : State} {r : Region} (order : s.loadPending s.cur = false) (leads : mapGet s.regions s.cur = some r)
include order leads

theorem execRfstA_ok {f : FormA} (holds : Holds s f.gn f.guard) (ok : r.badStation f.sub.toNat (s.core.reg f.a) = false) :
    execRfstA f s = writeReg s f.d (BitVec.ofNat 64 (r.counter s f.sub.toNat (s.core.reg f.a).toNat)) lenA :=
  (guarded_true _ _ holds).trans (counterRead_ok order leads _ _ _ ok)

theorem execRfstB_ok {f : FormB} (holds : Holds s f.gn f.guard) (ok : r.badStation f.sub.toNat (f.imm16.signExtend 64) = false) :
    execRfstB f s = writeReg s f.d (BitVec.ofNat 64 (r.counter s f.sub.toNat (f.imm16.signExtend 64).toNat)) lenB :=
  (guarded_true _ _ holds).trans (counterRead_ok order leads _ _ _ ok)

theorem execRfclA_ok {f : FormA} (holds : Holds s f.gn f.guard) (ok : r.badStation f.sub.toNat (s.core.reg f.a) = false) :
    execRfclA f s = finish (s.setRegion s.cur (r.clearCounter s f.sub.toNat (s.core.reg f.a).toNat)) lenA :=
  (guarded_true _ _ holds).trans (counterClear_ok order leads _ _ ok)

theorem execRfclB_ok {f : FormB} (holds : Holds s f.gn f.guard) (ok : r.badStation f.sub.toNat (f.imm16.signExtend 64) = false) :
    execRfclB f s = finish (s.setRegion s.cur (r.clearCounter s f.sub.toNat (f.imm16.signExtend 64).toNat)) lenB :=
  (guarded_true _ _ holds).trans (counterClear_ok order leads _ _ ok)

end

/-- A number that is not negative reads as it does unsigned. -/
theorem toInt_eq_toNat {v : Dword} (h : 0 ≤ v.toInt) : v.toInt = v.toNat := by
  rw [BitVec.toInt_eq_toNat_cond] at h ⊢
  split at h <;> omega

/-- `bget` reads a register by its number (R179). -/
theorem Region.bget_eq (r : Region) (sub : BitVec 3) : r.bget sub.toNat =
    [r.beat, r.floor, r.ceiling, r.step, r.mode, r.slipceil, r.hyslo + r.hyshi * 256, r.beats][sub.toNat]?.getD 0 := by
  have small := sub.isLt
  generalize sub.toNat = n at small
  interval_cases n <;> rfl

theorem Region.badStation_inside (r : Region) (sub : Nat) {v : Dword} (h : v.toNat < r.stations.length) : r.badStation sub v = false := by
  simp [Region.badStation, Nat.not_le.2 h]

/-! ### A region load that goes (R164, R165) -/

/-- The loader begins once the tile leads no region and no gate of the load holds it back (R164). -/
theorem exec_regionLoad_begins {s : State} {n : Nat} {c : Cmd} (carried : Carried s n c) (kind : c.kind = .stream 0x05)
    (free : mapGet s.regions c.tile = none) (goes : s.loadWaits c.tile c.r1.toNat c.fn = false) :
    exec (.regionLoad n) s = .next (s.loadRegion n c.tile c.r1.toNat c.fn c.user none) := by
  obtain ⟨stands, may, running⟩ := carried
  have code : c.code = 0x05 := by simp only [Cmd.code, kind]
  show execRegionLoad n s = _
  simp only [execRegionLoad, stands, free, may, code, running, goes, decide_true, Bool.not_false, Bool.and_self, if_true]

/-! ### Commands and their engines (R232, R249, R250) -/

theorem Cmd.code_stream {c : Cmd} {k : Nat} (kind : c.kind = .stream k) : c.code = k := by simp only [Cmd.code, kind]

theorem Cmd.isDraft_stream {c : Cmd} {k : Nat} (kind : c.kind = .stream k) : c.isDraft = false := by simp only [Cmd.isDraft, kind]

/-- The head of a queue goes to a copy engine that is free (R249). -/
theorem exec_commandDispatch_copy {s : State} {t eng n : Nat} {q : List Nat} {c : Cmd} (queue : (s.coreOf t).queue = n :: q)
    (stands : mapGet s.cmds n = some c) (may : s.cmdMay c = true) (queued : c.stage = .queued) (engine : eng < 8) (copy : c.onCopy = true)
    (core : c.graph = none) (free : mapGet (s.die (dieOf c.tile)).engines eng = none)
    (runs : (s.age (copyAge (dieOf c.tile) eng)).stopped = none) :
    let d := dieOf c.tile
    let k := s.coreOf c.tile
    let u := (s.setCore c.tile { k with queue := k.queue.filter (· ≠ n) }).setCmd n
      { c with gen := engineSeed c eng, ageStop := none, stage := .running, engine := d * 16 + eng }
    let v := u.setAge (copyAge d eng) { Age.reset with stopped := c.ageStop }
    exec (.commandDispatch t eng) s = .next (v.setDie d { v.die d with engines := mapSet (v.die d).engines eng n }) := by
  intro d k u v
  have head : (if eng < 16 then (s.coreOf t).queue.head? else (s.cmds.find? fun c => c.2.tile = t && c.2.awaits).map Prod.fst) = some n := by
    rw [if_pos (by omega), queue]
    rfl
  have number : eng % 16 = eng := Nat.mod_eq_of_lt (by omega)
  have ofCore : c.graph.isNone = true := by rw [core, Option.isNone_none]
  have dispatch : s.dispatchCmd n c eng = v.setDie d { v.die d with engines := mapSet (v.die d).engines eng n } := by
    simp only [State.dispatchCmd, copy, engine, free, runs, queued, Bool.true_or, Option.isNone_none, decide_true, Bool.and_self, if_true,
      reduceCtorEq, if_false, State.start, ofCore]
    rfl
  show execCommandDispatch t eng s = _
  simp only [execCommandDispatch, head, stands, may, queued, decide_true, Bool.true_or, Bool.and_self, if_true, number, dispatch]

section
variable {s : State} {n : Nat} {c : Cmd}

/-- An engine whose command has every write in M completes it (R232). -/
theorem exec_engineComplete_runs (stands : mapGet s.cmds n = some c) (may : s.cmdMay c = true) (complete : c.stage = .complete) :
    exec (.engineComplete n) s = .next (s.completeCmd n c) := by
  show execEngineComplete n s = _
  simp only [execEngineComplete, stands, may, complete, decide_true, Bool.and_self, if_true]

variable (last : c.follow = none) (core : c.graph = none)
include last core

/-- A command of a core without a follow-on reports, gives its flags and leaves (R232, R252). -/
theorem completeCmd_leaves (noLoad : c.code ≠ 0x05) :
    s.completeCmd n c = (((s.pushReport n c c.bytes c.ranges).giveFlags c).cmdDone c).removeCmd n := by
  simp only [State.completeCmd, noLoad, ne_eq, not_false_eq_true, if_true, last, core, Option.isSome_none, Bool.false_eq_true, if_false]

/-- The load of a region refreshes the memory nodes of its tiles first (R229, R246). -/
theorem completeCmd_load {r : Region} (load : c.code = 0x05) (region : mapGet s.regions c.tile = some r) (own : r.cmd = n) :
    s.completeCmd n c =
      ((((s.refreshNodes r.tiles).pushReport n c c.bytes c.ranges).giveFlags c).cmdDone c).removeCmd n := by
  simp only [State.completeCmd, load, ne_eq, not_true_eq_false, region, own, if_true, last, core, Option.isSome_none, Bool.false_eq_true,
    if_false]

end

/-! ### Reports (R237, R238, R242) -/

section
variable {s : State} {eng : Nat}

theorem exec_engineReport_still (h : (s.die (cqPlace eng).1).lost = true ∨ (s.die (cqPlace eng).1).stopped = true) :
    exec (.engineReport eng) s = .next s := by
  have rests : ((s.die (cqPlace eng).1).lost || (s.die (cqPlace eng).1).stopped) = true := by simpa only [Bool.or_eq_true] using h
  show execEngineReport eng s = _
  simp only [execEngineReport, rests, if_true]

theorem exec_engineReport_head {u : State} {r : Completion} (head : HeadRecord s (cqPlace eng).1 (cqPlace eng).2 r u)
    (here : (s.die (cqPlace eng).1).lost = false) (runs : (s.die (cqPlace eng).1).stopped = false) :
    exec (.engineReport eng) s = .next (u.report r) := by
  obtain ⟨rest, queue, rfl⟩ := head
  show execEngineReport eng s = _
  simp only [execEngineReport, here, runs, queue, Option.getD_some, Bool.or_self, Bool.false_eq_true, if_false]

end

section
variable {s : State} {r : Completion}

theorem State.report_away (away : (s.awayBarrier r).isSome = true) : s.report r = { s with owed := s.owed ++ [r] } := by
  rw [State.report, if_pos away]

variable (here : s.awayBarrier r = none)
include here

theorem State.report_ok {v : State} (ok : s.updateBarrier (deviceOf r.tile) r.bar
    { bytes := r.bytes, expect := r.expect, arrivals := r.arrivals, ranges := r.ranges } = .ok v) : s.report r = v := by
  simp only [State.report, here, Option.isSome_none, Bool.false_eq_true, if_false, ok]

/-- A core whose tile no save has taken away takes the code of a failing update (R251). -/
theorem State.report_fails {code : BitVec 7} (fails : s.updateBarrier (deviceOf r.tile) r.bar
    { bytes := r.bytes, expect := r.expect, arrivals := r.arrivals, ranges := r.ranges } = .error code)
    (home : mapGet s.away (homeKey r.fn r.tile) = none) : s.report r = s.imprecise r.tile code r.bar.toNat := by
  simp only [State.report, here, Option.isSome_none, Bool.false_eq_true, if_false, fails, State.impreciseTo, State.setHomeCore,
    State.setHomeTile, State.homeCore, State.homeTile, home, Option.bind_none]
  rfl

end

theorem exec_sbarArrive_arrives {s v : State} {t n : Nat} {q : List Nat} {c : Cmd} (queue : (s.coreOf t).queue = n :: q)
    (stands : mapGet s.cmds n = some c) (may : s.cmdMay c = true) (kind : c.kind = .stream 0x0F) (reported : s.allReported t n = true)
    (ok : ((s.removeCmd n).cmdDone c).updateBarrier (deviceOf t) c.r1
      { bytes := 0, expect := c.r2.toNat, arrivals := 1, ranges := [] } = .ok v) : exec (.sbarArrive t) s = .next v := by
  show execSbarArrive t s = _
  simp only [execSbarArrive, queue, stands, may, Cmd.code_stream kind, reported, decide_true, Bool.and_self, if_true, ok]

/-! ### Copies (R227, R256) -/

section
variable {s : State} {n k : Nat} {c : Cmd} (carried : Carried s n c) (kind : c.kind = .stream 0x0A)

/-- The address of an element of a tensor in the scratchpad, byte by byte (R57, R254). -/
theorem State.reachElement_local (s : State) (c : Cmd) (age : Nat) (e : Entry512) (reg : Dword) (bit w access : Nat) :
    s.reachElement c age false (tensorStart e reg false) bit w access =
      .ok s ((List.range (elemBytes bit w)).map fun i => spBase c.tile + (reg.toNat + bit / 8) + i) := rfl

include kind in
/-- A `scopy` reads no index list, and its places are its positions. -/
theorem Cmd.scopy_places (words : c.words = []) (inB : k < entCount c.entB) :
    c.indexed = true ∧ c.copyPlace k = true ∧ c.copySource k = some k ∧ c.copyDest k = k ∧ c.overtaken k = false := by
  have code := Cmd.code_stream kind
  simp [Cmd.indexed, Cmd.indexCount, Cmd.copyPlace, Cmd.copySource, Cmd.copyDest, Cmd.overtaken, code, words, inB]

variable (runs : (s.age c.copyAgeNo).stopped = none)
include carried kind runs

theorem engineMay_scopy : s.engineMay c = true := by
  obtain ⟨-, may, running⟩ := carried
  simp [State.engineMay, Cmd.onCopy, Cmd.code_stream kind, may, running, runs]

theorem exec_engineRead_scopy : exec (.engineRead n k) s = .next (s.copyRead n k c) := by
  have copy : c.onCopy = true := by simp [Cmd.onCopy, Cmd.code_stream kind]
  show execEngineRead n k s = _
  simp only [execEngineRead, carried.1, engineMay_scopy carried kind runs, kind, copy, Bool.not_true, Bool.false_eq_true, if_false, if_true]

theorem exec_engineWrite_scopy : exec (.engineWrite n k) s = .next (s.copyWrite n k c) := by
  have copy : c.onCopy = true := by simp [Cmd.onCopy, Cmd.code_stream kind]
  have noQuant : c.code ≠ 0x11 := by simp [Cmd.code_stream kind]
  show execEngineWrite n k s = _
  simp only [execEngineWrite, carried.1, engineMay_scopy carried kind runs, kind, copy, noQuant, Bool.not_true, Bool.false_eq_true, if_false,
    if_true]

end

/-! ### Elements of a copy (R256) -/

section
variable {s : State} {n k : Nat} {c : Cmd} (kind : c.kind = .stream 0x0A) (words : c.words = []) (inB : k < entCount c.entB)
  (new : k ∉ c.did)
include kind words inB new

/-- A `scopy` reads the element of place k in the scratchpad into its buffer. -/
theorem copyRead_scopy (inA : k < entCount c.entA) (unread : mapGet c.staged k = none) (loc : c.w1.getLsbD 5 = false)
    (noScale : entScale c.entA = 0) :
    let bit := entOffset c.entA k * entWidth c.entA
    let pas := (List.range (elemBytes bit (entWidth c.entA))).map fun i => spBase c.tile + (c.r1.toNat + bit / 8) + i
    s.copyRead n k c = (s.engineBytes c false pas.length).setCmd n
      { c with staged := mapSet c.staged k (elemGet (ofBytes (pas.map s.mem.get)) bit (entWidth c.entA)) } := by
  intro bit pas
  obtain ⟨indexed, place, source, -, -⟩ := Cmd.scopy_places kind words inB
  have fetched : s.fetchElement c c.copyAgeNo c.entA false (tensorStart c.entA c.r1 false) k =
      .ok s (elemGet (ofBytes (pas.map s.mem.get)) bit (entWidth c.entA)) 0 pas := by
    simp only [State.fetchElement, State.reachElement_local, noScale, if_true]
    rfl
  have fresh : c.did.contains k = false := by simpa using new
  have within : (if c.code = 0x0B then entCount c.entB else entCount c.entA) = entCount c.entA := by
    rw [Cmd.code_stream kind, if_neg (by decide)]
  simp only [State.copyRead, State.readPlace, indexed, place, source, Cmd.stagedAt, unread, fresh, within, loc, fetched, if_true,
    ge_iff_le, Nat.not_le.mpr inA, decide_false, Bool.not_true, Option.isSome_none, Bool.and_false, Bool.or_self, Bool.false_eq_true,
    if_false, Nat.zero_mul, Nat.add_zero]

/-- A `scopy` writes the conversion of the element that it holds to place k of the scratchpad. -/
theorem copyWrite_scopy {v : Nat} (held : mapGet c.staged k = some v) (loc : c.w2.getLsbD 5 = false) :
    let bit := entOffset c.entB k * entWidth c.entB
    let pas := (List.range (elemBytes bit (entWidth c.entB))).map fun i => spBase c.tile + (c.r2.toNat + bit / 8) + i
    let r := c.copyPattern (v % 2 ^ 32) (v / 2 ^ 32)
    let c' := { c with
      did := k :: c.did, staged := mapErase c.staged k, flags := c.flags ||| r.flags, gen := r.gen, ranges := addBytes c.ranges pas }
    s.copyWrite n k c = ((s.putElement pas bit (entWidth c.entB) r.bits).engineBytes c true pas.length).setCmd n c'.copyDone := by
  intro bit pas r c'
  obtain ⟨indexed, place, source, dest, first⟩ := Cmd.scopy_places kind words inB
  have fresh : c.did.contains k = false := by simpa using new
  simp only [State.copyWrite, indexed, place, source, dest, first, held, fresh, loc, State.reachElement_local, Option.isNone_some,
    Bool.not_true, Bool.or_self, Bool.false_eq_true, if_false]
  rfl

end

/-! ### Port commands (R185, R186, R217) -/

section
variable {s : State} {n : Nat} {c : Cmd} (carried : Carried s n c)
include carried

/-- The port address generator serves the command that is first at it. -/
theorem exec_portAgeStream (first : s.cmds.find? (fun x => x.2.tile = c.tile && x.2.stage = .running && x.2.throughPortAge) = some (n, c))
    (runs : (s.tile c.tile).portAge.stopped = none) : exec (.portAgeStream c.tile) s = .next (s.portTurn n c) := by
  show execPortAgeStream c.tile s = _
  simp only [execPortAgeStream, first, carried.2.1, runs, Option.isNone_none, Bool.and_self, if_true]

/-- A port command that needs no address generator moves with the reads of its engine. -/
theorem exec_engineRead_port {k : Nat} (kind : c.kind = .stream k) (port : k = 0x00 ∨ k = 0x01 ∨ k = 0x02)
    (loc : c.throughPortAge = false) (j : Nat) : exec (.engineRead n j) s = .next (s.portTurn n c) := by
  obtain ⟨stands, may, running⟩ := carried
  have code := Cmd.code_stream kind
  have noCopy : c.onCopy = false := by
    rcases port with rfl | rfl | rfl <;> simp [Cmd.onCopy, code]
  have noTier : c.tierOp = none := by
    rcases port with rfl | rfl | rfl <;> simp [Cmd.tierOp, kind]
  have noArray : k ≠ 0x07 ∧ k ≠ 0x09 := by omega
  have engine : s.engineMay c = true := by
    simp only [State.engineMay, may, running, noCopy, Cmd.isDraft_stream kind, decide_true, Bool.or_self, Bool.false_eq_true, if_false,
      Bool.and_self]
  show execEngineRead n j s = _
  simp only [execEngineRead, stands, engine, kind, noCopy, code, noArray, noTier, State.localPortTurn, loc, Bool.not_true,
    Bool.false_eq_true, if_false]

/-- The step in which a port command moves its token: by the port's address generator or by itself (R217). -/
theorem exec_portMove {t k : Nat} {u : State} (here : c.tile = t) (kind : c.kind = .stream k) (port : k = 0x00 ∨ k = 0x01 ∨ k = 0x02)
    (turn : s.portTurn n c = u) :
    (c.throughPortAge = true →
      s.cmds.find? (fun c => c.2.tile = t && c.2.stage = .running && c.2.throughPortAge) = some (n, c) →
      (s.tile t).portAge.stopped = none → exec (.portAgeStream t) s = .next u) ∧
    (c.throughPortAge = false → ∀ j, exec (.engineRead n j) s = .next u) := by
  subst here turn
  exact ⟨fun _ first runs => exec_portAgeStream carried first runs, fun loc j => exec_engineRead_port carried kind port loc j⟩

end

/-- A `sport` that is first at its fi port has its turn there (R131, R185). -/
theorem portTurn_sport {s : State} {n : Nat} {c : Cmd} (kind : c.kind = .stream 0x00)
    (head : ((s.tile c.tile).fiPort c.a).owners.head? = some n) : s.portTurn n c = s.sportTurn n c := by
  have code := Cmd.code_stream kind
  simp [State.portTurn, code, head]

/-- A `ssink` that is first at its fo port has its turn there (R131, R185). -/
theorem portTurn_ssink {s : State} {n : Nat} {c : Cmd} (kind : c.kind = .stream 0x01)
    (head : ((s.tile c.tile).foPort c.a).owners.head? = some n) : s.portTurn n c = s.ssinkTurn n c := by
  have code := Cmd.code_stream kind
  simp [State.portTurn, code, head]

/-- A `sfill` with a place for it puts its next token, and leaves its port behind the last (R186). -/
theorem portTurn_sfill {s : State} {n : Nat} {c : Cmd} (kind : c.kind = .stream 0x02)
    (head : ((s.tile c.tile).fiPort c.a).owners.head? = some n) (room : ((s.tile c.tile).fiPort c.a).room = true)
    (more : c.rd < c.r2.toNat) :
    let v := s.pushFi c.tile c.a { kind := BitVec.ofNat 3 c.b, data := c.r1.setWidth 32 }
    let c' := { c with rd := c.rd + 1 }
    s.portTurn n c = if c.rd + 1 = c.r2.toNat then v.portDone n c' (4 * (c.rd + 1)) else v.setCmd n c' := by
  intro v c'
  have code := Cmd.code_stream kind
  have data : c.markData = c.r1.setWidth 32 := by simp [Cmd.markData, code]
  have last : c.r2.toNat ≤ c.rd + 1 ↔ c.rd + 1 = c.r2.toNat := by omega
  simp only [State.portTurn, code, head, room, data, ge_iff_le, Nat.not_le.mpr more, Nat.reduceEqDiff, ne_eq, not_true_eq_false,
    if_false, Bool.not_true, Bool.false_eq_true]
  exact if_congr last rfl rfl

section
variable {s : State} {n : Nat} {c : Cmd}

/-- What a `sport` leaves behind a token that it has placed (R185). -/
def State.sportPut (s : State) (n : Nat) (c : Cmd) (k : Token) (c' : Cmd) : State :=
  let v := s.pushFi c.tile c.a k
  if c'.rd = c.portRows * (entDim c.entB 0 + 1) + (if c.r2 = 0 then 1 else 0) then v.portDone n c' (rangeBytes c'.ranges)
  else v.setCmd n c'

section
variable (room : ((s.tile c.tile).fiPort c.a).room = true)
include room

/-- Behind its rows a `sport` ends the tensor. -/
theorem sportTurn_eot (behind : c.portRows ≤ c.rd / (entDim c.entB 0 + 1)) :
    s.sportTurn n c = s.sportPut n c eotTok { c with rd := c.rd + 1 } := by
  simp only [State.sportTurn, room, behind, Bool.not_true, Bool.false_eq_true, if_false, if_true]
  rfl

variable (within : c.rd / (entDim c.entB 0 + 1) < c.portRows)
include within

/-- Behind the elements of a row a `sport` ends the row. -/
theorem sportTurn_eor (ended : c.rd % (entDim c.entB 0 + 1) = entDim c.entB 0) :
    s.sportTurn n c = s.sportPut n c eorTok { c with rd := c.rd + 1 } := by
  simp only [State.sportTurn, room, Nat.not_le.mpr within, ended, Bool.not_true, Bool.false_eq_true, if_false, if_true]
  rfl

/-- An element of a row goes into the port as DATA. -/
theorem sportTurn_data {u : State} {pas : List Nat} (inRow : c.rd % (entDim c.entB 0 + 1) < entDim c.entB 0) :
    let row := c.rd / (entDim c.entB 0 + 1)
    let i0 := c.rd % (entDim c.entB 0 + 1)
    let bit := entOffset c.entB (row * entDim c.entB 0 + i0) * entWidth c.entB
    s.reachElement c (portAgeNo c.tile) c.virtual (tensorStart c.entB c.r1 c.virtual) bit (entWidth c.entB) 0 = .ok u pas →
    s.sportTurn n c = (u.engineBytes c false pas.length).sportPut n c
      (dataTok (BitVec.ofNat 32 (elemGet (ofBytes (pas.map u.mem.get)) bit (entWidth c.entB))))
      { c with rd := c.rd + 1, moved := c.moved + 1, ranges := addBytes c.ranges pas } := by
  intro row i0 bit reached
  simp only [bit, row, i0] at reached
  simp only [State.sportTurn, room, Nat.not_le.mpr within, Nat.ne_of_lt inRow, reached, Bool.not_true, Bool.false_eq_true,
    if_false]
  rfl

end

section
variable {k : Token} (head : ((s.tile c.tile).foPort c.a).q.head? = some k)
include head

/-- An element that has a place in the tensor goes there. -/
theorem ssinkTurn_data {u : State} {pas : List Nat} (data : k.isData = true) (row : c.rd < entRows c.entB)
    (inRow : c.wr < entDim c.entB 0) :
    let bit := entOffset c.entB (c.rd * entDim c.entB 0 + c.wr) * entWidth c.entB
    s.reachElement c (portAgeNo c.tile) c.virtual (tensorStart c.entB c.r1 c.virtual) bit (entWidth c.entB) 1 = .ok u pas →
    s.ssinkTurn n c = ((((u.putElement pas bit (entWidth c.entB) k.data.toNat).engineBytes c true pas.length).popFo c.tile c.a).setCmd n
      { c with wr := c.wr + 1, moved := c.moved + 1, ranges := addBytes c.ranges pas }) := by
  intro bit reached
  simp only [bit] at reached
  simp only [State.ssinkTurn, head, data, row, inRow, reached, decide_true, Bool.and_self, if_true, bit]

/-- An element beyond the tensor is dropped. -/
theorem ssinkTurn_beyond (data : k.isData = true) (beyond : ¬(c.rd < entRows c.entB ∧ c.wr < entDim c.entB 0)) :
    s.ssinkTurn n c = (s.popFo c.tile c.a).setCmd n { c with wr := c.wr + 1 } := by
  have out : (c.rd < entRows c.entB && c.wr < entDim c.entB 0) = false := by simpa using beyond
  simp only [State.ssinkTurn, head, data, out, Bool.false_eq_true, if_true, if_false]

/-- An end of row begins the next row, and ends a command with a count of rows behind the last of them. -/
theorem ssinkTurn_eor (row : k.kind = kEor) :
    let c' := { c with rd := c.rd + 1, wr := 0 }
    s.ssinkTurn n c = if c.r2 ≠ 0 ∧ c.r2.toNat ≤ c.rd + 1 then (s.popFo c.tile c.a).portDone n c' (rangeBytes c.ranges)
      else (s.popFo c.tile c.a).setCmd n c' := by
  intro c'
  have noData : k.isData = false := by simp [Token.isData, row, kEor, kData]
  have last : (decide (c.r2 ≠ 0) && decide (c'.rd ≥ c'.portRows)) = true ↔ c.r2 ≠ 0 ∧ c.r2.toNat ≤ c.rd + 1 := by
    rw [Bool.and_eq_true, decide_eq_true_iff, decide_eq_true_iff]
    exact and_congr_right fun counted => by rw [show c'.portRows = c.r2.toNat from if_neg counted]
  simp only [State.ssinkTurn, head, noData, row, Bool.false_eq_true, if_false, if_true]
  exact if_congr last rfl rfl

/-- An end of tensor or an ERR ends the command. -/
theorem ssinkTurn_end (ends : k.kind = kEot ∨ k.isErr = true) :
    s.ssinkTurn n c = (s.popFo c.tile c.a).portDone n c (rangeBytes c.ranges) := by
  have kinds : k.kind = kEot ∨ k.kind = kErr := ends.imp_right of_decide_eq_true
  have noData : k.isData = false := by
    rcases kinds with h | h <;> rw [Token.isData, h] <;> rfl
  have noRow : k.kind ≠ kEor := by
    rcases kinds with h | h <;> rw [h] <;> decide
  have last : (decide (k.kind = kEot) || k.isErr) = true := by simpa using ends
  simp only [State.ssinkTurn, head, noData, noRow, last, Bool.false_eq_true, if_false, if_true]

end

end

/-! ### The ring (R223, R224) -/

/-- The commands of a ring that all eight tiles have come to. -/
theorem ringCmds_all {s : State} {k : Nat} {n : Fin 8 → Nat} {since : Fin 8 → Nat}
    (here : ∀ p : Fin 8, (s.tile (8 * k + p)).ring = some (n p, since p)) :
    s.ringCmds k = (List.finRange 8).map fun p => (8 * k + p.val, n p) := by
  have tiles : clusterTiles k = (List.finRange 8).map fun p => 8 * k + p.val := by
    rw [clusterTiles, ← List.map_coe_finRange_eq_range, List.map_map]
    rfl
  rw [State.ringCmds, tiles, List.filterMap_map, ← List.filterMap_eq_map]
  exact List.filterMap_congr fun p _ => by simp [here p]

/-- A rendezvous of eight commands of one place and one length moves their windows on. -/
theorem exec_ringRendezvous_moves {s : State} {k : Nat} {n : Fin 8 → Nat} {c : Fin 8 → Cmd} {at' len : Dword} {since : Fin 8 → Nat}
    (ring : ∀ p : Fin 8, (s.tile (8 * k + p)).ring = some (n p, since p) ∧ mapGet s.cmds (n p) = some (c p) ∧ s.cmdMay (c p) = true ∧
      (c p).r1 = at' ∧ (c p).r2 = len) :
    let tiles := (List.range 8).map (8 * k + ·)
    let b := ringStores at'.toNat len.toNat true s tiles
    let window (p : Nat) := b.mem.read (spBase (8 * k + p) + at'.toNat) len.toNat
    let u := (List.range 8).foldl (fun (u : State) p => u.writeM (spBase (8 * k + p) + at'.toNat) (window ((p + 7) % 8))) b
    let v := ringStores at'.toNat len.toNat false u tiles
    exec (.ringRendezvous k) s = .next ((List.finRange 8).foldl (fun (u : State) (p : Fin 8) =>
      (u.setTile (8 * k + p) { u.tile (8 * k + p) with ring := none }).setCmd (n p)
        { c p with stage := .complete, bytes := len.toNat, ranges := [(spBase (8 * k + p) + at'.toNat, len.toNat)] })
      { v with tick := v.tick + 1 }) := by
  intro tiles b window u v
  let cmds : List (Nat × Nat × Cmd) := (List.finRange 8).map fun p => (8 * k + p.val, n p, c p)
  have found : (s.ringCmds k).filterMap (fun h => (mapGet s.cmds h.2).map fun c => (h.1, h.2, c)) = cmds := by
    rw [ringCmds_all fun p => (ring p).1, List.filterMap_map]
    show _ = (List.finRange 8).map _
    rw [← List.filterMap_eq_map]
    exact List.filterMap_congr fun p _ => by simp [(ring p).2.1]
  have may : cmds.all (fun x => s.cmdMay x.2.2) = true := by simp [cmds, (ring _).2.2.1]
  have alike : cmds.all (fun x => x.2.2.r1 = at' && x.2.2.r2 = len) = true := by simp [cmds, ring _]
  have length : cmds.length = 8 := by simp [cmds]
  have places : cmds.map Prod.fst = tiles := by
    show List.map _ _ = List.map _ (List.range 8)
    rw [← List.map_coe_finRange_eq_range, List.map_map, List.map_map]
    rfl
  have windows (b : State) (p : Nat) :
      (cmds.map fun x => b.mem.read (spBase x.1 + at'.toNat) len.toNat)[(p + 7) % 8]?.getD [] =
        b.mem.read (spBase (8 * k + (p + 7) % 8) + at'.toNat) len.toNat := by
    have within : (p + 7) % 8 < 8 := Nat.mod_lt _ (by decide)
    simp [cmds, within]
  have first : cmds = (8 * k + 0, n 0, c 0) :: cmds.tail := rfl
  show execRingRendezvous k s = _
  unfold execRingRendezvous
  simp only [found]
  rw [first]
  simp only [← first]
  simp only [length, may, alike, (ring 0).2.2.2.1, (ring 0).2.2.2.2, ne_eq, not_true_eq_false, decide_false, Bool.not_true, Bool.or_self,
    Bool.false_eq_true, if_false, places, windows]
  exact congrArg Host.Outcome.next List.foldl_map

section
variable {s : State} {t at' len : Nat}

/-- The stores that a core holds for its window leave its buffer: before the rotation those of a tile that enters, after it those of
a tile that does not (R224). -/
theorem held_ringStore {before : Bool} (acts : before = (Config.freeDword s.tick).getLsbD (t % 8)) :
    ((ringStore at' len before s t).coreOf t).view.pb =
      (s.coreOf t).view.pb.filter fun e => !inRange (spBase t + at') len e.addr := by
  cases before with
  | true =>
    simp only [ringStore, ← acts, Bool.and_self, if_true, State.coreOf_setCore_same]
    rfl
  | false =>
    simp only [ringStore, ← acts, Bool.not_false, Bool.and_self, Bool.false_eq_true, if_false, if_true, State.coreOf_setCore_same]

/-- A tile whose stores take the other way is left alone. -/
theorem ringStore_rests {before : Bool} (rests : before ≠ (Config.freeDword s.tick).getLsbD (t % 8)) :
    ringStore at' len before s t = s := by
  have other : (Config.freeDword s.tick).getLsbD (t % 8) = !before := Bool.eq_not.mpr (Ne.symm rests)
  cases before <;>
    simp only [ringStore, other, Bool.not_true, Bool.not_false, Bool.and_true, Bool.and_false, Bool.false_eq_true, if_false]

/-- After the rotation M stays as it is. -/
theorem mem_ringStore_after : (ringStore at' len false s t).mem = s.mem := by
  simp only [ringStore, Bool.false_and, Bool.not_false, Bool.true_and, Bool.false_eq_true, if_false]
  split <;> rfl

/-- A command that has waited too long for the other seven takes 0x19, and every command at the rendezvous is dropped (R223). -/
theorem exec_ringTimeout_expires {n since : Nat} (waits : (s.tile t).ring = some (n, since))
    (late : since + ringLimit ≤ (s.die (dieOf t)).cycle) (short : (s.ringCmds (t / 8)).length ≠ 8) :
    exec (.ringTimeout t) s = .next (((s.ringCmds (t / 8)).map Prod.snd).foldl State.dropCmd (s.cmdFault n 0x19)) := by
  show execRingTimeout t s = _
  simp only [execRingTimeout, waits, late, short, decide_true, ne_eq, not_false_eq_true, Bool.and_self, if_true]

end

/-! ### Seeps and walks (R230, R194, R200) -/

/-- A byte of M seeps into the snapshot of a core (R230). -/
theorem exec_seep_core {s : State} {t a : Nat} (core : t < 2 ^ 20) :
    let c := s.coreOf t
    exec (.seep t a) s = .next (s.setCore t { c with view := { c.view with sv := c.view.sv.set a (s.mem.get a) } }) :=
  if_pos core

/-- A walk for a page that no latch serves fills a latch (R194). -/
theorem exec_pageWalk_fills {s u : State} {age va access fn tile pa : Nat} {g : Age} {l : Latch} (user : s.ageUser age = some (fn, tile))
    (runs : (s.namedAge age).stopped = none) (missing : ∀ x ∈ (s.namedAge age).latches, x.serves va access = false)
    (walked : s.translate (dieOf tile) fn tile (s.namedAge age) va access = .ok u g pa l) :
    exec (.pageWalk age va access) s = .next (u.setAge age g) := by
  have unserved : (s.namedAge age).latches.any (fun l => l.serves va access) = false :=
    List.any_eq_false.mpr fun x hx => by simp [missing x hx]
  show execPageWalk age va access s = _
  simp only [execPageWalk, user, runs, unserved, walked, Option.isSome_none, Bool.or_self, Bool.false_eq_true, if_false]

end Sys2Proof.Machine

namespace Sys2Proof.Proofs

open Sys2Proof.Machine Sys2Proof.Rules

/-- Settles O49: at a boundary the stations are marked in order, and only what is not finished goes green or slips; steps 4 to 8 then keep
the course of the region. -/
theorem beatActs : Obligations.BeatActs := by
  unfold Obligations.BeatActs
  refine ⟨?source, ?gates, ?admits, ?pauses, ?boundary, ?slip, ?window, ?sinks⟩
  case source =>
    intro s l t p st r k rest port live tile may head first x key q put
    have admits := exec_sourceItemAdmit_admits port live tile may head first
    refine ⟨fun bubble => admits.trans ?_, fun i item => admits.trans ?_⟩
    · have bubble : (r.station st).item = none := bubble
      simp only [State.takeIntoItem, bubble, Option.getD_none, Option.isSome_none, Bool.false_eq_true, if_false]
      rfl
    · have item : (r.station st).item = some i := item
      simp only [State.takeIntoItem, item, Option.getD_some, Option.isSome_some, if_true]
      rfl
  case gates =>
    intro s l st r live running inside resumable may
    have gate := exec_issueGateClose live running inside resumable may
    exact ⟨fun lead => gate.trans (by rw [if_pos lead]), fun early => gate.trans (by rw [if_neg (Nat.not_le.2 early)])⟩
  case admits => exact fun s r st i k item source key waits => Region.finished_source_open item source key waits
  case pauses => exact fun s l r due parity => exec_beatBoundary_pauses due parity
  case boundary =>
    intro s l r due parity mode n
    refine ⟨fun st inside fixed busy => exec_beatBoundary_stops due parity inside fixed busy, exec_beatBoundary_moves due parity mode,
      fun st inside resumable busy empty others => ⟨fun place free => ?_,
        exec_beatBoundary_slips due parity mode resumable others inside busy⟩⟩
    obtain ⟨t, q, goes, live, loop, green⟩ :=
      exec_beatBoundary_green due parity mode resumable others inside busy empty place free
    refine ⟨t, q, s.greenItem r st, goes, live, loop, ?_, rfl, rfl, green⟩
    cases item : (r.station st).item with
    | none => simp [Region.finished, item] at busy
    | some i => simp [State.greenItem, item]
  case slip =>
    intro s l since sts r live phase ages may mode ceiling free
    refine ⟨fun ready => exec_slipEnd_still live phase (.inl ready), fun done sinks => ?_,
      fun st mem busy => exec_slipEnd_still live phase (.inr ⟨st, mem, busy⟩)⟩
    obtain ⟨q, kept, running, rslip, beats⟩ := State.finishBoundary_slipped (s := s) l
      (sts, (r.station (sts.headD 0)).item.getD 0, since) (Region.mayStart_unheld free) mode ceiling
    exact ⟨_, q, exec_slipEnd_goes live phase ages may (by omega) done sinks, kept, running, rslip, beats⟩
  case window =>
    intro s l r live mode ended next direct quiet may turns
    have ends := exec_governorWindow_ends live mode ended next direct quiet may
    refine ⟨fun long => ends.trans ?_, fun slips few short => ends.trans ?_, fun slips few many => ends.trans ?_⟩
    · rw [Region.governed, if_pos long]
    · rw [Region.governed, if_neg (by omega), if_pos short]
    · rw [Region.governed, if_neg (by omega), if_neg (Nat.not_le.2 many)]
  case sinks =>
    intro s l i r k live sink first may q
    refine ⟨fun ready => ?_, fun few err => exec_sinkReport_still live sink (by simp [Sink.ready, few, err])⟩
    have reports := exec_sinkReport_reports live sink (by simpa [Sink.ready] using ready) first may
    refine ⟨fun more => reports.trans (by rw [if_neg (by simp [q, more])]), fun last => ?_⟩
    obtain ⟨gone, stored⟩ := State.retire_stores (s.mapGet_setRegion_same l q)
    exact ⟨_, reports.trans (by rw [if_pos last]), gone, stored⟩

/-- Settles O33: each value that its row admits has no fault of R179, and each counter of R183 has its station. -/
theorem beatInstructions : Obligations.BeatInstructions := by
  unfold Obligations.BeatInstructions
  intro s r order leads
  refine ⟨?bset, ?registers, ?counters⟩
  case bset =>
    intro i sub v len form still x least goes
    have stores (ok : r.bsetFault sub.toNat v.toInt = none) : goes (r.bset sub.toNat v.toNat) := by
      rcases form with ⟨f, rfl, holds, rfl, rfl, rfl⟩ | ⟨f, rfl, holds, rfl, rfl, rfl⟩
      all_goals exact (guarded_true _ _ holds).trans (beatSet_ok order leads _ _ still ok)
    have bounded {k : Int} (h : least k) : ¬ k < r.least := Int.not_lt.2 ((r.least_le_iff k).2 h)
    refine ⟨?beat, ?floor, ?ceiling, ?step, ?mode, ?slipceil, ?hysteresis⟩
    case beat =>
      rintro rfl low high within
      have kept := stores (by simpa [Region.bsetFault, bounded low, high, x, or_iff_not_imp_left] using within)
      refine ⟨fun running => ?_, fun rests => ?_⟩
      · simpa [Region.bset, running] using kept
      · cases phase : r.phase <;> simp_all [Region.bset]
    case floor =>
      rintro rfl low high
      exact stores (by simp [Region.bsetFault, bounded low, high, x])
    case ceiling =>
      rintro rfl low high
      exact stores (by simp [Region.bsetFault, low, high, x])
    case step =>
      rintro rfl low high
      exact stores (by simp [Region.bsetFault, low, high, x])
    case mode =>
      rintro rfl low high changes
      simpa [Region.bset, changes] using stores (by simp [Region.bsetFault, low, high, x])
    case slipceil =>
      rintro rfl low high
      exact stores (by simpa [Region.bsetFault, low, x] using high)
    case hysteresis =>
      rintro rfl low high order' within
      have := toInt_eq_toNat low
      exact stores (by simp [Region.bsetFault]; omega)
  case registers =>
    intro f holds t u
    refine ⟨?_, fun rests => ⟨?_, ?_⟩, fun held => ⟨?_, ?_⟩⟩
    · rw [← r.bget_eq]
      exact (execBget_ok order leads holds).trans (writeReg_eq _ _ _ _)
    · exact (execBhold_ok order leads holds).trans (by rw [if_neg rests]; rfl)
    · exact (execBgo_ok order leads holds).trans (by rw [if_neg rests]; rfl)
    · exact (execBhold_ok order leads holds).trans (by rw [if_pos held]; rfl)
    · exact (execBgo_ok order leads holds).trans (by rw [if_pos held]; rfl)
  case counters =>
    intro i j sub d v len form x reads clears
    have both (ok : r.badStation sub.toNat v = false) :
        reads (r.counter s sub.toNat v.toNat) ∧ clears (r.clearCounter s sub.toNat v.toNat) := by
      rcases form with ⟨f, rfl, rfl, holds, rfl, rfl, rfl, rfl⟩ | ⟨f, rfl, rfl, holds, rfl, rfl, rfl, rfl⟩
      · exact ⟨(execRfstA_ok order leads holds ok).trans (writeReg_eq _ _ _ _), execRfclA_ok order leads holds ok⟩
      · exact ⟨(execRfstB_ok order leads holds ok).trans (writeReg_eq _ _ _ _), execRfclB_ok order leads holds ok⟩
    refine ⟨fun inside => ?station, ?_, ?_⟩
    case station =>
      have ok := both (r.badStation_inside _ inside)
      refine ⟨?_, ?_, ?_, ?_, ?_⟩
      · rintro rfl
        exact ok
      · rintro rfl
        exact ok
      · rintro rfl running
        simpa [Region.counter, running] using ok.1
      · rintro rfl
        refine ⟨ok.1, fun running => ?_⟩
        simpa [Region.clearCounter, Region.counter, running, satWord] using ok.2
      · rintro rfl
        exact ok
    · rintro rfl
      exact both rfl
    · rintro rfl
      exact both rfl

/-- The header of `oneTileImage` (R161): a beat and a floor of 4, a completion word at 0x1000, and one sink of one EOT, fo port 0. -/
def oneTileHead : Nat := 4 + 4 * 2 ^ 12 + 4095 * 2 ^ 24 + 2 ^ 36 + 2 ^ 56 + 2 ^ 104 + 0x1000 * 2 ^ 128 + 0x18000 * 2 ^ 192
/-- The word of an `iota` from fi port 0 to fo port 0. -/
def iotaWord : Slot128 := packEl 0x33
  { refire := 0, route := 0x40, sub := 0, lat := 1, tn := 0, flush := false, rm := 0, k := 0, in2 := 1023, in1 := 1023, in0 := 256
    station := 0, enable := true }

/-- A region image of one station and one tile (R161 to R163): header, station record, and a tile section that names slot 0, an
`iota` from fi port 0 to fo port 0, the one sink. The completion word stands at 0x1000. -/
def oneTileImage : List Byte :=
  toBytes oneTileHead 64 ++ toBytes 4 16 ++ toBytes 0x100 16 ++ toBytes 0 16 ++ toBytes iotaWord.toNat 16

/-- An `scfg` of the owner's on tile 0 that runs, its image at 0x2000 (register 1). -/
def loadCmd : Cmd := { (default : Cmd) with kind := .stream 0x05, stage := .running, fn := 16, w1 := 1, regs := [(1, 0x2000)] }
/-- The owner's `scfg` 5 on tile 0, whose image at 0x2000 passes its checks, where 5 is also the number of a write-once buffer of one
word that holds the region's completion word. -/
def boundLoad : State :=
  { State.reset with
    mem := Memory.write [] (spBase 0 + 0x2000) oneTileImage
    tiles := [(0, { Tile.reset with writeOnce := [{ cmd := 5, base := spBase 0 + 0x1000, words := 1, present := [], bar := none }] })]
    dies := [(0, { Die.reset with tids := [(16 * 256, 0x100000000)] })]
    cmds := [(5, loadCmd)] }

/-- What the loader reads of `oneTileImage`. -/
def boundImage : RegionImage :=
  { head := oneTileHead, recs := [4], tiles := [(0, [(0, iotaWord)])], size := 128 }

theorem boundLoad_readImage :
    boundLoad.readImage (fun t => (boundLoad.tile t).live.isSome) loadCmd.tile loadCmd.r1.toNat = .ok boundImage := by
  decide +kernel

theorem boundLoad_imageFault : boundLoad.imageFault loadCmd.tile loadCmd.fn boundImage = none := by decide +kernel

/-- Neither residency nor a tile of another region holds the load back: its region goes live (R165, R318). -/
theorem boundLoad_goes :
    let r := boundLoad.regionOfImage 5 loadCmd.r1.toNat loadCmd.fn loadCmd.user none boundImage
    let u := ((r.tiles.foldl (fun (s : State) t => s.setTile t { s.tile t with live := some loadCmd.tile }) boundLoad).setRegion
      loadCmd.tile r).equalise (deviceOf loadCmd.tile)
    u.residencyWaits (deviceOf loadCmd.tile) loadCmd.fn ((u.tenant (deviceOf loadCmd.tile) loadCmd.fn).governing loadCmd.tile) = false ∧
      u.overTiles r loadCmd.tile = false := by
  decide +kernel

/-- The write of the completion word completes the write-once buffer, and command 5 leaves with it. -/
theorem boundLoad_cmds :
    mapGet (boundLoad.loadRegion 5 loadCmd.tile loadCmd.r1.toNat loadCmd.fn loadCmd.user none).cmds 5 = none := by
  decide +kernel

/-- The load is carried: its tile may run it. -/
theorem boundLoad_carried : Carried boundLoad 5 loadCmd := by decide +kernel

/-- Refutes O48: a load that goes live clears its completion word by a write to M, and where that word lies in a write-once buffer that
bears the load's own number the write completes the buffer and removes the command, which then does not stand as complete. `boundLoad` is
such a state. Command numbers are given out once, so no run from reset reaches it: the statement lacks the premise that no write-once
buffer over the completion word bears the number of the load. -/
theorem not_regionLoads : ¬ Obligations.RegionLoads := by
  unfold Obligations.RegionLoads
  rintro ⟨loads, -⟩
  have goes : boundLoad.loadWaits loadCmd.tile loadCmd.r1.toNat loadCmd.fn = false := by decide +kernel
  obtain ⟨-, -, configures⟩ := loads boundLoad 5 loadCmd boundLoad_carried rfl rfl goes
  obtain ⟨-, live⟩ := configures boundImage boundLoad_readImage boundLoad_imageFault
  obtain ⟨resident, within⟩ := boundLoad_goes
  obtain ⟨t, q, runs, -, -, -, -, -, -, -, -, -, -, -, stands⟩ := live resident within
  have same := Host.Outcome.next.inj ((exec_regionLoad_begins boundLoad_carried rfl rfl goes).symm.trans runs)
  rw [← same, boundLoad_cmds] at stands
  exact nomatch stands

/-- Settles O45: each act goes by the lemma about it. -/
theorem engineActs : Obligations.EngineActs := by
  unfold Obligations.EngineActs
  refine ⟨?dispatch, ?copy, ?complete, ?report, ?sbar, ?ports, ?ring, ?stores, ?timeout, ?seep, ?walk⟩
  case dispatch =>
    intro s t eng n q c queue stands may queued engine copy core d free runs
    exact exec_commandDispatch_copy queue stands may queued engine copy core free runs
  case copy =>
    intro s n k c carried kind runs ⟨words, inA, inB, new⟩
    refine ⟨fun unread loc noScale => ?_, fun v held loc => ?_⟩
    · exact (exec_engineRead_scopy carried kind runs).trans (congrArg _ (copyRead_scopy kind words inB new inA unread loc noScale))
    · exact (exec_engineWrite_scopy carried kind runs).trans (congrArg _ (copyWrite_scopy kind words inB new held loc))
  case complete =>
    intro s n c stands may complete last core
    have completes := exec_engineComplete_runs stands may complete
    exact ⟨fun noLoad => completes.trans (congrArg _ (completeCmd_leaves last core noLoad)),
      fun r load region own => completes.trans (congrArg _ (completeCmd_load last core load region own))⟩
  case report =>
    intro s u v eng r head update d
    refine ⟨exec_engineReport_still, fun here runs => ⟨fun home => ⟨fun ok => ?_, fun code fails fixed => ?_⟩, fun away => ?_⟩⟩
    · exact (exec_engineReport_head head here runs).trans (congrArg _ (State.report_ok home ok))
    · exact (exec_engineReport_head head here runs).trans (congrArg _ (State.report_fails home fails fixed))
    · exact (exec_engineReport_head head here runs).trans (congrArg _ (State.report_away away))
  case sbar =>
    intro s v t n q c queue stands may kind reported ok
    exact exec_sbarArrive_arrives queue stands may kind reported ok
  case ports =>
    rintro s t n c carried rfl
    refine ⟨fun kind head room => ?sport, fun kind k head token => ?ssink, fun kind head room more => ?sfill⟩
    case sport =>
      have moves {u : State} (turn : s.sportTurn n c = u) :=
        exec_portMove carried rfl kind (.inl rfl) ((portTurn_sport kind head).trans turn)
      exact ⟨fun behind => moves (sportTurn_eot room behind), fun within ended => moves (sportTurn_eor room within ended),
        fun u pas within inRow reached => moves (sportTurn_data room within inRow reached)⟩
    case ssink =>
      have moves {u : State} (turn : s.ssinkTurn n c = u) :=
        exec_portMove carried rfl kind (.inr (.inl rfl)) ((portTurn_ssink kind head).trans turn)
      exact ⟨fun u pas data row inRow reached => moves (ssinkTurn_data token data row inRow reached),
        fun data beyond => moves (ssinkTurn_beyond token data beyond), fun row => moves (ssinkTurn_eor token row),
        fun ends => moves (ssinkTurn_end token ends)⟩
    case sfill =>
      exact exec_portMove carried rfl kind (.inr (.inr rfl)) (portTurn_sfill kind head room more)
  case ring =>
    intro s k n c at' len since ring
    exact exec_ringRendezvous_moves ring
  case stores =>
    intro s t at' len before
    exact ⟨held_ringStore, ringStore_rests, fun after => after ▸ mem_ringStore_after⟩
  case timeout =>
    intro s t n since waits late short
    exact exec_ringTimeout_expires waits late short
  case seep =>
    intro s t a core
    exact exec_seep_core core
  case walk =>
    intro s u age va access fn tile pa g l user runs missing walked
    exact exec_pageWalk_fills user runs missing walked

end Sys2Proof.Proofs

/-! Proofs about memory and its levels: nests and address generators (R202 to R206), global accesses (R213 to R216, R233), memory nodes
(R207, R208, R243, R244, R355), the tag table (R218 to R221), re-latches (R212), samples (R292), page moves (R323) and quanta (R316 to
R340). -/

namespace Sys2Proof.Machine

open Sys2Proof.Rules

/-! ### The order of a nest (R202, R206) -/

theorem nestCounters_length (exts : List Nat) (n : Nat) : (nestCounters exts n).length = exts.length := by
  induction exts generalizing n with
  | nil => rfl
  | cons e r ih => simp [nestCounters, ih]

/-- Each counter stays below its extent. -/
theorem nestCounters_lt (exts : List Nat) (n : Nat) (pos : ∀ e ∈ exts, 0 < e) :
    ∀ p ∈ (nestCounters exts n).zip exts, p.1 < p.2 := by
  induction exts generalizing n with
  | nil => simp [nestCounters]
  | cons e r ih =>
    obtain ⟨first, rest⟩ := List.forall_mem_cons.1 pos
    exact List.forall_mem_cons.2 ⟨Nat.mod_lt n first, ih (n / e) rest⟩

/-- The counters are the digits of the handle's number in the mixed radix of the extents. -/
theorem nestCounters_value (exts : List Nat) (n : Nat) (small : n < exts.prod) :
    ((nestCounters exts n).zip exts).foldr (fun p acc => p.1 + p.2 * acc) 0 = n := by
  induction exts generalizing n with
  | nil => simpa [nestCounters, eq_comm] using small
  | cons e r ih =>
    have digits := ih (n / e) (Nat.div_lt_of_lt_mul (by simpa using small))
    simp only [nestCounters, List.zip_cons_cons, List.foldr_cons, digits]
    exact Nat.mod_add_div n e

/-! ### The tag table (R218 to R221) -/

@[simp] theorem getLsbD_tagEntry (g : BitVec 42) : (tagEntry g).getLsbD 42 = true := by
  rw [tagEntry, BitVec.getLsbD_append]
  simp

/-- An entry that is not valid holds no tag. -/
theorem ne_tagEntry {e : BitVec 43} (g : BitVec 42) (h : e.getLsbD 42 = false) : e ≠ tagEntry g := by
  rintro rfl
  exact Bool.noConfusion (h.symm.trans (getLsbD_tagEntry g))

theorem tagInvalid_tagEntry (g : BitVec 42) : tagInvalid (tagEntry g) = g.setWidth 43 := by
  rw [tagInvalid, tagEntry, BitVec.extractLsb'_append_eq_right]

theorem mapGet_eq_none_of_notMem {α : Type} {m : Map α} {k : Nat} (h : k ∉ m.map Prod.fst) : mapGet m k = none := by
  cases got : mapGet m k with
  | none => rfl
  | some v => exact absurd (List.mem_map_of_mem (f := Prod.fst) (mem_of_mapGet got)) h

theorem mapGet_mapErase_ne {α : Type} (m : Map α) {k j : Nat} (h : j ≠ k) : mapGet (mapErase m k) j = mapGet m j := by
  induction m with
  | nil => rfl
  | cons e r ih =>
    obtain ⟨i, v⟩ := e
    by_cases here : i = k
    · simpa [mapErase, mapGet, here, Ne.symm h] using ih
    · simp only [mapErase, mapGet, List.filter_cons, here, ne_eq, not_false_eq_true, decide_true, if_true] at ih ⊢
      rw [ih]

/-- Where no key is listed twice, leaving out the entries that read as the default changes no reading. -/
theorem getD_mapGet_filter_ne {α : Type} [DecidableEq α] (m : Map α) (k : Nat) (z : α) (once : (m.map Prod.fst).Nodup) :
    (mapGet (m.filter fun e => e.2 ≠ z) k).getD z = (mapGet m k).getD z := by
  induction m with
  | nil => rfl
  | cons e r ih =>
    obtain ⟨j, v⟩ := e
    obtain ⟨new, once⟩ := List.nodup_cons.1 once
    have rest := ih once
    by_cases default : v = z
    · by_cases here : j = k
      · subst here
        have absent := mapGet_eq_none_of_notMem new
        simpa [mapGet, default, absent] using rest
      · simpa [mapGet, default, here] using rest
    · by_cases here : j = k
      · simp [mapGet, default, here]
      · simpa [mapGet, default, here] using rest

/-- The one listed value that a predicate picks is found under its key. -/
theorem find?_mapSet {α : Type} (m : Map α) (k : Nat) (v : α) {p : α → Bool} (picks : p v = true)
    (alone : ∀ e ∈ m, p e.2 = false) :
    (mapSet m k v).find? (fun e => p e.2) = some (k, v) := by
  induction m with
  | nil => simp [mapSet, picks]
  | cons e r ih =>
    obtain ⟨j, u⟩ := e
    obtain ⟨first, rest⟩ := List.forall_mem_cons.1 alone
    dsimp only at first
    unfold mapSet
    split
    · simp [picks]
    · split
      · simp [picks]
      · simp [first, ih rest]

@[simp] theorem Tile.tag_setTag_same (x : Tile) (n : Nat) (e : BitVec 43) : (x.setTag n e).tag n = e := by
  by_cases empty : e = 0
  · simp [Tile.setTag, Tile.tag, empty, mapGet_mapErase]
  · simp only [Tile.setTag, Tile.tag, if_neg empty, mapGet_mapSet_same, Option.getD_some]

theorem Tile.tag_setTag_ne (x : Tile) {n k : Nat} (e : BitVec 43) (h : k ≠ n) : (x.setTag n e).tag k = x.tag k := by
  by_cases empty : e = 0
  · simp [Tile.setTag, Tile.tag, empty, mapGet_mapErase_ne _ h]
  · simp only [Tile.setTag, Tile.tag, if_neg empty, mapGet_mapSet_ne _ _ _ _ h]

section
variable {x : Tile} {n : Nat} {g : BitVec 42}

theorem Tile.tag_insertTag_same : (x.insertTag n g).tag n = tagEntry g := Tile.tag_setTag_same _ _ _

/-- A slot is found under the granule that it is given: every other entry of the tag is no longer valid (R220). -/
theorem Tile.findTag_insertTag : (x.insertTag n g).findTag g = some n := by
  have valid : tagEntry g ≠ 0 := fun h => by simpa [h] using getLsbD_tagEntry g
  have found := find?_mapSet ((x.tags.map fun e => (e.1, if e.2 = tagEntry g then tagInvalid e.2 else e.2)).filter fun e => e.2 ≠ 0) n
    (tagEntry g) (p := fun e => e = tagEntry g) (by simp) ?alone
  case alone =>
    intro e he
    obtain ⟨d, -, rfl⟩ := List.mem_map.1 (List.mem_filter.1 he).1
    by_cases held : d.2 = tagEntry g
    · simpa [held, tagInvalid_tagEntry] using ne_tagEntry (e := g.setWidth 43) g (by simp)
    · simp [held]
  simp only [Tile.findTag, Tile.insertTag, Tile.setTag, if_neg valid, found, Option.map_some]

/-- Another slot keeps its tag, and is not valid if it held the granule (R220). -/
theorem Tile.tag_insertTag_ne (once : (x.tags.map Prod.fst).Nodup) {k : Nat} (h : k ≠ n) :
    (x.insertTag n g).tag k = if x.tag k = tagEntry g then g.setWidth 43 else x.tag k := by
  have keys : ((x.tags.map fun e => (e.1, if e.2 = tagEntry g then tagInvalid e.2 else e.2)).map Prod.fst).Nodup := by
    simpa [Function.comp_def] using once
  have zero : (0 : BitVec 43) ≠ tagEntry g := ne_tagEntry g (by simp)
  refine (Tile.tag_setTag_ne _ _ h).trans ((getD_mapGet_filter_ne _ k 0 keys).trans ?_)
  rw [mapGet_map_snd x.tags fun _ e => if e = tagEntry g then tagInvalid e else e]
  cases got : mapGet x.tags k with
  | none => simp only [Tile.tag, got, Option.map_none, Option.getD_none, if_neg zero]
  | some e =>
    by_cases held : e = tagEntry g
    · simp [Tile.tag, got, held, tagInvalid_tagEntry]
    · simp [Tile.tag, got, held]

/-- Where no tag has two valid entries, none has after an insertion (R218). -/
theorem Tile.insertTag_valid_unique (once : (x.tags.map Prod.fst).Nodup)
    (unique : ∀ j k, (x.tag j).getLsbD 42 = true → x.tag j = x.tag k → j = k) :
    ∀ j k, ((x.insertTag n g).tag j).getLsbD 42 = true → (x.insertTag n g).tag j = (x.insertTag n g).tag k → j = k := by
  have other {k : Nat} (h : k ≠ n) (valid : ((x.insertTag n g).tag k).getLsbD 42 = true) :
      (x.insertTag n g).tag k = x.tag k ∧ x.tag k ≠ tagEntry g := by
    rw [Tile.tag_insertTag_ne once h] at valid ⊢
    split at valid
    · simp at valid
    next held => exact ⟨if_neg held, held⟩
  intro j k valid same
  have valid' := same ▸ valid
  by_cases hj : j = n <;> by_cases hk : k = n
  · rw [hj, hk]
  · obtain ⟨kept, ne⟩ := other hk valid'
    rw [hj, Tile.tag_insertTag_same, kept] at same
    exact absurd same.symm ne
  · obtain ⟨kept, ne⟩ := other hj valid
    rw [hk, Tile.tag_insertTag_same, kept] at same
    exact absurd same ne
  · obtain ⟨keptJ, -⟩ := other hj valid
    obtain ⟨keptK, -⟩ := other hk valid'
    exact unique j k (keptJ ▸ valid) (keptJ ▸ keptK ▸ same)

end

/-- Checks that all pass go on, those whose ss.fval no rule names too. -/
theorem checksOpen_pass {l : List (Bool × BitVec 7)} {s : State} (go : State → Out) (h : ∀ c ∈ l, c.1 = false) :
    checksOpen s l go = go s := by
  induction l with
  | nil => rfl
  | cons c r ih =>
    obtain ⟨first, rest⟩ := List.forall_mem_cons.1 h
    obtain ⟨b, code⟩ := c
    dsimp only at first
    simp [checksOpen, first, ih rest]

section
variable {s : State} {n : Dword} (slot : n.toNat ≤ 3071) (area : s.core.m = 0 → 3 < n.toNat)

include area in
/-- A slot that the mode may touch passes the check of R220. -/
theorem slotUserCheck_pass : ∀ c ∈ [slotUserCheck s.core n], c.1 = false := by
  simpa [slotUserCheck, Core.user] using area

include slot area

theorem tagInsert_ok {a : BitVec 5} {len : Nat} (va : (s.core.reg a).toNat < 2 ^ 52) : tagInsert a n len s =
    finish (s.setTile s.cur ((s.tile s.cur).insertTag n.toNat ((s.core.reg a).extractLsb' 10 42))) len :=
  (checks_pass _ (by simpa [slotCheck] using ⟨slot, va⟩)).trans (checksOpen_pass _ (slotUserCheck_pass area))

end

theorem execTlook_ok {s : State} {f : FormA} (holds : Holds s f.gn f.guard) :
    let v := s.core.reg f.a
    execTlook f s = writeReg s f.d (if v.toNat ≥ 2 ^ 52 then -1 else match (s.tile s.cur).findTag (granule v) with
      | some n => BitVec.ofNat 64 n
      | none => -1) lenA :=
  guarded_true _ _ holds

theorem execTevict_ok {s : State} {f : FormA} (holds : Holds s f.gn f.guard) (slot : (s.core.reg f.a).toNat ≤ 3071)
    (area : s.core.m = 0 → 3 < (s.core.reg f.a).toNat) :
    let e := (s.tile s.cur).tag (s.core.reg f.a).toNat
    execTevict f s = writeReg (s.setTile s.cur ((s.tile s.cur).setTag (s.core.reg f.a).toNat 0)) f.d
      (if e.getLsbD 42 then BitVec.setWidth 64 (e.extractLsb' 0 42 ++ (0 : BitVec 10)) else -1) lenA :=
  (guarded_true _ _ holds).trans ((checks_pass _ (by simpa [slotCheck] using slot)).trans (checksOpen_pass _ (slotUserCheck_pass area)))

/-! ### Global accesses of a core (R199, R213 to R216, R233) -/

section
variable {s u : State} {ea : Int} {access pa : Nat} (ok : GlobalOk ea) (reach : Reaches s ea.toNat access u pa)
include ok reach

/-- An access that passes the checks of R213 and has its page goes on at the node-physical address. -/
theorem globalAt_ok (align : BitVec 7) (go : State → Nat → Out) : globalAt s ea align access go = go u pa := by
  obtain ⟨low, high, aligned⟩ := ok
  obtain ⟨s', g, l, translated, rfl⟩ := reach
  refine (checks_pass _ (by simpa [aligned] using ⟨low, high⟩)).trans ?_
  simp only [coreTranslate, translated]

end

theorem writeReg_withCore (s : State) (c : Core) (d : BitVec 5) (v : Dword) (n : Nat) :
    writeReg (s.withCore c) d v n = done (s.withCore c) (c.setReg d v) n := by
  rw [writeReg_eq, State.core_withCore]

section
variable {s u : State} {ea : Int} {pa : Nat} (ok : GlobalOk ea)
include ok

theorem globalLoad_ok (reach : Reaches s ea.toNat 0 u pa) (present : u.paAbsent pa 8 = false) (i : Instr) (d : BitVec 5)
    (order len : Nat) :
    globalLoad i d order ea len s = done (acquired u order)
      ((acquired u order).core.setReg d (BitVec.ofNat 64 (u.viewNum u.core.view pa 8))) len := by
  refine (globalAt_ok ok reach _ _).trans ?_
  simp only [present, Bool.false_eq_true, if_false, writeReg_eq]
  rfl

theorem globalStore_ok (reach : Reaches s ea.toNat 1 u pa) (d : BitVec 5) (order len : Nat) :
    let v := u.withCore { u.core with view := u.core.view.store pa (toBytes (u.core.reg d).toNat 8) }
    globalStore d order ea len s = done (released v order) (released v order).core len :=
  globalAt_ok ok reach _ _

theorem coreAtomic_ok (reach : Reaches s ea.toNat 2 u pa) (d : BitVec 5) (order : Nat) (f : Nat → Option Nat) :
    coreAtomic d order ea f s = atomic u d pa order f := by
  refine (globalAt_ok ok reach _ _).trans ?_
  rw [atomic]
  generalize atomicStep u (coreAgent u.cur) u.core.view pa 8 order f = r
  obtain ⟨t, v, old⟩ := r
  exact writeReg_withCore t _ d _ lenA

end

theorem eaLit_imm16 (c : Core) (a : BitVec 5) (v : BitVec 16) : eaLit c a (imm16 false v) = (c.reg a).toNat + v.toInt := by
  simp [eaLit, imm16, BitVec.toInt_signExtend_of_le]

section
variable {s u : State} {f : FormA} {pa : Nat} (holds : Holds s f.gn f.guard)
include holds

theorem execGldA_ok (ok : GlobalOk (eaA s.core f.a f.b)) (reach : Reaches s (eaA s.core f.a f.b).toNat 0 u pa)
    (present : u.paAbsent pa 8 = false) : execGldA f s = done (acquired u f.sub.toNat)
      ((acquired u f.sub.toNat).core.setReg f.d (BitVec.ofNat 64 (u.viewNum u.core.view pa 8))) lenA :=
  (guarded_true _ _ holds).trans (globalLoad_ok ok reach present _ _ _ _)

theorem execGstA_ok (ok : GlobalOk (eaA s.core f.a f.b)) (reach : Reaches s (eaA s.core f.a f.b).toNat 1 u pa) :
    let v := u.withCore { u.core with view := u.core.view.store pa (toBytes (u.core.reg f.d).toNat 8) }
    execGstA f s = done (released v f.sub.toNat) (released v f.sub.toNat).core lenA :=
  (guarded_true _ _ holds).trans (globalStore_ok ok reach _ _ _)

theorem execAmo_ok (ok : GlobalOk (s.core.reg f.a).toNat) (reach : Reaches s (s.core.reg f.a).toNat 2 u pa) :
    execAmo f s = atomic u f.d pa (f.b.toNat % 4) fun old => some (atomicOp f.sub.toNat 64 old (s.core.reg f.d).toNat) :=
  (guarded_true _ _ holds).trans (coreAtomic_ok ok reach _ _ _)

theorem execCas_ok (ok : GlobalOk (s.core.reg f.a).toNat) (reach : Reaches s (s.core.reg f.a).toNat 2 u pa) :
    execCas f s = atomic u f.d pa (f.sub.toNat % 4) fun old =>
      if old = (s.core.reg f.d).toNat then some (s.core.reg f.b).toNat else none :=
  (guarded_true _ _ holds).trans (coreAtomic_ok ok reach _ _ _)

end

section
variable {s u : State} {f : FormB} {pa : Nat} (holds : Holds s f.gn f.guard)
include holds

theorem execGldB_ok (ok : GlobalOk (eaLit s.core f.a (imm16 false f.imm16)))
    (reach : Reaches s (eaLit s.core f.a (imm16 false f.imm16)).toNat 0 u pa) (present : u.paAbsent pa 8 = false) :
    execGldB f s = done (acquired u f.sub.toNat)
      ((acquired u f.sub.toNat).core.setReg f.d (BitVec.ofNat 64 (u.viewNum u.core.view pa 8))) lenB :=
  (guarded_true _ _ holds).trans (globalLoad_ok ok reach present _ _ _ _)

theorem execGstB_ok (ok : GlobalOk (eaLit s.core f.a (imm16 false f.imm16)))
    (reach : Reaches s (eaLit s.core f.a (imm16 false f.imm16)).toNat 1 u pa) :
    let v := u.withCore { u.core with view := u.core.view.store pa (toBytes (u.core.reg f.d).toNat 8) }
    execGstB f s = done (released v f.sub.toNat) (released v f.sub.toNat).core lenB :=
  (guarded_true _ _ holds).trans (globalStore_ok ok reach _ _ _)

end

/-! ### Memory nodes (R207, R208, R243, R244, R355) -/

section
variable {s u : State} {c : Ctx} {used : List Nat} {access : Nat} {vs : List Word} {pa : Nat}
  {perform : Ctx → State → Nat → Word → Option State}

/-- A node with a handle for an address performs it, or stops its region where nothing carries the access (R355). -/
theorem nodeTurn_addresses (h : Addresses s c used access u vs pa) : nodeTurn used access perform c s =
    if u.noWay (deviceOf c.t) pa then some (u.stopRegion c.l 0x50 (BitVec.ofNat 64 pa)) else perform c u pa (vs[1]?.getD 0) := by
  obtain ⟨-, quiet, plain, got, addr⟩ := h
  cases head : s.peekIn c 0 with
  | none => simp only [nodeTurn, quiet, head, got, addr, Bool.or_self, Bool.false_eq_true, if_false]
  | some k =>
    have noToken := plain k head
    simp only [nodeTurn, quiet, head, noToken, got, addr, decide_false, Bool.or_self, Bool.false_eq_true, if_false]

theorem nodeTurn_performs (h : Performs s c used access u vs pa) :
    nodeTurn used access perform c s = perform c u pa (vs[1]?.getD 0) :=
  (nodeTurn_addresses h.1).trans (by simp only [h.2, Bool.false_eq_true, if_false])

/-- The turn of a node whose access nothing carries (R355). -/
theorem nodeTurn_cut (h : Addresses s c used access u vs pa) (cut : u.noWay (deviceOf c.t) pa = true) :
    unitTurn (nodeTurn used access perform) s = fired c (u.stopRegion c.l 0x50 (BitVec.ofNat 64 pa)) :=
  unitTurn_fires h.1 ((nodeTurn_addresses h).trans (if_pos cut))

end

section
variable {s u : State} {c : Ctx} {vs : List Word} {pa : Nat}

theorem execElMrd_performs (h : Performs s c [0] 0 u vs pa) (present : u.nodeAbsent (u.unitOf c).view pa c.bytes = false) :
    execElMrd s = fired c (u.put c [dataTok (BitVec.ofNat 32 (u.viewNum (u.unitOf c).view pa c.bytes))]) :=
  unitTurn_fires h.1.1 ((nodeTurn_performs h).trans (by simp only [present, Bool.false_eq_true, if_false]))

theorem execElMwr_performs (h : Performs s c [0, 1] 1 u vs pa) : execElMwr s = fired c (u.setUnitOf c
    { u.unitOf c with view := (u.unitOf c).view.store pa (toBytes (vs[1]?.getD 0).toNat c.bytes) }) :=
  unitTurn_fires h.1.1 (nodeTurn_performs h)

theorem execElMamo_performs (h : Performs s c [0, 1] 2 u vs pa) :
    let r := atomicStep u (nodeAgent c.t c.slot) (u.unitOf c).view pa 4 (c.w.k.toNat % 4)
      fun old => some (atomicOp (c.sub / 16 % 8) 32 old (vs[1]?.getD 0).toNat)
    execElMamo s = fired c ((r.1.setUnitOf c { r.1.unitOf c with view := r.2.1 }).put c [dataTok (BitVec.ofNat 32 r.2.2)]) :=
  unitTurn_fires h.1.1 (nodeTurn_performs h)

end

section
variable {s : State} {c : Ctx} (fires : Fires s c)

/-- A fence acts on each masked node, and passes its token on (R244). -/
theorem fence_passes {k : Token} (act : State → Nat → Nat → Nat → State) (head : s.peekIn c 0 = some k)
    (noErr : k.isErr = false) (plain : k.kind ≠ kRelatch) : fence act c s =
      some (((maskNodes c.w.k).foldl (fun s n => act s c.t n (c.sub % 8)) (s.takeIn c 0)).put c
        [if c.sub.testBit 3 then dataTok k.data else k]) := by
  simp only [fence, head, noErr, plain, Bool.false_eq_true, if_false]

include fires

theorem execElPub_passes {k : Token} (head : s.peekIn c 0 = some k) (noErr : k.isErr = false) (plain : k.kind ≠ kRelatch) :
    execElPub s = fired c (((maskNodes c.w.k).foldl (fun s n => s.drainNode c.t n (c.sub % 8)) (s.takeIn c 0)).put c
      [if c.sub.testBit 3 then dataTok k.data else k]) :=
  unitTurn_fires fires (fence_passes _ head noErr plain)

theorem execElAcq_passes {k : Token} (head : s.peekIn c 0 = some k) (noErr : k.isErr = false) (plain : k.kind ≠ kRelatch) :
    execElAcq s = fired c (((maskNodes c.w.k).foldl (fun s n => s.refreshUnit c.t n (c.sub % 8)) (s.takeIn c 0)).put c
      [if c.sub.testBit 3 then dataTok k.data else k]) :=
  unitTurn_fires fires (fence_passes _ head noErr plain)

/-! ### Address generators of the fabric (R202, R204) -/

/-- An `agen` in mode 0 issues the next handle of its nest. -/
theorem execElAgen_walks {u : State} {r : Region} {b : Cmd} {h : Word} (live : mapGet s.regions c.l = some r)
    (quiet : (s.unitOf c).age.relatch = []) (runs : (s.unitOf c).age.stopped = none)
    (bound : (s.unitOf c).bindings.head?.bind (mapGet s.cmds) = some b) (mode : c.sub % 4 = 0) :
    let i := nestCounters (nestExtents b) (s.unitOf c).count
    s.makeHandle r c b (nestAddress b (nestElement b i)) = .ok u h → execElAgen s = fired c (u.issueHandle c b i true h) := by
  intro i made
  refine unitTurn_fires fires ?_
  simp only [agenTurn, live, quiet, runs, bound, mode, Option.isSome_none, Bool.false_eq_true, if_false, if_true]
  simp [made, i]

/-- An `lgen` that counts emits k + i, and an EOR behind the last where sub[0] asks for it. -/
theorem execElLgen_counts {i b : Word} {l : List Word} (counts : (s.unitOf c).w = i :: b :: l) (within : i.toNat < b.toNat)
    (noHead : s.peekIn c 0 = none) : execElLgen s = fired c ((s.setUnitOf c { s.unitOf c with w := [i + 1, b] }).put c
      ([dataTok (c.w.k + i)] ++ if i + 1 = b then (if c.sub.testBit 0 then [eorTok] else []) else [])) := by
  refine unitTurn_fires fires ?_
  simp [lgenTurn, counts, within, noHead]

end

/-! ### What a write to M leaves of a tenant and of the device's own writes -/

theorem State.tenant_setTenant_ne (s : State) {d fn d' fn' : Nat} (x : Tenant) (h : d ≠ d' ∨ fn ≠ fn') :
    (s.setTenant d' fn' x).tenant d fn = s.tenant d fn := by
  by_cases here : d = d'
  · subst here
    have other : fn ≠ fn' := h.resolve_left (· rfl)
    simp [State.tenant, State.setTenant, mapGet_mapSet_ne _ _ _ _ other]
  · simp [State.tenant, State.setTenant, State.device_setDevice_ne _ _ _ _ here]

/-- A command's end counts to its tenant's progress, and changes no tenant otherwise. -/
theorem State.cmdDone_tenant (s : State) (c : Cmd) (d fn : Nat) :
    ∃ n, (s.cmdDone c).tenant d fn = { s.tenant d fn with completed := n } := by
  by_cases here : d = deviceOf c.tile ∧ fn = c.fn
  · obtain ⟨rfl, rfl⟩ := here
    exact ⟨_, s.tenant_setTenant_same _ _ _⟩
  · exact ⟨_, s.tenant_setTenant_ne _ (not_and_or.1 here)⟩

theorem State.woMark_tenant (s : State) (a d fn : Nat) : ∃ n, (s.woMark a).tenant d fn = { s.tenant d fn with completed := n } := by
  unfold State.woMark
  split
  · exact ⟨_, rfl⟩
  · simp only []
    split
    · exact ⟨_, rfl⟩
    · split
      · exact ⟨_, rfl⟩
      · split
        · split
          all_goals exact State.cmdDone_tenant _ _ d fn
        · exact ⟨_, rfl⟩

/-- A write changes of a tenant at most what it has completed: a write-once buffer may become whole (R362). -/
theorem State.writeM_tenant (s : State) (a : Nat) (bs : List Byte) (d fn : Nat) :
    ∃ n, (s.writeM a bs).tenant d fn = { s.tenant d fn with completed := n } := by
  refine List.foldlRecOn (motive := fun (t : State) => ∃ n, t.tenant d fn = { s.tenant d fn with completed := n }) _ _ ⟨_, rfl⟩ ?_
  rintro t ⟨n, kept⟩ c -
  obtain ⟨k, marked⟩ := t.woMark_tenant c.1 d fn
  exact ⟨k, by rw [marked, kept]⟩

theorem State.machineWrite_tenant (s : State) (a : Nat) (bs : List Byte) (d fn : Nat) :
    ∃ n, (s.machineWrite a bs).tenant d fn = { s.tenant d fn with completed := n } := s.writeM_tenant a bs d fn

@[simp] theorem State.woMark_heldWrites (s : State) (a : Nat) : (s.woMark a).heldWrites = s.heldWrites := by
  unfold State.woMark
  split
  · rfl
  · simp only []
    repeat' split
    all_goals rfl

@[simp] theorem State.writeM_heldWrites (s : State) (a : Nat) (bs : List Byte) : (s.writeM a bs).heldWrites = s.heldWrites :=
  List.foldlRecOn (motive := fun (t : State) => t.heldWrites = s.heldWrites) _ _ rfl fun t h c _ => (t.woMark_heldWrites c.1).trans h

@[simp] theorem State.machineWrite_heldWrites (s : State) (a : Nat) (bs : List Byte) :
    (s.machineWrite a bs).heldWrites = s.heldWrites := s.writeM_heldWrites a bs

@[simp] theorem State.setTenant_mem (s : State) (d fn : Nat) (x : Tenant) : (s.setTenant d fn x).mem = s.mem := rfl

@[simp] theorem State.machineWrite_mem (s : State) (a : Nat) (bs : List Byte) : (s.machineWrite a bs).mem = (s.writeM a bs).mem := rfl

@[simp] theorem State.setTenant_heldWrites (s : State) (d fn : Nat) (x : Tenant) : (s.setTenant d fn x).heldWrites = s.heldWrites := rfl

/-- Where no write of a device waits, none is made. -/
theorem State.flushWrites_none {s : State} (h : s.heldWrites = []) (dev : Nat) : s.flushWrites dev = s := by
  have same : { s with heldWrites := [] } = s := by rw [← h]
  simpa [State.flushWrites, h] using same

/-! ### Memory nodes: the end of a stream, and RELATCH tokens (R207, R208, R212) -/

section
variable {s : State} {t m l : Nat} {r : Region} (live : s.regionOf t = some (l, r)) (acts : r.acts = true)
  (clock : s.tileStops t = false) (runs : s.mayRun (deviceOf t) r.fn = true)
include live acts clock runs

/-- A node whose EOT pair waits drains, and emits DONE and EOT (R207). -/
theorem execMwrEotDrain_drains (drain : ((s.tile t).unitAt (slotM m)).drain = true) :
    let u := s.drainNode t (slotM m) 4
    let v := u.setUnit t (slotM m) { (u.tile t).unitAt (slotM m) with drain := false }
    execMwrEotDrain t m s = .next (State.deliver l t (slotM m) 2
      (v.emit t (slotM m) [{ kind := kDone, data := BitVec.ofNat 32 (t % 160 * 256 + m) }, eotTok])) := by
  simp only [execMwrEotDrain, live, acts, drain, clock, runs, Bool.not_false, Bool.and_self, if_true]

/-- A node that is no fence takes a RELATCH token by a boundary of node scope (R208). -/
theorem execRelatchTokenConsume_takes {w : ElWord} {k : Token} (word : (s.tile t).el (slotM m) = some w) :
    let c : Ctx := { l := l, t := t, slot := slotM m, w := w, op := (s.tile t).elOp (slotM m), ent := 0 }
    s.peekIn c 0 = some k → k.kind = kRelatch → (s.unitOf c).drain = false → (s.tile t).isFence (slotM m) = false →
    execRelatchTokenConsume t m s =
      .next ((((s.takeIn c 0).drainNode t (slotM m) 4).refreshUnit t (slotM m) 4).tokenTaken t m k.data) := by
  intro c head token quiet noFence
  simp only [c] at head quiet
  simp only [execRelatchTokenConsume, live, word, head, acts, token, noFence, quiet, clock, runs, decide_true, Bool.not_false,
    Bool.and_self, if_true, c]

end

/-- What re-latches numbered seq of tile t's device wait for from memory node m of the tile, in their order. -/
def State.dutiesAt (s : State) (t m : Nat) (seq : Word) : List Nat :=
  s.relatches.flatMap fun q =>
    if q.dev = deviceOf t ∧ q.seq = seq then q.left.filter fun n => 2 ^ 60 ≤ n && n % 2 ^ 20 = t * 16 + m else []

/-- A node that has taken a token meets the first of its duties for it. -/
theorem State.tokenTaken_eq (s : State) (t m : Nat) (seq : Word) : s.tokenTaken t m seq =
    match (s.dutiesAt t m seq).head? with
    | some n => s.relatchStep (deviceOf t) seq n []
    | none => s := by
  have first : (s.dutiesAt t m seq).head? = s.relatches.findSome? fun q => if q.dev = deviceOf t && q.seq = seq
      then q.left.find? fun n => 2 ^ 60 ≤ n && n % 2 ^ 20 = t * 16 + m else none := by
    rw [State.dutiesAt, List.head?_flatMap]
    congr 1
    funext q
    by_cases named : q.dev = deviceOf t ∧ q.seq = seq
    · simp [named]
    · simp [named]
  rw [first]
  rfl

theorem State.tokenTaken_none {s : State} {t m : Nat} {seq : Word} (none : s.dutiesAt t m seq = []) : s.tokenTaken t m seq = s := by
  rw [State.tokenTaken_eq, none]
  rfl

theorem State.tokenTaken_cons {s : State} {t m n : Nat} {rest : List Nat} {seq : Word} (first : s.dutiesAt t m seq = n :: rest) :
    s.tokenTaken t m seq = s.relatchStep (deviceOf t) seq n [] := by
  rw [State.tokenTaken_eq, first]
  rfl

/-! ### Duties of a re-latch (R212) -/

section
variable {t a : Nat} (inTile : a < 16) (inNode : t < 2 ^ 20)
include inTile inNode

theorem ageKind_fabricAge : ageKind (fabricAge t a) = 0 := by
  simp only [ageKind, fabricAge]
  omega

theorem ageUnit_fabricAge : ageUnit (fabricAge t a) = t * 16 + a := by
  simp only [ageUnit, fabricAge]
  omega

theorem ageTile_fabricAge : ageTile (fabricAge t a) = t := by
  rw [ageTile, if_pos (ageKind_fabricAge inTile inNode), ageUnit_fabricAge inTile inNode]
  omega

/-- The duty of a generator that streams its token is not met while the token stands with it or on its route. -/
theorem State.dutyMet_stands {s : State} {l : Nat} {r : Region} {seq : Word} (live : s.regionOf t = some (l, r))
    (stands : (s.age (fabricAge t a)).relatch.any (fun q => q.1 = seq.toNat) = true ∨
      ∃ k ∈ s.pathTokens r t a, k.kind = kRelatch ∧ k.data = seq)
    (streams : s.streamsToken (fabricAge t a) = true) : s.dutyMet (fabricAge t a) seq = false := by
  have generator : ¬ 2 ^ 60 ≤ fabricAge t a := by
    simp only [fabricAge]
    omega
  have number : (t * 16 + a) % 16 = a := by omega
  have token : s.tokenStands (fabricAge t a) seq = true := by
    simp only [State.tokenStands, ageTile_fabricAge inTile inNode, ageUnit_fabricAge inTile inNode, number, live]
    refine Bool.or_eq_true_iff.2 (stands.imp_right ?_)
    rintro ⟨k, onPath, kind, data⟩
    exact List.any_eq_true.2 ⟨k, onPath, by simp [kind, data]⟩
  simp only [State.dutyMet, if_neg generator, streams, if_true, token, Bool.not_true]

end

/-! ### Samples (R292) -/

/-- A page with one leaf entry is sampled: its accessed bit is read and cleared. -/
theorem State.samplePages_one {s : State} {dev fn va : Nat} {l : Leaf} (leaf : s.leavesOf dev fn va = [l]) :
    let pte := s.mem.num l.addr 8
    State.samplePages dev fn [va] s =
      (s.machineWrite l.addr (toBytes (if pte.testBit 5 then pte - 2 ^ 5 else pte) 8), [(va, l.pte.testBit 5)]) := by
  simp only [State.samplePages, leaf, List.any_cons, List.any_nil, Bool.or_false, List.foldl_cons, List.foldl_nil]

theorem sampledRecord_one (p : WsPage) (hit : Bool) :
    let h := p.history <<< 1 ||| (if hit then 1 else 0)
    sampledRecord [(p.va, hit)] [p] = if h = 0 then [] else [{ p with history := h }] := by
  intro h
  have page : p.sampled [(p.va, hit)] = { p with history := h } := by
    cases hit <;> simp [WsPage.sampled, h]
  by_cases gone : h = 0
  · simp [sampledRecord, page, gone]
  · rw [if_neg gone, sampledRecord, List.map_singleton, page]
    exact List.filter_cons_of_pos (by simpa using gone)

/-- The sample of a record of one page with one leaf entry. -/
theorem State.sample_one {s : State} {dev fn node : Nat} {p : WsPage} {l : Leaf} (ws : (s.tenant dev fn).ws = [(node, [p])])
    (leaf : s.leavesOf dev fn p.va = [l]) :
    let pte := s.mem.num l.addr 8
    let u := s.machineWrite l.addr (toBytes (if pte.testBit 5 then pte - 2 ^ 5 else pte) 8)
    let h := p.history <<< 1 ||| (if l.pte.testBit 5 then 1 else 0)
    let x := u.tenant dev fn
    let early := decide (x.sampleAge < sampleMicros x.desc)
    let v := u.setTenant dev fn { x with
      ws := [(node, if h = 0 then [] else [{ p with history := h }])]
      sampled := early, sampleAge := if early then x.sampleAge else 0 }
    s.sample dev fn = (v.agesOf dev fn [2 * dev, 2 * dev + 1]).foldl (fun (s : State) a =>
      s.setAge a { s.age a with latches := (s.age a).latches.map fun l => { l with sampled := true } }) v := by
  intro pte u h x early v
  have pages : ((s.tenant dev fn).ws.flatMap fun w => w.2.map WsPage.va).eraseDups = [p.va] := by
    rw [ws]
    rfl
  have record : x.ws = [(node, [p])] := by
    obtain ⟨n, kept⟩ := s.machineWrite_tenant l.addr (toBytes (if pte.testBit 5 then pte - 2 ^ 5 else pte) 8) dev fn
    simpa [x, u, kept] using ws
  have ended : (sampleMicros x.desc ≤ x.sampleAge) ↔ early = false := by simp [early]
  have taken : ({ x with
      ws := x.ws.map fun w => (w.1, sampledRecord [(p.va, l.pte.testBit 5)] w.2)
      sampled := !decide (sampleMicros x.desc ≤ x.sampleAge)
      sampleAge := if sampleMicros x.desc ≤ x.sampleAge then 0 else x.sampleAge } : Tenant) =
      { x with
        ws := [(node, if h = 0 then [] else [{ p with history := h }])]
        sampled := early, sampleAge := if early then x.sampleAge else 0 } := by
    simp only [record, List.map_cons, List.map_nil, sampledRecord_one p (l.pte.testBit 5), ended]
    cases early <;> rfl
  simp only [State.sample, pages, State.samplePages_one leaf]
  rw [taken]

theorem Tenant.samples_iff (x : Tenant) : x.samples = true ↔ x.state = .running ∨ x.state = .ready := by
  cases state : x.state <;> simp [Tenant.samples, state]

/-- A tenant that is RUNNING or READY, and no owner, takes one sample in an interval (R292). -/
theorem execWsSample_samples {s : State} {dev fn : Nat} (noOwner : fn ≠ 16)
    (stands : (s.tenant dev fn).state = .running ∨ (s.tenant dev fn).state = .ready) (first : (s.tenant dev fn).sampled = false) :
    execWsSample dev fn s = .next (s.sample dev fn) := by
  simp only [execWsSample, noOwner, (Tenant.samples_iff _).2 stands, first, decide_false, Bool.not_true, Bool.or_self, Bool.false_eq_true,
    if_false]

theorem execWsSample_still {s : State} {dev fn : Nat} (h : (s.tenant dev fn).sampled = true ∨
    ((s.tenant dev fn).state ≠ .running ∧ (s.tenant dev fn).state ≠ .ready)) : execWsSample dev fn s = .next s := by
  have rests : (!(s.tenant dev fn).samples || (s.tenant dev fn).sampled) = true := by
    rcases h with sampled | ⟨noRun, noReady⟩
    · simp [sampled]
    · have away : (s.tenant dev fn).samples = false :=
        Bool.eq_false_iff.2 fun samples => ((Tenant.samples_iff _).1 samples).elim noRun noReady
      simp [away]
  simp only [execWsSample, Bool.or_assoc, rests, Bool.or_true, if_true]

/-! ### Page moves (R323) -/

/-- A page that may go up to a frame in tier 0 is marked and re-latched (R323 steps 1 and 2). -/
theorem execPageMove_begins {s : State} {dev fn va frame : Nat} {l : Leaf}
    (unmarked : ((s.tenant dev fn).moving.find? fun m => m.va = va) = none) (leaf : s.leafOf dev fn va = some l)
    (base : l.page va = va) (awake : (s.device dev).frozen = false) (low : l.tier dev ≠ some 0) (tiered : l.tier dev ≠ none)
    (may : s.mayMoveUp dev fn va = true) (free : s.mayTake dev fn (pageSize l.level) frame = true) :
    execPageMove dev fn va frame s = .next (s.startMove dev fn va (pageSize l.level) frame) := by
  simp only [execPageMove, unmarked, leaf, base, awake, low, tiered, may, free, ne_eq, not_true_eq_false, not_false_eq_true, decide_false,
    decide_true, Bool.or_self, Bool.and_self, Bool.false_eq_true, if_false, if_true]

theorem execPageMove_marked {s : State} {dev fn va frame : Nat} {m : TierMove}
    (marked : ((s.tenant dev fn).moving.find? fun m => m.va = va) = some m) :
    execPageMove dev fn va frame s = .next (if s.emerged dev m.seq then s.endMove dev fn m else s) := by
  simp only [execPageMove, marked]

/-- The move of a page is counted, and its bytes are copied to the new frame (R323 step 3, R347). -/
def State.copyPage (s : State) (dev fn : Nat) (m : TierMove) (old : Nat) : State :=
  ((s.count dev fn (if tierOf dev m.frame = some 0 then 0x202 else 0x203) 1).tierBytes dev m.size).writeM m.frame (s.mem.read old m.size)

theorem State.copyPage_moving (s : State) (dev fn : Nat) (m : TierMove) (old : Nat) :
    ((s.copyPage dev fn m old).tenant dev fn).moving = (s.tenant dev fn).moving := by
  obtain ⟨n, written⟩ := ((s.count dev fn (if tierOf dev m.frame = some 0 then 0x202 else 0x203) 1).tierBytes dev m.size).writeM_tenant
    m.frame (s.mem.read old m.size) dev fn
  have counted (k : Nat) : ((s.count dev fn k 1).tenant dev fn).moving = (s.tenant dev fn).moving :=
    (congrArg Tenant.moving (State.tenant_setTenant_same _ _ _ _)).trans rfl
  rw [State.copyPage, written]
  exact counted _

theorem State.copyPage_heldWrites (s : State) (dev fn : Nat) (m : TierMove) (old : Nat) :
    (s.copyPage dev fn m old).heldWrites = s.heldWrites := State.writeM_heldWrites _ _ _

/-- A page with one leaf entry ends its move: its bytes are copied, and then its leaf takes the frame (R323 steps 3 to 5). -/
theorem State.endMove_one {s u : State} {dev fn : Nat} {m : TierMove} {l k : Leaf}
    (unmarked : (s.setTenant dev fn { s.tenant dev fn with moving := (s.tenant dev fn).moving.filter (· ≠ m) }).endRelatch dev m.seq = u)
    (leaf : u.leafOf dev fn m.va = some l) (leaves : (u.copyPage dev fn m l.frame).leavesOf dev fn m.va = [k]) (same : k.frame = l.frame) :
    let v := u.copyPage dev fn m l.frame
    let pte := v.mem.num k.addr 8
    let w := v.machineWrite k.addr (toBytes (pte - pteAddr pte + m.frame) 8)
    ∃ lent, s.endMove dev fn m = (w.setTenant dev fn { w.tenant dev fn with lent := lent }).flushWrites dev := by
  intro v pte w
  let t := (u.count dev fn (if tierOf dev m.frame = some 0 then 0x202 else 0x203) 1).tierBytes dev m.size
  have copied : t.writeM m.frame (t.mem.read l.frame m.size) = v := rfl
  have entry : (v.leavesOf dev fn m.va).filter (fun k => k.frame = l.frame) = [k] := by simp [v, leaves, same]
  simp only [t] at copied
  simp only [State.endMove, unmarked, leaf, copied, entry, List.foldl_cons, List.foldl_nil]
  exact ⟨_, rfl⟩

/-- With no write of the device waiting, what the end of such a move leaves of the mark and of M. -/
theorem State.endMove_leaves {s u : State} {dev fn : Nat} {m : TierMove} {l k : Leaf} (idle : s.heldWrites = [])
    (unmarked : (s.setTenant dev fn { s.tenant dev fn with moving := (s.tenant dev fn).moving.filter (· ≠ m) }).endRelatch dev m.seq = u)
    (leaf : u.leafOf dev fn m.va = some l) (leaves : (u.copyPage dev fn m l.frame).leavesOf dev fn m.va = [k]) (same : k.frame = l.frame) :
    let v := u.copyPage dev fn m l.frame
    let pte := v.mem.num k.addr 8
    m ∉ ((s.endMove dev fn m).tenant dev fn).moving ∧
      (s.endMove dev fn m).mem = (v.writeM k.addr (toBytes (pte - pteAddr pte + m.frame) 8)).mem := by
  intro v pte
  obtain ⟨lent, ends⟩ := State.endMove_one unmarked leaf leaves same
  obtain ⟨n, written⟩ := v.machineWrite_tenant k.addr (toBytes (pte - pteAddr pte + m.frame) 8) dev fn
  have filtered : (u.tenant dev fn).moving = (s.tenant dev fn).moving.filter (· ≠ m) := by
    rw [← unmarked]
    exact congrArg Tenant.moving (State.tenant_setTenant_same _ _ _ _)
  rw [ends, State.flushWrites_none]
  · rw [State.tenant_setTenant_same, State.setTenant_mem, State.machineWrite_mem]
    refine ⟨?_, rfl⟩
    rw [written, State.copyPage_moving, filtered]
    simp
  · rw [State.setTenant_heldWrites, State.machineWrite_heldWrites, State.copyPage_heldWrites, ← unmarked]
    exact idle

/-! ### Quanta (R316, R320, R326, R340) -/

/-- The runnable READY tenants that conflict with a tenant (R320). -/
def State.rivals (s : State) (dev fn : Nat) : List Nat :=
  (s.others dev fn).filter fun o => (s.tenant dev o).state = .ready && s.readyRunnable dev o && s.conflict dev fn o

theorem State.newQuantum_quantumLeft (s : State) (dev fn : Nat) :
    ((s.newQuantum dev fn).tenant dev fn).quantumLeft = (s.tenant dev fn).quantum := by
  simp [State.newQuantum, State.count]

theorem State.newQuantum_counts (s : State) (dev fn : Nat) : mapGet ((s.newQuantum dev fn).tenant dev fn).counters 0x205 =
    some ((mapGet (s.tenant dev fn).counters 0x205).getD 0 + 1) := by
  simp [State.newQuantum, State.count]

section
variable {s : State} {dev fn : Nat} (runs : (s.tenant dev fn).state = .running) (noOwner : fn ≠ 16)
  (stays : (s.tenant dev fn).leaving = false) (ended : (s.tenant dev fn).quantumLeft = 0)
include runs noOwner stays ended

/-- A quantum ends with no rival: the tenant goes on (R320). -/
theorem execQuantumExpiry_alone (alone : s.rivals dev fn = []) : execQuantumExpiry dev fn s = .next (s.newQuantum dev fn) := by
  rw [State.rivals] at alone
  simp [execQuantumExpiry, runs, noOwner, stays, ended, alone, State.firstRanked]

variable {b : Nat} (rival : s.rivals dev fn = [b])
include rival

/-- The one rival ranks at or above the tenant: it is chosen, and the tenant's regions are asked for a hold (R320, R326). -/
theorem execQuantumExpiry_yields
    (ranks : (s.tenant dev fn).priority ≤ (s.tenant dev b).priority ∨ 15 ≤ (s.tenant dev b).passedOver) :
    let u := (s.setTenant dev fn { s.tenant dev fn with leaving := true }).choose dev [b]
    execQuantumExpiry dev fn s = .next (u.askHold (u.tilesOf dev fn)) := by
  rw [State.rivals] at rival
  simp [execQuantumExpiry, runs, noOwner, stays, ended, rival, State.firstRanked, ranks.symm]

/-- The one rival ranks below the tenant: it is passed over, and the tenant goes on (R320). -/
theorem execQuantumExpiry_passes (ranks : (s.tenant dev b).priority < (s.tenant dev fn).priority)
    (early : (s.tenant dev b).passedOver < 15) : execQuantumExpiry dev fn s = .next
      ((s.setTenant dev b { s.tenant dev b with passedOver := (s.tenant dev b).passedOver + 1 }).newQuantum dev fn) := by
  rw [State.rivals] at rival
  simp [execQuantumExpiry, runs, noOwner, stays, ended, rival, State.firstRanked, Nat.not_le.2 ranks, Nat.not_le.2 early]

end

/-- A region of leader l as the end of its time for a soft pre-emption leaves it: of the function, asked for a hold and at no token round
for 65,536 fc, it is to be frozen hard (R326). -/
def State.hardened (s : State) (dev fn l : Nat) (r : Region) : Region :=
  if deviceOf l = dev && r.fn = fn && r.phase ≠ .held && r.preempt.any fun p => p.1 + softLimit ≤ (s.die (dieOf l)).cycle
  then { r with preempt := r.preempt.map fun p => (p.1, true) } else r

theorem execSoftPreemptTimeout_marks (dev fn : Nat) (s : State) : execSoftPreemptTimeout dev fn s =
    .next { s with regions := s.regions.map fun e => (e.1, s.hardened dev fn e.1 e.2) } := by
  refine congrArg (fun m => Host.Outcome.next { s with regions := m }) (List.map_congr_left fun e _ => ?_)
  exact (apply_ite (Prod.mk e.1) _ _ _).symm

section
variable {s : State} {dev fn l : Nat} {r : Region}

theorem State.hardened_late {since : Nat} {hard : Bool} (device : deviceOf l = dev) (function : r.fn = fn) (moves : r.phase ≠ .held)
    (asked : r.preempt = some (since, hard)) (late : since + 65536 ≤ (s.die (dieOf l)).cycle) :
    s.hardened dev fn l r = { r with preempt := some (since, true) } := by
  simp [State.hardened, device, function, moves, asked, softLimit, late]

theorem State.hardened_still (h : deviceOf l ≠ dev ∨ r.fn ≠ fn ∨ r.phase = .held ∨ r.preempt = none ∨
    (∃ since hard, r.preempt = some (since, hard) ∧ (s.die (dieOf l)).cycle < since + 65536)) : s.hardened dev fn l r = r := by
  refine if_neg ?_
  rcases h with device | function | held | unasked | ⟨since, hard, asked, early⟩
  · simp [device]
  · simp [function]
  · simp [held]
  · simp [unasked]
  · simp [asked, softLimit, Nat.not_le.2 early]

end

theorem State.any_ownerOn {s : State} {tiles : List Nat} (free : ∀ t ∈ tiles, s.ownerOn t = false) : tiles.any s.ownerOn = false :=
  List.any_eq_false.2 fun t mem => by simp [free t mem]

section
variable {s : State} {dev fn : Nat} (ready : (s.tenant dev fn).state = .ready) (noOwner : fn ≠ 16)
  (awake : (s.device dev).frozen = false) (steady : s.steady (s.tilesOf dev fn) = true) (may : s.mayStart dev fn = true)
  (free : ∀ t ∈ s.tilesOf dev fn, s.ownerOn t = false)
include ready noOwner awake steady may free

/-- A grant whose tenant's tree does not read makes it fatal (R317). -/
theorem execQuantumGrant_badTree {u : State} {va : Nat} {f : WalkFault} (tree : s.loadTree dev fn = .fault u va f) :
    execQuantumGrant dev fn s = .next (u.fatal dev fn 0x47) := by
  simp [execQuantumGrant, ready, noOwner, awake, steady, may, State.any_ownerOn free, tree]

variable {u : State} {rcbs : List Rcb} (tree : s.loadTree dev fn = .ok u rcbs)
include tree

/-- A grant whose tenant's images do not read makes it fatal (R334). -/
theorem execQuantumGrant_badImages {w : State} {va : Nat} {f : WalkFault} :
    let v := u.setTenant dev fn { u.tenant dev fn with rcbs := rcbs }
    State.readRun (2 * dev) 16 none fn dev v (v.saveBase dev fn) (s.tilesOf dev fn) = .fault w va f →
    execQuantumGrant dev fn s = .next (w.fatal dev fn 0x23) := by
  intro v images
  simp [execQuantumGrant, ready, noOwner, awake, steady, may, State.any_ownerOn free, tree, images, v]

/-- A grant that reads all begins the tenant's waits anew. -/
theorem execQuantumGrant_grants {w : State} {ims : List (Nat × List Byte)} :
    let v := u.setTenant dev fn { u.tenant dev fn with rcbs := rcbs }
    State.readRun (2 * dev) 16 none fn dev v (v.saveBase dev fn) (s.tilesOf dev fn) = .ok w ims →
    ∃ t, execQuantumGrant dev fn s = .next t ∧ (t.tenant dev fn).away = none ∧ (t.tenant dev fn).waited = 0 ∧
      (t.tenant dev fn).passedOver = 0 := by
  intro v images
  simp only [execQuantumGrant, ready, noOwner, awake, steady, may, State.any_ownerOn free, tree, images, v, ne_eq, not_true_eq_false,
    decide_false, Bool.not_true, Bool.or_self, Bool.false_eq_true, if_false]
  refine ⟨_, rfl, ?_⟩
  rw [State.tenant_setTenant_same]
  exact ⟨rfl, rfl, rfl⟩

end

theorem execQuantumGrant_still {s : State} {dev fn : Nat} (h : s.mayStart dev fn = false) :
    execQuantumGrant dev fn s = .next s := by
  simp [execQuantumGrant, h]

theorem execHang_over {s : State} {dev fn : Nat} (runs : (s.tenant dev fn).state = .running) (work : s.runnable dev fn = true)
    (late : s.hangLimit dev fn ≤ (s.tenant dev fn).idleMicros) : execHang dev fn s = .next (s.fatal dev fn 0x44) := by
  simp [execHang, runs, work, late]

theorem execHang_still {s : State} {dev fn : Nat} (within : (s.tenant dev fn).idleMicros < s.hangLimit dev fn) :
    execHang dev fn s = .next s := by
  simp [execHang, Nat.not_le.2 within]

end Sys2Proof.Machine

namespace Sys2Proof.Proofs

open Sys2Proof.Machine Sys2Proof.Rules

/-- Settles O26, by induction on the extents. -/
theorem nestOrder : Obligations.NestOrder := by
  unfold Obligations.NestOrder
  intro exts n pos small
  rw [← List.prod_eq_foldl] at small
  exact ⟨nestCounters_length exts n, nestCounters_lt exts n pos, nestCounters_value exts n small⟩

/-- Settles O19: an insertion leaves one valid entry of its granule, and keeps each other tag. -/
theorem tagTable : Obligations.TagTable := by
  unfold Obligations.TagTable
  refine ⟨⟨fun s f holds => ⟨?look, fun slot area => ?evict⟩, fun s n v va slot area => ⟨?insertA, ?insertB⟩⟩,
    fun x n g once => ?table⟩
  case look => exact (execTlook_ok holds).trans (writeReg_eq _ _ _ _)
  case evict => exact (execTevict_ok holds slot area).trans (writeReg_eq _ _ _ _)
  case insertA =>
    rintro f holds rfl rfl
    exact (guarded_true _ _ holds).trans (tagInsert_ok slot area va)
  case insertB =>
    rintro f holds rfl rfl
    exact (guarded_true _ _ holds).trans (tagInsert_ok slot area va)
  case table =>
    exact ⟨Tile.tag_insertTag_same, Tile.findTag_insertTag, fun k => Tile.tag_insertTag_ne once, Tile.insertTag_valid_unique once⟩

/-- Settles O14: each instruction goes on where its guard holds, its checks pass and its address has its page. -/
theorem globalAccess : Obligations.GlobalAccess := by
  unfold Obligations.GlobalAccess
  refine ⟨fun s u f pa holds => ⟨fun ok reach present => ?loadA, fun ok reach => ?storeA, fun ok reach => ⟨?amo, ?cas⟩⟩,
    fun s u f pa holds => ?formB⟩
  case loadA =>
    show execGldA f s = _
    exact execGldA_ok holds ok reach present
  case storeA =>
    show execGstA f s = _
    exact execGstA_ok holds ok reach
  case amo =>
    show execAmo f s = _
    exact execAmo_ok holds ok reach
  case cas =>
    show execCas f s = _
    exact execCas_ok holds ok reach
  case formB =>
    dsimp only
    rw [← eaLit_imm16]
    refine ⟨fun ok reach present => ?_, fun ok reach => ?_⟩
    · show execGldB f s = _
      exact execGldB_ok holds ok reach present
    · show execGstB f s = _
      exact execGstB_ok holds ok reach

/-- Settles O25: each element fires by the lemma about its turn. -/
theorem memoryElements : Obligations.MemoryElements := by
  unfold Obligations.MemoryElements
  refine ⟨fun s u c vs pa => ⟨execElMrd_performs, execElMwr_performs, execElMamo_performs, ?cut⟩, ?fences, ?agen, ?lgen⟩
  case cut =>
    intro p hp addresses cut
    simp only [List.mem_cons, List.not_mem_nil, or_false] at hp
    rcases hp with rfl | rfl | rfl
    · show execElMrd s = _
      exact nodeTurn_cut addresses cut
    · show execElMwr s = _
      exact nodeTurn_cut addresses cut
    · show execElMamo s = _
      exact nodeTurn_cut addresses cut
  case fences =>
    intro s c k fires head noErr plain
    exact ⟨execElPub_passes fires head noErr plain, execElAcq_passes fires head noErr plain⟩
  case agen =>
    intro s u c r b h fires live quiet runs bound mode i made
    exact execElAgen_walks fires live quiet runs bound mode made
  case lgen =>
    intro s c i b l fires counts within noHead
    exact execElLgen_counts fires counts within noHead

/-- Settles O50: each act goes by the lemma about it. -/
theorem tenantActs : Obligations.TenantActs := by
  unfold Obligations.TenantActs
  refine ⟨?drain, ?token, fun s age => rfl, ?duty, ?sample, fun s dev fn => execWsSample_still, ?moveUp, ?moveEnd, ?expiry, ?quantum,
    ?timeout, ?grant, fun s dev fn => execQuantumGrant_still, ?hang⟩
  case drain =>
    intro s t m l r live acts drain clock runs
    exact execMwrEotDrain_drains live acts clock runs drain
  case token =>
    intro s t m l r w k live acts word c head token quiet noFence clock runs u duties
    have takes := execRelatchTokenConsume_takes live acts clock runs word head token quiet noFence
    exact ⟨fun none => takes.trans (congrArg _ (State.tokenTaken_none none)),
      fun n rest first => takes.trans (congrArg _ (State.tokenTaken_cons first))⟩
  case duty =>
    intro s t a l r seq inTile inNode live age stands streams
    exact State.dutyMet_stands inTile inNode live stands streams
  case sample =>
    intro s dev fn node p l noOwner ws stands first leaf
    exact (execWsSample_samples noOwner stands first).trans (congrArg _ (State.sample_one ws leaf))
  case moveUp =>
    intro s dev fn va frame l unmarked leaf base awake low tiered may free
    exact execPageMove_begins unmarked leaf base awake low tiered may free
  case moveEnd =>
    intro s dev fn va frame m marked u
    have moves := execPageMove_marked (frame := frame) marked
    refine ⟨fun waits => ?_, fun l done idle leaf k leaves same => ?_⟩
    · exact moves.trans (by simp [waits])
    · exact ⟨_, moves.trans (by rw [if_pos done]), State.endMove_leaves idle rfl leaf leaves same⟩
  case expiry =>
    intro s dev fn runs noOwner stays ended x cand
    refine ⟨execQuantumExpiry_alone runs noOwner stays ended, fun b rival => ⟨?_, ?_⟩⟩
    · exact execQuantumExpiry_yields runs noOwner stays ended rival
    · exact execQuantumExpiry_passes runs noOwner stays ended rival
  case quantum =>
    intro s dev fn
    exact ⟨s.newQuantum_quantumLeft dev fn, s.newQuantum_counts dev fn⟩
  case timeout =>
    intro s dev fn
    refine ⟨_, execSoftPreemptTimeout_marks dev fn s, fun l r live => ⟨s.hardened dev fn l r, ?_, ?_, State.hardened_still⟩⟩
    · rw [mapGet_map_snd s.regions (s.hardened dev fn), live, Option.map_some]
    · exact fun since hard => State.hardened_late
  case grant =>
    intro s dev fn ready noOwner awake steady may free
    exact ⟨fun u va f => execQuantumGrant_badTree ready noOwner awake steady may free, fun u rcbs tree =>
      ⟨fun w va f => execQuantumGrant_badImages ready noOwner awake steady may free tree,
        fun w ims => execQuantumGrant_grants ready noOwner awake steady may free tree⟩⟩
  case hang =>
    intro s dev fn runs work
    exact ⟨execHang_over runs work, execHang_still⟩

end Sys2Proof.Proofs

/-! Proofs about the ordering of memory: what a write leaves in M, the updates of a barrier (R235 to R238), drains, refreshes and
boundaries (R227 to R229, R234), and the barrier instructions (R239 to R241). -/

namespace Sys2Proof.Machine

open Sys2Proof.Rules

/-! ### Numbers as bytes -/

theorem byteOf_succ (v i : Nat) : byteOf v (i + 1) = byteOf (v / 256) i := by
  rw [byteOf, byteOf, show 8 * (i + 1) = 8 + 8 * i by omega, Nat.shiftRight_add, Nat.shiftRight_eq_div_pow v 8]

theorem toBytes_succ (v n : Nat) : toBytes v (n + 1) = byteOf v 0 :: toBytes (v / 256) n := by
  simp [toBytes, List.range_succ_eq_map, Function.comp_def, byteOf_succ]

@[simp] theorem length_toBytes (v n : Nat) : (toBytes v n).length = n := by simp [toBytes]

theorem ofBytes_toBytes (v n : Nat) : ofBytes (toBytes v n) = v % 256 ^ n := by
  induction n generalizing v with
  | zero => simp [toBytes, ofBytes, Nat.mod_one]
  | succ n ih =>
    rw [toBytes_succ, ofBytes, ih, Nat.pow_succ', Nat.mod_mul]
    simp [byteOf]

theorem ofBytes_lt (bs : List Byte) : ofBytes bs < 256 ^ bs.length := by
  induction bs with
  | nil => simp [ofBytes]
  | cons b r ih =>
    have := b.isLt
    rw [ofBytes, List.length_cons, Nat.pow_succ']
    omega

theorem Memory.num_lt (m : Memory) (a n : Nat) : m.num a n < 256 ^ n := by
  simpa [Memory.num, Memory.read] using ofBytes_lt (m.read a n)

/-! ### What a write leaves in M -/

theorem Memory.write_append (m : Memory) (a : Nat) (bs cs : List Byte) :
    m.write a (bs ++ cs) = (m.write a bs).write (a + bs.length) cs := by
  induction bs generalizing m a with
  | nil => rfl
  | cons b r ih =>
    rw [List.cons_append, Memory.write, ih, Memory.write, List.length_cons, Nat.add_right_comm, Nat.add_assoc]

/-- The cells that `State.writeM` makes of consecutive bytes are a write of them. -/
theorem Memory.foldl_set_mapIdx (m : Memory) (a : Nat) (bs : List Byte) :
    (bs.mapIdx fun i b => (a + i, b)).foldl (fun m c => m.set c.1 c.2) m = m.write a bs := by
  induction bs generalizing m a with
  | nil => rfl
  | cons b r ih =>
    have shifted : (r.mapIdx fun i b => (a + (i + 1), b)) = r.mapIdx fun i b => (a + 1 + i, b) := by
      simp only [Nat.add_assoc, Nat.add_comm 1]
    rw [List.mapIdx_cons, List.foldl_cons, shifted, ih, Memory.write, Nat.add_zero]

/-- A range that was written reads as the bytes written. -/
theorem Memory.read_write_same (m : Memory) (a : Nat) (bs : List Byte) (h : Memory.wf m = true) :
    (m.write a bs).read a bs.length = bs := by
  induction bs generalizing m a with
  | nil => rfl
  | cons b r ih =>
    have first : ((m.set a b).write (a + 1) r).get a = b := by
      rw [Memory.get_write_outside _ _ _ _ (Memory.set_wf m a b h) (by omega), Memory.get_set_same m a b h]
    have rest := ih (m.set a b) (a + 1) (Memory.set_wf m a b h)
    simp only [Memory.read, Nat.add_assoc, Nat.add_comm 1] at rest
    simp only [Memory.read, Memory.write, List.length_cons, List.range_succ_eq_map, List.map_cons, List.map_map,
      Function.comp_def, Nat.add_zero, Nat.succ_eq_add_one, first, rest]

theorem Memory.num_write_toBytes (m : Memory) (a v n : Nat) (h : Memory.wf m = true) :
    (m.write a (toBytes v n)).num a n = v % 256 ^ n := by
  have read := m.read_write_same a (toBytes v n) h
  rw [length_toBytes] at read
  rw [Memory.num, read, ofBytes_toBytes]

/-- A number below the range written reads as before. -/
theorem Memory.num_write_below (m : Memory) {x n a : Nat} (bs : List Byte) (h : Memory.wf m = true) (below : x + n ≤ a) :
    (m.write a bs).num x n = m.num x n := by
  refine congrArg ofBytes (List.map_congr_left fun i hi => ?_)
  have := List.mem_range.1 hi
  exact Memory.get_write_outside bs m a (x + i) h (by omega)

/-- Two 64-bit numbers written one behind the other read as they were written. -/
theorem Memory.num_write_pair (m : Memory) (a : Nat) {v w : Nat} (h : Memory.wf m = true) (hv : v < 2 ^ 64) (hw : w < 2 ^ 64) :
    (m.write a (toBytes v 8 ++ toBytes w 8)).num a 8 = v ∧ (m.write a (toBytes v 8 ++ toBytes w 8)).num (a + 8) 8 = w := by
  have h' := Memory.write_wf (toBytes v 8) m a h
  rw [Memory.write_append, length_toBytes]
  constructor
  · rw [Memory.num_write_below _ _ h' le_rfl, Memory.num_write_toBytes _ _ _ _ h]
    exact Nat.mod_eq_of_lt hv
  · rw [Memory.num_write_toBytes _ _ _ _ h']
    exact Nat.mod_eq_of_lt hw

/-! ### Writes where no write-once buffer is bound (R362) -/

/-- A write that touches no bound write-once word puts its bytes into M, and does nothing else. -/
theorem State.writeCells_unbound {s : State} {cells : List Host.Cell} (free : ∀ c ∈ cells, s.woBound c.1 = false) :
    s.writeCells cells = { s with mem := cells.foldl (fun m c => m.set c.1 c.2) s.mem } := by
  have kept : (cells.filter fun c => !s.woPresent c.1) = cells :=
    List.filter_eq_self.2 fun c hc => by simpa using (Bool.or_eq_false_iff.1 (free c hc)).1
  have touched : (cells.filter fun c => s.woAbsent c.1) = [] :=
    List.filter_eq_nil_iff.2 fun c hc => by simpa using (Bool.or_eq_false_iff.1 (free c hc)).2
  simp only [State.writeCells, kept, touched, List.foldl_nil]

theorem State.writeM_unbound {s : State} {a : Nat} {bs : List Byte} (free : ∀ i, i < bs.length → s.woBound (a + i) = false) :
    s.writeM a bs = { s with mem := s.mem.write a bs } := by
  rw [State.writeM, State.writeCells_unbound, Memory.foldl_set_mapIdx]
  intro c hc
  obtain ⟨i, hi, rfl⟩ := List.mem_mapIdx.1 hc
  exact free i hi

/-- A machine without write-once buffers binds no byte. -/
theorem State.woBound_none {s : State} (none : ∀ u, (s.tile u).writeOnce = []) (a : Nat) : s.woBound a = false := by
  cases at' : spTile a <;> simp [State.woBound, State.woPresent, State.woAbsent, at', none, woFind]

theorem State.foldl_writeCells_unbound {s : State} (css : List (List Host.Cell)) (free : ∀ a, s.woBound a = false) :
    css.foldl (fun s cs => s.writeCells cs) s = { s with mem := css.flatten.foldl (fun m c => m.set c.1 c.2) s.mem } := by
  induction css generalizing s with
  | nil => rfl
  | cons cs r ih =>
    rw [List.foldl_cons, State.writeCells_unbound fun c _ => free c.1, List.flatten_cons, List.foldl_append]
    exact ih free

/-! ### The update of a barrier (R238) -/

/-- The counts of a barrier with an update added: arrivals, bytes in, and bytes expected. -/
def State.barArrivals (s : State) (pa : Nat) (u : BarUpdate) : Nat := s.mem.num pa 8 / 2 ^ 48 + u.arrivals
def State.barBytes (s : State) (pa : Nat) (u : BarUpdate) : Nat := s.mem.num pa 8 % 2 ^ 48 + u.bytes
def State.barExpected (s : State) (pa : Nat) (u : BarUpdate) : Nat := s.mem.num (pa + 8) 8 % 2 ^ 48 + u.expect

/-- The arrivals that a barrier expects. -/
def State.barQuorum (s : State) (pa : Nat) : Nat := s.mem.num (pa + 8) 8 / 2 ^ 48 % 2 ^ 15

/-- The ranges of a barrier's phase with those of an update. -/
def State.barCovered (s : State) (pa : Nat) (u : BarUpdate) : Ranges := (mapGet s.barRanges pa).getD [] ++ u.ranges

/-- The two words of a barrier written to M (R236). -/
def State.barWrite (s : State) (pa lo hi : Nat) : State := s.writeM pa (toBytes lo 8 ++ toBytes hi 8)

/-- The barrier after a flip: the other phase and zero counts, and the ranges of the phase that ended. -/
def State.barFlip (s : State) (pa : Nat) (u : BarUpdate) : State :=
  let t := s.barWrite pa 0 ((1 - s.mem.num (pa + 8) 8 / 2 ^ 63) * 2 ^ 63 + s.barQuorum pa * 2 ^ 48)
  ({ t with barFlipped := mapSet t.barFlipped pa (s.barCovered pa u), barRanges := mapErase t.barRanges pa } : State).note .update
    (barrierBytes pa)

/-- The barrier with an update's counts and ranges added, in the same phase. -/
def State.barAdd (s : State) (pa : Nat) (u : BarUpdate) : State :=
  let t := s.barWrite pa (s.barArrivals pa u * 2 ^ 48 + s.barBytes pa u)
    (s.mem.num (pa + 8) 8 / 2 ^ 63 * 2 ^ 63 + s.barQuorum pa * 2 ^ 48 + s.barExpected pa u)
  ({ t with barRanges := mapSet t.barRanges pa (s.barCovered pa u) } : State).note .update (barrierBytes pa)

theorem State.barrierUpdate_eq (s : State) (pa : Nat) (u : BarUpdate) :
    s.barrierUpdate pa u =
      if s.barQuorum pa = 0 ∨ 2 ^ 48 ≤ s.barBytes pa u ∨ 2 ^ 48 ≤ s.barExpected pa u then .error 0x2A
      else if s.barQuorum pa < s.barArrivals pa u ∨ (s.barArrivals pa u = s.barQuorum pa ∧ s.barExpected pa u < s.barBytes pa u) then
        .error 0x29
      else if s.barArrivals pa u = s.barQuorum pa ∧ s.barBytes pa u = s.barExpected pa u then .ok (s.barFlip pa u)
      else .ok (s.barAdd pa u) := by
  by_cases unset : s.barQuorum pa = 0
  · rw [if_pos (.inl unset)]
    exact if_pos unset
  · simp only [unset, false_or]
    refine (if_neg unset).trans ?_
    simp only [ge_iff_le, gt_iff_lt, Bool.or_eq_true, Bool.and_eq_true, decide_eq_true_eq]
    rfl

section
variable {s : State} {pa : Nat} {u : BarUpdate}

theorem State.barrierUpdate_unset
    (bad : s.barQuorum pa = 0 ∨ 2 ^ 48 ≤ s.barBytes pa u ∨ 2 ^ 48 ≤ s.barExpected pa u) : s.barrierUpdate pa u = .error 0x2A := by
  rw [s.barrierUpdate_eq, if_pos bad]

section
variable (expects : s.barQuorum pa ≠ 0) (bytes : s.barBytes pa u < 2 ^ 48) (expected : s.barExpected pa u < 2 ^ 48)
include expects bytes expected

theorem State.barrierUpdate_fits : s.barrierUpdate pa u =
    if s.barQuorum pa < s.barArrivals pa u ∨ (s.barArrivals pa u = s.barQuorum pa ∧ s.barExpected pa u < s.barBytes pa u) then
      .error 0x29
    else if s.barArrivals pa u = s.barQuorum pa ∧ s.barBytes pa u = s.barExpected pa u then .ok (s.barFlip pa u)
    else .ok (s.barAdd pa u) := by
  rw [s.barrierUpdate_eq, if_neg (by omega)]

theorem State.barrierUpdate_overrun (past : s.barQuorum pa < s.barArrivals pa u ∨
    (s.barArrivals pa u = s.barQuorum pa ∧ s.barExpected pa u < s.barBytes pa u)) : s.barrierUpdate pa u = .error 0x29 := by
  rw [State.barrierUpdate_fits expects bytes expected, if_pos past]

theorem State.barrierUpdate_flips (arrived : s.barArrivals pa u = s.barQuorum pa) (complete : s.barBytes pa u = s.barExpected pa u) :
    s.barrierUpdate pa u = .ok (s.barFlip pa u) := by
  rw [State.barrierUpdate_fits expects bytes expected, if_neg (by omega), if_pos ⟨arrived, complete⟩]

theorem State.barrierUpdate_adds (more : s.barArrivals pa u < s.barQuorum pa ∨
    (s.barArrivals pa u = s.barQuorum pa ∧ s.barBytes pa u < s.barExpected pa u)) :
    s.barrierUpdate pa u = .ok (s.barAdd pa u) := by
  rw [State.barrierUpdate_fits expects bytes expected, if_neg (by omega), if_neg (by omega)]

end

/-- What an update that succeeds has done: its counts fit their fields, and it flips the barrier just where all is in. -/
theorem State.barrierUpdate_ok {t : State} (ok : s.barrierUpdate pa u = .ok t) :
    s.barArrivals pa u ≤ s.barQuorum pa ∧ s.barBytes pa u < 2 ^ 48 ∧ s.barExpected pa u < 2 ^ 48 ∧
      t = if s.barArrivals pa u = s.barQuorum pa ∧ s.barBytes pa u = s.barExpected pa u then s.barFlip pa u else s.barAdd pa u := by
  rw [s.barrierUpdate_eq] at ok
  split at ok
  · cases ok
  · split at ok
    · cases ok
    · refine ⟨by omega, by omega, by omega, ?_⟩
      by_cases all : s.barArrivals pa u = s.barQuorum pa ∧ s.barBytes pa u = s.barExpected pa u
      · rw [if_pos all] at ok ⊢
        exact (Except.ok.inj ok).symm
      · rw [if_neg all] at ok ⊢
        exact (Except.ok.inj ok).symm

theorem State.barQuorum_lt (s : State) (pa : Nat) : s.barQuorum pa < 2 ^ 15 := Nat.mod_lt _ (by decide)

@[simp] theorem State.note_mem (s : State) (k : OrderStep) (pas : List Nat) : (s.note k pas).mem = s.mem := rfl
@[simp] theorem State.note_barRanges (s : State) (k : OrderStep) (pas : List Nat) : (s.note k pas).barRanges = s.barRanges := rfl
@[simp] theorem State.note_barFlipped (s : State) (k : OrderStep) (pas : List Nat) : (s.note k pas).barFlipped = s.barFlipped := rfl

theorem State.barFlip_barRanges : mapGet (s.barFlip pa u).barRanges pa = none := by simp [State.barFlip, mapGet_mapErase]

theorem State.barFlip_barFlipped : mapGet (s.barFlip pa u).barFlipped pa = some (s.barCovered pa u) := by simp [State.barFlip]

theorem State.barAdd_barRanges : mapGet (s.barAdd pa u).barRanges pa = some (s.barCovered pa u) := by simp [State.barAdd]

theorem State.barFlip_mem : (s.barFlip pa u).mem =
    (s.barWrite pa 0 ((1 - s.mem.num (pa + 8) 8 / 2 ^ 63) * 2 ^ 63 + s.barQuorum pa * 2 ^ 48)).mem := by
  simp [State.barFlip]

theorem State.barAdd_mem : (s.barAdd pa u).mem = (s.barWrite pa (s.barArrivals pa u * 2 ^ 48 + s.barBytes pa u)
    (s.mem.num (pa + 8) 8 / 2 ^ 63 * 2 ^ 63 + s.barQuorum pa * 2 ^ 48 + s.barExpected pa u)).mem := by
  simp [State.barAdd]

section
variable (free : ∀ i, i < 16 → s.woBound (pa + i) = false)
include free

theorem State.barWrite_mem (lo hi : Nat) : (s.barWrite pa lo hi).mem = s.mem.write pa (toBytes lo 8 ++ toBytes hi 8) := by
  rw [State.barWrite, State.writeM_unbound (by simpa using free)]

variable (canon : Memory.wf s.mem = true)
include canon

theorem State.barWrite_num {lo hi : Nat} (hlo : lo < 2 ^ 64) (hhi : hi < 2 ^ 64) :
    (s.barWrite pa lo hi).mem.num pa 8 = lo ∧ (s.barWrite pa lo hi).mem.num (pa + 8) 8 = hi := by
  rw [State.barWrite_mem free]
  exact Memory.num_write_pair _ _ canon hlo hhi

theorem State.barWrite_get (lo hi : Nat) {x : Nat} (outside : x < pa ∨ pa + 16 ≤ x) :
    (s.barWrite pa lo hi).mem.get x = s.mem.get x := by
  rw [State.barWrite_mem free]
  exact Memory.get_write_outside _ _ _ _ canon (by simpa using outside)

theorem State.barFlip_num : (s.barFlip pa u).mem.num pa 8 = 0 ∧
    (s.barFlip pa u).mem.num (pa + 8) 8 = (1 - s.mem.num (pa + 8) 8 / 2 ^ 63) * 2 ^ 63 + s.barQuorum pa * 2 ^ 48 := by
  have quorum := s.barQuorum_lt pa
  rw [State.barFlip_mem]
  exact State.barWrite_num free canon (by decide) (by omega)

theorem State.barAdd_num (arrivals : s.barArrivals pa u ≤ s.barQuorum pa) (bytes : s.barBytes pa u < 2 ^ 48)
    (expected : s.barExpected pa u < 2 ^ 48) :
    (s.barAdd pa u).mem.num pa 8 = s.barArrivals pa u * 2 ^ 48 + s.barBytes pa u ∧
    (s.barAdd pa u).mem.num (pa + 8) 8 =
      s.mem.num (pa + 8) 8 / 2 ^ 63 * 2 ^ 63 + s.barQuorum pa * 2 ^ 48 + s.barExpected pa u := by
  have quorum := s.barQuorum_lt pa
  have word : s.mem.num (pa + 8) 8 < 2 ^ 64 := s.mem.num_lt (pa + 8) 8
  rw [State.barAdd_mem]
  exact State.barWrite_num free canon (by omega) (by omega)

theorem State.barFlip_get {x : Nat} (outside : x < pa ∨ pa + 16 ≤ x) : (s.barFlip pa u).mem.get x = s.mem.get x := by
  rw [State.barFlip_mem]
  exact State.barWrite_get free canon _ _ outside

theorem State.barAdd_get {x : Nat} (outside : x < pa ∨ pa + 16 ≤ x) : (s.barAdd pa u).mem.get x = s.mem.get x := by
  rw [State.barAdd_mem]
  exact State.barWrite_get free canon _ _ outside

end

end

/-! ### Phase buffers -/

@[simp] theorem lastEntry_concat (pb : List PbEntry) (e : PbEntry) (a : Nat) :
    lastEntry (pb ++ [e]) a = if e.addr = a then some e.byte else lastEntry pb a := by
  simp [lastEntry, List.foldl_append]

/-- An address with a latest entry has an entry. -/
theorem exists_of_lastEntry {pb : List PbEntry} {a : Nat} {b : Byte} (h : lastEntry pb a = some b) : ∃ e ∈ pb, e.addr = a := by
  induction pb using List.reverseRecOn with
  | nil => cases h
  | append_singleton r e ih =>
    by_cases here : e.addr = a
    · exact ⟨e, by simp, here⟩
    · rw [lastEntry_concat, if_neg here] at h
      obtain ⟨x, hx, at'⟩ := ih h
      exact ⟨x, by simp [hx], at'⟩

/-- Of the entries of the addresses that p picks, the latest for an address is the buffer's, or none where p does not pick it. -/
theorem lastEntry_filter (pb : List PbEntry) (p : Nat → Bool) (a : Nat) :
    lastEntry (pb.filter fun e => p e.addr) a = if p a then lastEntry pb a else none := by
  induction pb using List.reverseRecOn with
  | nil => simp [lastEntry]
  | append_singleton r e ih =>
    rw [List.filter_append, lastEntry_concat]
    by_cases here : e.addr = a
    · subst here
      cases picks : p e.addr <;> simp [picks, ih]
    · cases picks : p e.addr <;> simp [picks, ih, here]

/-- Every entry belongs to a store before the next. -/
theorem store_lt_nextStore {pb : List PbEntry} {e : PbEntry} (h : e ∈ pb) : e.store < nextStore pb := by
  induction pb using List.reverseRecOn with
  | nil => cases h
  | append_singleton r x ih =>
    have next : nextStore (r ++ [x]) = max (nextStore r) (x.store + 1) := by simp [nextStore, List.foldl_append]
    rcases List.mem_append.1 h with earlier | last
    · have := ih earlier
      omega
    · have := List.mem_singleton.1 last
      subst this
      omega

/-- In a list that rises by a key, the elements with a key below n and then those with key n are those with a key up to n. -/
theorem filter_lt_append_filter_eq {α : Type} (key : α → Nat) (n : Nat) {l : List α} (rising : l.Pairwise fun x y => key x ≤ key y) :
    (l.filter fun x => key x < n) ++ (l.filter fun x => key x = n) = l.filter fun x => key x ≤ n := by
  induction l with
  | nil => rfl
  | cons x r ih =>
    obtain ⟨first, rest⟩ := List.pairwise_cons.1 rising
    rcases Nat.lt_trichotomy (key x) n with below | same | above
    · simp [below, Nat.ne_of_lt below, Nat.le_of_lt below, ih rest]
    · have none : (r.filter fun y => key y < n) = [] :=
        List.filter_eq_nil_iff.2 fun y hy => by have := first y hy; simp; omega
      have tail := ih rest
      rw [none, List.nil_append] at tail
      simp [same, none, tail]
    · simp [Nat.not_lt_of_lt above, Nat.ne_of_gt above, Nat.not_le_of_lt above, ih rest]

/-- A list that rises by a key below n is its elements with key 0, then those with key 1, and so on. -/
theorem flatten_filter_eq {α : Type} (key : α → Nat) (n : Nat) {l : List α} (rising : l.Pairwise fun x y => key x ≤ key y) :
    ((List.range n).map fun k => l.filter fun x => key x = k).flatten = l.filter fun x => key x < n := by
  induction n with
  | zero => simp
  | succ n ih =>
    rw [List.range_succ, List.map_append, List.flatten_append, ih]
    simpa [Nat.lt_succ_iff] using filter_lt_append_filter_eq key n rising

/-- A buffer whose stores rise drains its picked entries in their own order (R227). -/
theorem flatten_storesOf {pb : List PbEntry} (p : Nat → Bool) (rising : pb.Pairwise fun x y => x.store ≤ y.store) :
    (storesOf pb p).flatten = (pb.filter fun e => p e.addr).map fun e => (e.addr, e.byte) := by
  have all : (pb.filter fun e => p e.addr).filter (fun e => e.store < nextStore pb) = pb.filter fun e => p e.addr :=
    List.filter_eq_self.2 fun e he => by simpa using store_lt_nextStore (List.mem_of_mem_filter he)
  have stores := flatten_filter_eq PbEntry.store (nextStore pb) (rising.filter fun e => p e.addr)
  rw [all] at stores
  rw [← stores, List.map_flatten, List.map_map, storesOf]
  simp [Function.comp_def, List.filter_filter]

/-! ### Drains and refreshes (R227, R229) -/

/-- A byte of M after entries were written in order: the latest of its entries, or what it was. -/
theorem Memory.get_foldl_entries (es : List PbEntry) {m : Memory} (x : Nat) (h : Memory.wf m = true) :
    (Memory.get ((es.map fun e => (e.addr, e.byte)).foldl (fun m c => m.set c.1 c.2) m) x) = (lastEntry es x).getD (m.get x) := by
  induction es using List.reverseRecOn with
  | nil => rfl
  | append_singleton r e ih =>
    have canon := Memory.foldl_set_wf (r.map fun e => (e.addr, e.byte)) m h
    rw [List.map_append, List.foldl_append, lastEntry_concat]
    by_cases here : e.addr = x
    · subst here
      simpa using Memory.get_set_same _ _ _ canon
    · simpa [here, ih] using Memory.get_set_ne _ _ _ _ canon (Ne.symm here)

/-- A snapshot that takes M over entries' addresses reads as M at each of them. -/
theorem foldl_sv_get {m sv : Memory} {es : List PbEntry} {x : Nat} (h : Memory.wf sv = true) (listed : ∃ e ∈ es, e.addr = x) :
    (Memory.get (es.foldl (fun sv e => sv.set e.addr (m.get e.addr)) sv) x) = m.get x := by
  induction es using List.reverseRecOn with
  | nil => simp at listed
  | append_singleton r e ih =>
    have canon := foldl_sv_wf m r sv h
    rw [List.foldl_append]
    by_cases here : e.addr = x
    · subst here
      exact Memory.get_set_same _ _ _ canon
    · refine (Memory.get_set_ne _ _ _ _ canon (Ne.symm here)).trans (ih ?_)
      simpa [here] using listed

@[simp] theorem inScope_node (t a : Nat) : inScope t 4 a = true := rfl

@[simp] theorem drainView_pb (s : State) (who : Nat) (v : View) (p : Nat → Bool) :
    (drainView s who v p).2.pb = v.pb.filter fun e => !p e.addr := rfl

/-- Where no write-once buffer is bound, a drain leaves at each byte of M the latest picked entry for it. -/
theorem drainView_get {s : State} {v : View} (who : Nat) (p : Nat → Bool) (a : Nat) (canon : Memory.wf s.mem = true)
    (free : ∀ a, s.woBound a = false) (rising : v.pb.Pairwise fun x y => x.store ≤ y.store) :
    (drainView s who v p).1.mem.get a = (if p a then lastEntry v.pb a else none).getD (s.mem.get a) := by
  rw [← lastEntry_filter, ← Memory.get_foldl_entries _ a canon, ← flatten_storesOf p rising]
  exact congrArg (fun t : State => t.mem.get a) (State.foldl_writeCells_unbound (storesOf v.pb p) free)

/-- A drain leaves the snapshot at M over the bytes drained (R227). -/
theorem drainView_sv_get {s : State} {v : View} (who : Nat) {p : Nat → Bool} {a : Nat} {b : Byte} (canon : Memory.wf v.sv = true)
    (picked : p a = true) (held : lastEntry v.pb a = some b) :
    (drainView s who v p).2.sv.get a = (drainView s who v p).1.mem.get a := by
  obtain ⟨e, he, rfl⟩ := exists_of_lastEntry held
  exact foldl_sv_get canon ⟨e, List.mem_filter.2 ⟨he, picked⟩, rfl⟩

@[simp] theorem State.drainCore_mem (s : State) (t scope : Nat) :
    (s.drainCore t scope).mem = (drainView s (coreAgent t) (s.coreOf t).view (inScope t scope)).1.mem := rfl

@[simp] theorem State.drainCore_view (s : State) (t scope : Nat) :
    ((s.drainCore t scope).coreOf t).view = (drainView s (coreAgent t) (s.coreOf t).view (inScope t scope)).2 := by
  simp [State.drainCore]

@[simp] theorem State.refreshCore_view_node (s : State) (t : Nat) :
    ((s.refreshCore t 4).coreOf t).view = refreshNode s.mem (s.coreOf t).view := by
  simp [State.refreshCore]

/-- A view reads the entry that its buffer holds for an address. -/
theorem State.viewByte_held {s : State} {v : View} {a : Nat} {b : Byte} (held : lastEntry v.pb a = some b) : s.viewByte v a = b := by
  rw [State.viewByte, held]

/-- A view that buffers nothing for an address and whose snapshot agrees with M there reads M. -/
theorem State.viewByte_mem {s : State} {v : View} {a : Nat} (empty : lastEntry v.pb a = none) (same : v.sv.get a = s.mem.get a) :
    s.viewByte v a = s.mem.get a := by
  rw [State.viewByte, empty]
  exact (congrArg _ same).trans (ite_self _)

theorem State.drainCore_node_pb (s : State) (t : Nat) : ((s.drainCore t 4).coreOf t).view.pb = [] := by simp

/-- What a core sees of its own buffered store its drain does not change: it stays in the buffer, or stands in M and in the
snapshot. -/
theorem State.drainCore_viewByte {s : State} {t a : Nat} {b : Byte} (scope : Nat) (canon : Memory.wf s.mem = true)
    (snapshot : Memory.wf (s.coreOf t).view.sv = true) (free : ∀ a, s.woBound a = false)
    (held : lastEntry (s.coreOf t).view.pb a = some b)
    (rising : (s.coreOf t).view.pb.Pairwise fun x y => x.store ≤ y.store) :
    (s.drainCore t scope).viewByte ((s.drainCore t scope).coreOf t).view a = b := by
  have left := lastEntry_filter (s.coreOf t).view.pb (fun a => !inScope t scope a) a
  rw [State.drainCore_view]
  cases picked : inScope t scope a with
  | true =>
    have empty : lastEntry ((s.coreOf t).view.pb.filter fun e => !inScope t scope e.addr) a = none := by simpa [picked] using left
    refine (State.viewByte_mem (s := s.drainCore t scope) empty (drainView_sv_get (coreAgent t) snapshot picked held)).trans ?_
    rw [State.drainCore_mem, drainView_get _ _ _ canon free rising, if_pos picked, held, Option.getD_some]
  | false => exact State.viewByte_held (by simpa [picked, held] using left)

/-! ### Links under writes and drains -/

@[simp] theorem State.woMark_links (s : State) (a : Nat) : (s.woMark a).links = s.links := by
  unfold State.woMark
  split
  · rfl
  · simp only []
    repeat' split
    all_goals rfl

@[simp] theorem State.writeCells_links (s : State) (cells : List Host.Cell) : (s.writeCells cells).links = s.links :=
  List.foldlRecOn (motive := fun (t : State) => t.links = s.links) _ _ rfl fun t h c _ => (t.woMark_links c.1).trans h

@[simp] theorem State.drainCore_links (s : State) (t scope : Nat) : (s.drainCore t scope).links = s.links :=
  List.foldlRecOn (motive := fun (t : State) => t.links = s.links) _ _ rfl fun t h cells _ => (t.writeCells_links cells).trans h

theorem State.noPath_congr {s t : State} (same : t.links = s.links) (a b : Nat) : t.noPath a b = s.noPath a b := by
  have down : t.downLinks = s.downLinks := by rw [State.downLinks, State.downLinks, same]
  rw [State.noPath, State.noPath, down]

/-- A release cuts no path. -/
theorem State.released_noPath (s : State) (order a b : Nat) : (released s order).noPath a b = s.noPath a b := by
  refine State.noPath_congr ?_ a b
  rw [released]
  split
  · exact s.drainCore_links _ _
  · rfl

/-! ### Barrier instructions (R234, R239 to R241) -/

theorem toInt_imm16 (v : BitVec 16) : (imm16 false v).toInt = v.toInt := by simp [imm16, BitVec.toInt_signExtend_of_le]

theorem toNat_imm16 {v : BitVec 16} (nonneg : 0 ≤ v.toInt) : (imm16 false v).toNat = v.toNat := by
  have positive : v.msb = false := by simpa [BitVec.msb_eq_toInt] using nonneg
  rw [imm16, if_neg (by decide), BitVec.signExtend_eq_setWidth_of_msb_false positive, BitVec.toNat_setWidth]
  exact Nat.mod_eq_of_lt (by omega)

section
variable {s t : State} {a : Dword} (ok : BarrierOk s a)
include ok

theorem State.barrierChecks_pass : ∀ c ∈ s.barrierChecks s.core a, c.1 = false := by
  obtain ⟨aligned, own, area⟩ := ok
  have beyond : s.core.m = 0 → supervisorArea ≤ a.toNat % 2 ^ 22 := area
  simpa [State.barrierChecks, Core.user, aligned, own] using beyond

variable (near : BarrierNear s a)
include near

/-- An arrival or an expectation whose update succeeds completes, with the phase before it in g[d]. -/
theorem barrierAct_ok {order arrivals : Nat} {de : Dword} (d : BitVec 5) (len : Nat) (nonneg : 0 ≤ de.toInt)
    (update : (released s order).barrierUpdate (barrierPa a)
      { bytes := 0, expect := de.toNat, arrivals := arrivals, ranges := [] } = .ok t) :
    barrierAct d order arrivals a de len s =
      done t (t.core.setReg d (if (released s order).barrierPhase (barrierPa a) then 1 else 0)) len := by
  have pass : ∀ c ∈ s.barrierChecks s.core a ++ [(decide (de.toInt < 0), 0x2A, a)], c.1 = false := by
    simpa [or_imp, forall_and, nonneg] using State.barrierChecks_pass ok
  have path : (released s order).noPath (deviceOf s.cur) (paDevice (barrierPa a)) = false := (s.released_noPath order _ _).trans near
  have reaches : (s.drainIf order).updateBarrier (deviceOf s.cur) a { bytes := 0, expect := de.toNat, arrivals := arrivals, ranges := [] }
      = .ok t := (if_neg (Bool.eq_false_iff.1 path)).trans update
  refine (checks_pass _ pass).trans ?_
  simp only [reaches]
  exact writeReg_eq _ _ _ _

/-- A `bwait` at a barrier that has its path goes by the barrier's phase. -/
theorem bwaitChecks_pass :
    ∀ c ∈ s.barrierChecks s.core a ++ [(s.noPath (deviceOf s.cur) (paDevice (barrierPa a)), 0x50, a)], c.1 = false := by
  simpa [or_imp, forall_and, near] using State.barrierChecks_pass ok

end

theorem execPhase_ok {s : State} {f : FormA} (holds : Holds s f.gn f.guard) (ready : f.sub = 4 → s.biasWaits s.cur = false) :
    execPhase f s = done (s.boundary s.cur f.sub.toNat) (s.boundary s.cur f.sub.toNat).core lenA := by
  have goes : (decide (f.sub = 4) && s.biasWaits s.cur) = false := by
    by_cases node : f.sub = 4
    · rw [ready node, Bool.and_false]
    · rw [decide_eq_false node, Bool.false_and]
  exact (guarded_true _ _ holds).trans (if_neg (Bool.eq_false_iff.1 goes))

/-- An expectation writes no register: its destination is g0. -/
theorem barrierAct_expects {s t : State} {a de : Dword} (ok : BarrierOk s a) (near : BarrierNear s a) (len : Nat)
    (nonneg : 0 ≤ de.toInt)
    (update : s.barrierUpdate (barrierPa a) { bytes := 0, expect := de.toNat, arrivals := 0, ranges := [] } = .ok t) :
    barrierAct 0 0 0 a de len s = done t t.core len :=
  (barrierAct_ok ok near 0 len nonneg (order := 0) update).trans (congrArg (fun c => done t c len) (Core.setReg_zero _ _))

section
variable {s : State} {f : FormA} (holds : Holds s f.gn f.guard) (ok : BarrierOk s (s.core.reg f.a)) (near : BarrierNear s (s.core.reg f.a))
include holds ok near

theorem execBwait_eq : execBwait f s =
    if s.barrierPhase (barrierPa (s.core.reg f.a)) ≠ (s.core.reg f.b).getLsbD 0 then
      finish (s.observe (barrierPa (s.core.reg f.a)) (acquires f.sub.toNat)) lenA
    else wait s (.bwait (s.core.reg f.a) ((s.core.reg f.b).getLsbD 0) (acquires f.sub.toNat)) :=
  (guarded_true _ _ holds).trans (checks_pass _ (bwaitChecks_pass ok near))

end

/-- A waiting `bwait` observes the flip of a barrier that has its path. -/
theorem execBwaitObserve_flipped {s : State} {t : Nat} {a : Dword} {parity acq : Bool} (waits : Waits s t (.bwait a parity acq))
    (near : s.noPath (deviceOf t) (paDevice (barrierPa a)) = false) (flipped : s.barrierPhase (barrierPa a) ≠ parity) :
    execBwaitObserve t s = .next ((({ s with cur := t } : State).observe (barrierPa a) acq).resumed lenA) := by
  simp only [execBwaitObserve, State.waitOf_some.2 waits, near, Bool.false_eq_true, if_false, if_pos flipped]

end Sys2Proof.Machine

namespace Sys2Proof.Proofs

open Sys2Proof.Machine Sys2Proof.Rules

/-- Settles O17: an update is `barFlip` where all is in and `barAdd` before, and each writes the barrier's two words. -/
theorem barrierUpdate : Obligations.BarrierUpdate := by
  unfold Obligations.BarrierUpdate
  refine ⟨fun s pa u => ⟨State.barrierUpdate_unset, fun expects bytes expected => ⟨?overrun, ?flip, ?add⟩⟩,
    fun s t pa u canon free ok => ?bytes⟩
  case overrun => exact State.barrierUpdate_overrun expects bytes expected
  case flip =>
    exact fun arrived complete => ⟨_, State.barrierUpdate_flips expects bytes expected arrived complete, State.barFlip_barRanges,
      State.barFlip_barFlipped⟩
  case add => exact fun more => ⟨_, State.barrierUpdate_adds expects bytes expected more, State.barAdd_barRanges⟩
  case bytes =>
    obtain ⟨arrivals, bytes, expected, rfl⟩ := State.barrierUpdate_ok ok
    by_cases all : s.barArrivals pa u = s.barQuorum pa ∧ s.barBytes pa u = s.barExpected pa u
    · rw [if_pos all]
      exact ⟨(if_pos all).mpr (State.barFlip_num free canon), fun x => State.barFlip_get free canon⟩
    · rw [if_neg all]
      exact ⟨(if_neg all).mpr (State.barAdd_num free canon arrivals bytes expected), fun x => State.barAdd_get free canon⟩

/-- Settles O18: a node-scope drain picks every entry, and the entries that a drain picks stand in M and in the snapshot. -/
theorem drainAndRefresh : Obligations.DrainAndRefresh := by
  unfold Obligations.DrainAndRefresh
  refine ⟨fun s t a => ⟨s.drainCore_node_pb t, ?snapshot, ?boundary⟩, fun s t scope a b canon snapshot none held rising => ?own⟩
  case snapshot => rw [State.refreshCore_view_node, refreshNode]
  case boundary =>
    intro u
    have view : (u.coreOf t).view = refreshNode u.mem ((s.drainCore t 4).coreOf t).view := State.refreshCore_view_node _ t
    rw [view]
    exact State.viewByte_mem (by rw [refreshNode, s.drainCore_node_pb t]; rfl) rfl
  case own => exact State.drainCore_viewByte scope canon snapshot (State.woBound_none none) held rising

/-- Settles O16: each instruction goes on where its guard holds and its checks pass. -/
theorem barrierInstructions : Obligations.BarrierInstructions := by
  unfold Obligations.BarrierInstructions
  refine ⟨fun s f holds ready => ?phase, fun s t f holds ok near nonneg => ⟨fun update => ?barvA, fun update => ?bexpA⟩,
    fun s t f holds ok near nonneg => ⟨fun update => ?barvB, fun update => ?bexpB⟩,
    fun s f holds ok near => ⟨fun flipped => ?observes, fun same => ?waits⟩, fun s t a parity acq waits near flipped => ?resumes⟩
  case phase =>
    show execPhase f s = _
    exact execPhase_ok holds ready
  case barvA =>
    show execBarvA f s = _
    exact (guarded_true _ _ holds).trans (barrierAct_ok ok near f.d lenA nonneg update)
  case bexpA =>
    show execBexpA f s = _
    exact (guarded_true _ _ holds).trans (barrierAct_expects ok near lenA nonneg update)
  case barvB =>
    show execBarvB f s = _
    rw [← toNat_imm16 nonneg] at update
    rw [← toInt_imm16] at nonneg
    exact (guarded_true _ _ holds).trans (barrierAct_ok ok near f.d lenB nonneg update)
  case bexpB =>
    show execBexpB f s = _
    rw [← toNat_imm16 nonneg] at update
    rw [← toInt_imm16] at nonneg
    exact (guarded_true _ _ holds).trans (barrierAct_expects ok near lenB nonneg update)
  case observes =>
    show execBwait f s = _
    exact (execBwait_eq holds ok near).trans (if_pos flipped)
  case waits =>
    show execBwait f s = _
    exact (execBwait_eq holds ok near).trans (if_neg (not_not.2 same))
  case resumes =>
    show execBwaitObserve t s = _
    exact execBwaitObserve_flipped waits near flipped

end Sys2Proof.Proofs

/-! Proofs about engines of a die: the walker's acts and the tasks of a SPAWN (R282 to R291), the submission of a graph and its
signals (R280, R286), the deque (R278), the layout instructions (R268 to R271) and the matrix array (R261 to R267). -/

namespace Sys2Proof.Machine

open Sys2Proof.Rules

/-! ### The acts of a walker (R282, R283, R287) -/

/-- The context with node i taken off its ready list and running. -/
def State.takeNode (t : State) (c i : Nat) : State :=
  t.setCtx c { t.ctx c with ready := (t.ctx c).ready.filter (· ≠ i), nodes := mapSet (t.ctx c).nodes i .running }

section
variable {s t u v : State} {c i r : Nat}

/-- A context whose submission is over runs the node that it picks. -/
theorem exec_graphNodeRun_picks (may : s.ctxMay c = true) (free : (s.ctx c).free actRun = true)
    (submitted : (s.ctx c).n ≤ (s.ctx c).started) (picks : State.pickNode c (s.ctx c).ready s = .ok (t, some (i, r))) :
    exec (.graphNodeRun c) s = .next (walkerEnd s c actRun (t.runNode c i r)) := by
  show execGraphNodeRun c s = _
  simp only [execGraphNodeRun, may, free, Nat.not_lt.2 submitted, picks, Bool.not_true, Bool.or_self, Bool.false_eq_true, if_false]

/-- A running node whose work is over takes its successors, and the act ends (R283). -/
theorem exec_graphNodeFinish_over (may : s.ctxMay c = true) (free : (s.ctx c).free (actFinish i) = true)
    (runs : (s.ctx c).node i = .running) (reads : s.readNode c i = .ok (t, r)) (finished : t.nodeOver c i r = some (.ok u))
    (ends : u.finishNode c i r [0, 1, 2, 3] = .ok v) : exec (.graphNodeFinish c i) s = .next (v.endAct c) := by
  show execGraphNodeFinish c i s = _
  simp only [execGraphNodeFinish, may, free, runs, reads, finished, ends, walkerEnd, ne_eq, not_true_eq_false, decide_false, Bool.not_true,
    Bool.or_self, Bool.false_eq_true, if_false]

/-- The task scheduler reads the vector of a SPAWN that has not been read. -/
theorem exec_spawnRead_reads (may : s.ctxMay c = true) (free : (s.ctx c).free (actSpawn i) = true) (runs : (s.ctx c).node i = .running)
    (unread : mapGet (s.ctx c).spawns i = none) (reads : s.readNode c i = .ok (t, r)) (kind : nodeKind r = kSpawn)
    (tasks : t.readSpawn c i r = .ok u) : exec (.spawnRead c i) s = .next (u.endAct c) := by
  show execSpawnRead c i s = _
  simp only [execSpawnRead, may, free, runs, unread, reads, kind, tasks, walkerEnd, ne_eq, not_true_eq_false, decide_false, Bool.not_true,
    Option.isSome_none, Bool.or_self, Bool.false_eq_true, if_false, if_true]

/-! A node that passes its checks acts by its kind (R282). -/

section
variable (good : t.nodeBad c r = false)
include good

theorem State.runNode_wait (kind : nodeKind r = kWait) : t.runNode c i r = .ok (t.takeNode c i) := by
  simp [State.runNode, good, kind, kWait, kCopy, kLayout, kRegion, kSpawn, kCond, kLoop, kSignal, State.takeNode]

theorem State.runNode_spawn (kind : nodeKind r = kSpawn) : t.runNode c i r =
    .ok ((t.takeNode c i).setCtx c { (t.takeNode c i).ctx c with spawns := mapErase (t.ctx c).spawns i }) := by
  simp [State.runNode, good, kind, kCopy, kLayout, kRegion, kSpawn, State.takeNode]

theorem State.runNode_command {x : Cmd} (kind : nodeKind r = kCopy ∨ nodeKind r = kLayout)
    (command : (t.takeNode c i).nodeCommand (t.ctx c) r = some x) :
    t.runNode c i r = .ok ((t.takeNode c i).addNodeCmd c i x .queued 0) := by
  have image : decide (nodeKind r = kCopy) || decide (nodeKind r = kLayout) := by simpa using kind
  simp only [State.runNode, good, image, Bool.false_eq_true, if_false, if_true]
  simp only [State.takeNode] at command
  simp only [command, State.takeNode]

theorem State.runNode_tier (kind : nodeKind r = kTier) : t.runNode c i r =
    .ok ((t.takeNode c i).addNodeCmd c i (tierCmd (t.ctx c) r) .running (dieOf (t.ctx c).home * 16 + 10)) := by
  simp [State.runNode, good, kind, kWait, kCopy, kLayout, kRegion, kSpawn, kCond, kLoop, kSignal, kHost, kTier, State.takeNode]

theorem State.runNode_cond {b : Bool} (kind : nodeKind r = kCond) (test : (t.takeNode c i).predicate c i r = .ok (u, b)) :
    t.runNode c i r = u.finishNode c i r (if b then [0, 1] else [2, 3]) := by
  simp only [State.takeNode] at test
  simp only [State.runNode, good, kind, kCopy, kLayout, kRegion, kSpawn, kCond, Nat.reduceEqDiff, decide_false, Bool.or_self,
    Bool.false_eq_true, if_false, if_true, test]

end

/-- A context that is gone has no act to end. -/
theorem State.endAct_freeCtx (s : State) (c : Nat) : (s.freeCtx c).endAct c = s.freeCtx c := by
  have gone : mapGet (s.freeCtx c).contexts c = none := mapGet_mapErase s.contexts c
  simp only [State.endAct, gone]

/-- An END node acts where it is alone on the ready list and no node runs (R283). -/
theorem exec_endNode_ends (may : s.ctxMay c = true) (free : (s.ctx c).free actEnd = true) (alone : (s.ctx c).ready = [i])
    (still : ∀ x ∈ (s.ctx c).nodes, x.2 ≠ .running) (reads : s.readNode c i = .ok (t, r)) (kind : nodeKind r = kEnd)
    (good : t.nodeBad c r = false) (writes : t.walkerWrite c i (bits r 191 128) 8 (bits r 255 192) = .ok u) :
    exec (.endNode c) s =
      .next ((if bits r 256 256 = 1 then u.post (s.ctx c).home 0x30 (c % 64) i else u).freeCtx c) := by
  have idle : (s.ctx c).nodes.any (fun x => x.2 = .running) = false := by simpa using fun a b h => still (a, b) h
  show execEndNode c s = _
  simp only [execEndNode, alone, may, free, idle, reads, kind, good, writes, walkerEnd, ne_eq, not_true_eq_false, Bool.not_true,
    Bool.or_self, Bool.false_eq_true, if_false, State.endAct_freeCtx]

/-- A stopped context with nothing left is freed (R287). -/
theorem exec_contextFree_frees {g : GraphCtx} (stands : mapGet s.contexts c = some g) (stopped : g.stopped.isSome = true)
    (may : s.mayRun (c / 128) g.fn = true) (completed : ∀ x ∈ s.cmds, x.2.stage = .done ∨ ∀ j, x.2.graph ≠ some (c, j))
    (regions : ∀ x ∈ g.regions, x.2 ≠ .live) : exec (.contextFree c) s = .next (s.freeCtx c) := by
  have gone : g.regions.all (fun r => decide (r.2 ≠ .live)) = true := by simpa using fun a b h => regions (a, b) h
  show execContextFree c s = _
  simp only [execContextFree, stands, stopped, may, gone, Bool.true_and, Bool.and_true]
  refine if_pos (List.all_eq_true.2 fun x mem => ?_)
  rcases completed x mem with done | other
  · simp [done]
  · match graph : x.2.graph with
    | none => simp
    | some (d, j) =>
      have elsewhere : d ≠ c := fun here => other j (here ▸ graph)
      simp [elsewhere]

/-- The scheduler pushes the next task onto the deque with the fewest records (R291). -/
theorem exec_spawnTaskPush_pushes {x : Spawn} {k : List Byte} {rest : List (List Byte)} {d : Nat} (lives : s.ctxLives c = true)
    (spawn : mapGet (s.ctx c).spawns i = some x) (tasks : x.tasks = k :: rest) (least : s.leastLoaded (s.taskTiles (s.ctx c)) = some d)
    (room : (s.coreOf d).deque.length < 256) :
    exec (.spawnTaskPush c i) s = .next ((s.setCore d { s.coreOf d with deque := (s.coreOf d).deque ++ [k] }).setCtx c
      { s.ctx c with spawns := mapSet (s.ctx c).spawns i { x with tasks := rest } }) := by
  show execSpawnTaskPush c i s = _
  simp only [execSpawnTaskPush, lives, spawn, tasks, least, room, Bool.not_true, Bool.false_eq_true, if_false, if_true]

end

/-! ### The tasks of a group (R289) -/

theorem groupTasks_length (r handle group lo hi : Nat) :
    (groupTasks r handle group lo hi).length = (hi - lo + bits r 255 240 - 1) / bits r 255 240 := by
  simp [groupTasks]

/-- Every piece of a range of n starts inside the range. -/
theorem piece_start_lt {n t j : Nat} (pos : 0 < t) (h : j < (n + t - 1) / t) : t * j < n := by
  have : (j + 1) * t ≤ n + t - 1 := (Nat.le_div_iff_mul_le pos).1 h
  have : (j + 1) * t = t * j + t := by ring
  omega

/-- The last piece of a range of n comes to the range's end. -/
theorem piece_end_ge {n t j : Nat} (pos : 0 < t) (h : j + 1 = (n + t - 1) / t) : n ≤ t * j + t := by
  have : n + t - 1 < (j + 1 + 1) * t := (Nat.div_lt_iff_lt_mul pos).1 (by omega)
  have : (j + 1 + 1) * t = t * j + t + t := by ring
  omega

theorem groupTasks_getElem? {r handle group lo hi j : Nat} (h : j < (hi - lo + bits r 255 240 - 1) / bits r 255 240) :
    (groupTasks r handle group lo hi)[j]? = some
      (taskRecord r handle group (lo + bits r 255 240 * j) (min (bits r 255 240) (hi - (lo + bits r 255 240 * j)))) := by
  simp [groupTasks, h, Nat.sub_add_eq]

/-! ### Submission of a graph (R280) -/

section
variable {s : State} {i : Instr} {a d : BitVec 5} {n : Dword} {len : Nat}

theorem exec_gnode
    (form : (∃ f : FormA, i = .gnodeA f ∧ Holds s f.gn f.guard ∧ a = f.a ∧ d = f.d ∧ n = s.core.reg f.b ∧ len = 4) ∨
      (∃ f : FormB, i = .gnodeB f ∧ Holds s f.gn f.guard ∧ a = f.a ∧ d = f.d ∧ n = f.imm16.signExtend 64 ∧ len = 8)) :
    exec i s = graphSubmit d a n len s := by
  rcases form with ⟨f, rfl, holds, rfl, rfl, rfl, rfl⟩ | ⟨f, rfl, holds, rfl, rfl, rfl, rfl⟩
  · show execGnodeA f s = _
    exact guarded_true _ _ holds
  · show execGnodeB f s = _
    exact guarded_true _ _ holds

theorem graphVaFault_none {va : Dword} (aligned : va.toNat % 64 = 0) (below : va.toNat < 2 ^ 52) : graphVaFault va = none := by
  simp only [graphVaFault, aligned, ne_eq, not_true_eq_false, if_false, ge_iff_le, Nat.not_le.2 below]

/-- A count from 1 to m is in its range. -/
theorem count_inRange {m : Int} (least : 1 ≤ n.toInt) (most : n.toInt ≤ m) :
    ¬ (decide (n.toInt < 1) || decide (n.toInt > m)) = true := by
  simp [Int.not_lt.2 least, Int.not_lt.2 most]

/-! A submission that passes its checks gives the number of the context that it takes, or all ones. -/

section
variable {t : State} (aligned : (s.core.reg a).toNat % 64 = 0) (below : (s.core.reg a).toNat < 2 ^ 52) (least : 1 ≤ n.toInt)
  (most : n.toInt ≤ 65535)
include aligned below least most

theorem graphSubmit_full (full : s.takeCtx (fnOf s.core.fn) s.cur (s.core.reg a).toNat n.toNat s.core.user = (t, none)) :
    graphSubmit d a n len s = writeReg t d (-1) len := by
  simp only [graphSubmit, graphVaFault_none aligned below, if_neg (count_inRange least most), full]

theorem graphSubmit_takes {k : Nat}
    (taken : s.takeCtx (fnOf s.core.fn) s.cur (s.core.reg a).toNat n.toNat s.core.user = (t, some k)) :
    graphSubmit d a n len s = writeReg t d (BitVec.ofNat 64 k) len := by
  simp only [graphSubmit, graphVaFault_none aligned below, if_neg (count_inRange least most), taken]

end

end

theorem State.mem_freeCtxs {s : State} {gdie k : Nat} : k ∈ s.freeCtxs gdie ↔ k < 64 ∧ mapGet s.contexts (gdie * 64 + k) = none := by
  simp [State.freeCtxs]

section
variable {s : State} {fn home va n : Nat} {user : Bool}

/-- No context is taken where each of the die's stands. -/
theorem State.takeCtx_full (full : ∀ k, k < 64 → (mapGet s.contexts (dieOf home * 64 + k)).isSome = true) :
    s.takeCtx fn home va n user = (s, none) := by
  have noneFree : s.freeCtxs (dieOf home) = [] := by
    refine List.eq_nil_iff_forall_not_mem.2 fun k mem => ?_
    obtain ⟨small, free⟩ := State.mem_freeCtxs.1 mem
    exact absurd (full k small) (by rw [free]; exact Bool.false_ne_true)
  simp only [State.takeCtx, noneFree]

/-- The context that is taken is a free one of the die (log entry 2). -/
theorem State.takeCtx_free (free : ∃ k, k < 64 ∧ mapGet s.contexts (dieOf home * 64 + k) = none) :
    ∃ k, k < 64 ∧ mapGet s.contexts (dieOf home * 64 + k) = none ∧ s.takeCtx fn home va n user =
      (({ s with tick := s.tick + 1 } : State).setCtx (dieOf home * 64 + k)
        { fn := fn, user := user, home := home, va := va, n := n, started := 0, kinds := [], nodes := [], ready := []
          stopped := none, regions := [], spawns := [], received := [], flags := 0, age := Age.reset, act := 0, trail := []
          passed := 0 }, some k) := by
  obtain ⟨j, hj⟩ := free
  obtain ⟨x, xs, list⟩ := List.exists_cons_of_ne_nil (List.ne_nil_of_mem (State.mem_freeCtxs.2 hj))
  have inside : (Config.freeDword s.tick).toNat % (x :: xs).length < (x :: xs).length := Nat.mod_lt _ (Nat.succ_pos _)
  have mem : (x :: xs)[(Config.freeDword s.tick).toNat % (x :: xs).length] ∈ s.freeCtxs (dieOf home) := by
    rw [list]
    exact List.getElem_mem inside
  obtain ⟨small, unused⟩ := State.mem_freeCtxs.1 mem
  refine ⟨_, small, unused, ?_⟩
  simp only [State.takeCtx, list, State.free, List.getElem?_eq_getElem inside, Option.getD_some]

end

/-! ### Signals (R282, R286) -/

@[simp] theorem State.ctx_setCtx (s : State) (c : Nat) (g : GraphCtx) : (s.setCtx c g).ctx c = g := by
  simp [State.ctx, State.setCtx]

theorem toNat_ne_zero_of_toInt_pos {n : Dword} (h : 1 ≤ n.toInt) : n.toNat ≠ 0 := by
  intro zero
  have : n = 0 := BitVec.eq_of_toNat_eq zero
  rw [this] at h
  exact absurd h (by decide)

section
variable {s : State} {i : Instr} {a : BitVec 5} {h n : Dword} {len : Nat}

/-- A count and a handle that are right signal the node that the handle names. -/
theorem graphSignal_ok (least : 1 ≤ n.toInt) (most : n.toInt ≤ 32767)
    (live : s.handleOk (deviceOf s.cur) (fnOf s.core.fn) (s.core.reg a).toNat = true) : graphSignal a n len s =
      finish (s.signal (handleCtx (deviceOf s.cur) (s.core.reg a).toNat) (handleNode (s.core.reg a).toNat) n.toNat) len := by
  simp only [graphSignal, if_neg (count_inRange least most), live, Bool.not_true, Bool.false_eq_true, if_false]

theorem exec_gsig_signals
    (form : (∃ f : FormA, i = .gsigA f ∧ Holds s f.gn f.guard ∧ h = s.core.reg f.a ∧ n = 1 ∧ len = 4) ∨
      (∃ f : FormB, i = .gsigB f ∧ Holds s f.gn f.guard ∧ h = s.core.reg f.a ∧ n = f.imm16.signExtend 64 ∧ len = 8))
    (least : 1 ≤ n.toInt) (most : n.toInt ≤ 32767) (live : s.handleOk (deviceOf s.cur) (fnOf s.core.fn) h.toNat = true) :
    exec i s = finish (s.signal (handleCtx (deviceOf s.cur) h.toNat) (handleNode h.toNat) n.toNat) len := by
  rcases form with ⟨f, rfl, holds, rfl, rfl, rfl⟩ | ⟨f, rfl, holds, rfl, rfl, rfl⟩
  · show execGsigA f s = _
    exact (guarded_true _ _ holds).trans (graphSignal_ok least most live)
  · show execGsigB f s = _
    exact (guarded_true _ _ holds).trans (graphSignal_ok least most live)

end

/-- The machine with n signals more beside the record of node j. -/
def State.addSignals (s : State) (c j n : Nat) : State :=
  s.setCtx c { s.ctx c with received := mapSet (s.ctx c).received j ((s.ctx c).pending j + n) }

section
variable {s : State} {c j n : Nat}

theorem State.addSignals_pending : ((s.addSignals c j n).ctx c).pending j = (s.ctx c).pending j + n := by
  simp [State.addSignals, GraphCtx.pending]

theorem State.addSignals_nodeVa : ((s.addSignals c j n).ctx c).nodeVa j = (s.ctx c).nodeVa j := by
  simp [State.addSignals, GraphCtx.nodeVa]

theorem State.addSignals_age : ((s.addSignals c j n).ctx c).age = (s.ctx c).age := by
  simp [State.addSignals]

/-- A SPAWN that runs takes signals from those that it waits for. -/
theorem State.signal_spawn {x : Spawn} (kind : s.kindOf (s.ctx c) j = some kSpawn) (spawn : mapGet (s.ctx c).spawns j = some x)
    (enough : n ≤ x.left) (runs : (s.ctx c).node j = .running) :
    s.signal c j n = s.setCtx c { s.ctx c with spawns := mapSet (s.ctx c).spawns j { x with left := x.left - n } } := by
  simp [State.signal, kind, kSpawn, spawn, runs, Nat.not_lt.2 enough]

/-- Signals to a node that is no SPAWN stand beside its record, and go into it where submission has set the node. -/
theorem State.signal_other (other : s.kindOf (s.ctx c) j ≠ some kSpawn) :
    s.signal c j n = if j < (s.ctx c).started then (s.addSignals c j n).storeSignals c j else s.addSignals c j n := by
  have other' : s.kindOf (s.ctx c) j ≠ some 4 := other
  simp [State.signal, State.addSignals]

end

section
variable {s u v : State} {c j : Nat} {pas qas : List Nat} (pends : (s.ctx c).pending j ≠ 0) (runs : (s.ctx c).age.stopped = none)
  (reads : s.walkerReach c j 0 ((s.ctx c).nodeVa j) 64 = .ok (u, pas))
include pends runs reads

/-- Signals beyond the expected number stop the context. -/
theorem State.storeSignals_beyond (beyond : bits (u.numOf pas) 159 128 < bits (u.numOf pas) 191 160 + (s.ctx c).pending j) :
    s.storeSignals c j = u.contextFault c j 0x36 := by
  simp [State.storeSignals, pends, runs, reads, beyond]

/-- Signals up to the expected number are counted in the record. -/
theorem State.storeSignals_stores (within : bits (u.numOf pas) 191 160 + (s.ctx c).pending j ≤ bits (u.numOf pas) 159 128)
    (writes : u.walkerReach c j 1 ((s.ctx c).nodeVa j + 20) 4 = .ok (v, qas)) :
    s.storeSignals c j =
      (v.writeCells (qas.zip (toBytes (bits (u.numOf pas) 191 160 + (s.ctx c).pending j) 4))).clearPending c j := by
  simp [State.storeSignals, pends, runs, reads, Nat.not_lt.2 within, writes]

end

/-! Signals to a WAIT node that submission has set, where its record can be read, by what the record counts with them. -/

section
variable {s u v : State} {c j n : Nat} {pas qas : List Nat} (kind : s.kindOf (s.ctx c) j = some kWait) (set : j < (s.ctx c).started)
  (positive : n ≠ 0) (runs : (s.ctx c).age.stopped = none)
  (reads : (s.addSignals c j n).walkerReach c j 0 ((s.ctx c).nodeVa j) 64 = .ok (u, pas))
include kind set in
theorem State.signal_wait : s.signal c j n = (s.addSignals c j n).storeSignals c j :=
  (State.signal_other (by rw [kind]; decide)).trans (if_pos set)

include kind set positive runs reads

theorem State.signal_wait_beyond (beyond : bits (u.numOf pas) 159 128 < bits (u.numOf pas) 191 160 + (s.ctx c).pending j + n) :
    s.signal c j n = u.contextFault c j 0x36 := by
  rw [← State.addSignals_nodeVa (n := n)] at reads
  rw [Nat.add_assoc, ← State.addSignals_pending] at beyond
  rw [← State.addSignals_age (j := j) (n := n)] at runs
  rw [State.signal_wait kind set]
  exact State.storeSignals_beyond (by rw [State.addSignals_pending]; omega) runs reads beyond

theorem State.signal_wait_stores (within : bits (u.numOf pas) 191 160 + (s.ctx c).pending j + n ≤ bits (u.numOf pas) 159 128)
    (writes : u.walkerReach c j 1 ((s.ctx c).nodeVa j + 20) 4 = .ok (v, qas)) :
    s.signal c j n =
      (v.writeCells (qas.zip (toBytes (bits (u.numOf pas) 191 160 + (s.ctx c).pending j + n) 4))).clearPending c j := by
  rw [← State.addSignals_nodeVa (n := n)] at reads writes
  rw [Nat.add_assoc, ← State.addSignals_pending] at within ⊢
  rw [← State.addSignals_age (j := j) (n := n)] at runs
  rw [State.signal_wait kind set]
  exact State.storeSignals_stores (by rw [State.addSignals_pending]; omega) runs reads within writes

end

/-! A WAIT node is over exactly where its record and the signals beside it count the expected number. -/

section
variable {s t : State} {c j r : Nat} (kind : nodeKind r = kWait)
include kind

theorem State.nodeOver_wait_fewer (fewer : bits r 191 160 + (s.ctx c).pending j < bits r 159 128) : s.nodeOver c j r = none := by
  simp [State.nodeOver, kind, kWait, kCopy, kLayout, kTier, kRegion, kSpawn, Nat.lt_asymm fewer, Nat.ne_of_gt fewer]

theorem State.nodeOver_wait_beyond (beyond : bits r 159 128 < bits r 191 160 + (s.ctx c).pending j) :
    s.nodeOver c j r = some (.error (.context s 0x36 j)) := by
  simp [State.nodeOver, kind, kWait, kCopy, kLayout, kTier, kRegion, kSpawn, beyond]

theorem State.nodeOver_wait_counted (counted : bits r 191 160 + (s.ctx c).pending j = bits r 159 128)
    (writes : s.putNode c j 20 4 (bits r 191 160 + (s.ctx c).pending j) = .ok t) :
    s.nodeOver c j r = some (.ok (t.clearPending c j)) := by
  rw [counted] at writes
  simp [State.nodeOver, kind, kWait, kCopy, kLayout, kTier, kRegion, kSpawn, counted, writes]

end

/-! ### The deque (R278) -/

section
variable {s : State} {f : FormA} (holds : Holds s f.gn f.guard) (access : Accessible s.core (s.core.reg f.a).toNat 32)
include holds access

theorem execDqpush_present (present : s.loadAbsent (s.core.reg f.a).toNat 32 = false) :
    let fits := decide (s.core.deque.length < 256)
    execDqpush f s = writeReg (s.withCore { s.core with
      deque := if fits then s.core.deque ++ [s.readLocal (s.core.reg f.a).toNat 32] else s.core.deque }) f.d (successDword fits) lenA :=
  (guarded_true _ _ holds).trans ((checks_pass _ (localChecks_pass access)).trans (if_neg (Bool.eq_false_iff.1 present)))

theorem execDqpop_ok : execDqpop f s = takeRecord (s.core.reg f.a).toNat f.d s.core.deque.getLast? lenA
    (s.withCore { s.core with deque := s.core.deque.dropLast }) :=
  (guarded_true _ _ holds).trans (checks_pass _ (localChecks_pass access))

end

/-- A `dqsteal` from a tile of the cluster that is the function's takes what that deque gives. -/
theorem dequeSteal_ok {s : State} {a : BitVec 5} {p : Dword} (d : BitVec 5) (len : Nat)
    (access : Accessible s.core (s.core.reg a).toNat 32) (member : p.toNat ≤ 7)
    (own : s.ownsTile (deviceOf s.cur) (fnOf s.core.fn) ((s.cur / 8 * 8 + p.toNat) % 160) = true) :
    let u := s.cur / 8 * 8 + p.toNat
    dequeSteal a d p len s = takeRecord (s.core.reg a).toNat d (s.coreOf u).deque.head? len
      (s.setCore u { s.coreOf u with deque := (s.coreOf u).deque.drop 1 }) :=
  (checks_pass _ (localChecks_pass access)).trans (if_neg (by simp [own, Nat.not_lt.2 member]))

/-- Both forms of an instruction that take their second operand from a register or from the word come to one operation. -/
theorem exec_dqsteal {s : State} {i : Instr} {a d : BitVec 5} {p : Dword} {len : Nat}
    (form : (∃ f : FormA, i = .dqstealA f ∧ Holds s f.gn f.guard ∧ a = f.a ∧ d = f.d ∧ p = s.core.reg f.b ∧ len = 4) ∨
      (∃ f : FormB, i = .dqstealB f ∧ Holds s f.gn f.guard ∧ a = f.a ∧ d = f.d ∧ p = f.imm16.signExtend 64 ∧ len = 8)) :
    exec i s = dequeSteal a d p len s := by
  rcases form with ⟨f, rfl, holds, rfl, rfl, rfl, rfl⟩ | ⟨f, rfl, holds, rfl, rfl, rfl, rfl⟩
  · exact guarded_true _ _ holds
  · exact guarded_true _ _ holds

/-! ### The layout engine (R268 to R271) -/

/-- Below the last place of a program the engine goes on with the next word. -/
theorem State.layoutGo_within {s : State} {e pc : Nat} {l : LayoutRun} (within : pc < 64) :
    s.layoutGo e l pc = s.setLayout e { l with pc := pc, elem := 0 } :=
  if_neg (Nat.not_le.2 within)

section
variable {s : State} {l : LayoutRun} {c : Cmd} {w : LayoutWord} (runs : Laid s l c w)
  (go : Nat → LayoutRun → Cmd → LayoutWord → State → State)
include runs

/-- An instruction of the engine whose turn it is acts on the run, the command and the fields that stand there. -/
theorem layoutTurn_laid : layoutTurn go s = .next (go s.engine l c w s) := by
  obtain ⟨run, stands, rfl, -⟩ := runs
  simp only [layoutTurn, run, stands]

/-- An instruction that goes on with the next word. -/
theorem layoutTurn_next {l' : LayoutRun} (goes : go s.engine l c w s = s.layoutGo s.engine l' (l.pc + 1)) :
    layoutTurn go s = .next (laid s l' (l.pc + 1)) := by
  obtain ⟨-, -, -, inside⟩ := id runs
  rw [layoutTurn_laid runs, goes, State.layoutGo_within (Nat.succ_lt_succ inside)]

end

/-! The stage (R268): where an instruction gives n indices from y new values, each read from the old stage. -/

theorem stageAt_mapSet (m : Map Val) {i k : Nat} (v : Val) (small : i < 256) :
    stageAt (mapSet m (k % 256) v) i = if i = k % 256 then v else stageAt m i := by
  by_cases same : i = k % 256
  · rw [if_pos same]
    simp [stageAt, same]
  · rw [if_neg same]
    simp only [stageAt, Nat.mod_eq_of_lt small, mapGet_mapSet_ne _ _ _ _ same]

theorem stageAt_restage (m : Map Val) (f : Nat → Val) {y n i : Nat} (start : y < 256) (most : n ≤ 256) (small : i < 256) :
    stageAt (restage m ((List.range n).map (y + ·)) f) i =
      if (i + 256 - y) % 256 < n then f (y + (i + 256 - y) % 256) else stageAt m i := by
  induction n with
  | zero => rfl
  | succ n ih =>
    have step : restage m ((List.range (n + 1)).map (y + ·)) f =
        mapSet (restage m ((List.range n).map (y + ·)) f) ((y + n) % 256) (f (y + n)) := by
      simp [restage, List.range_succ]
    rw [step, stageAt_mapSet _ _ small, ih (by omega)]
    by_cases last : i = (y + n) % 256
    · have place : (i + 256 - y) % 256 = n := by omega
      rw [if_pos last, place, if_pos (Nat.lt_succ_self n)]
    · have other : (i + 256 - y) % 256 ≠ n := by omega
      have same : ((i + 256 - y) % 256 < n + 1) = ((i + 256 - y) % 256 < n) := propext (by omega)
      rw [if_neg last]
      simp only [same]

@[simp] theorem State.pushReport_engine (s : State) (n : Nat) (c : Cmd) (bytes : Nat) (ranges : Ranges) :
    (s.pushReport n c bytes ranges).engine = s.engine := by
  unfold State.pushReport
  split
  · rfl
  · rfl

/-! The elements that a `rd` or `wr` moves leave the program counter where it is. -/

theorem layoutRead_pc {e start n k : Nat} {s u : State} {l l' : LayoutRun} {c c' : Cmd}
    (all : layoutRead e start n k s l c = .all u l' c') : l'.pc = l.pc := by
  induction k generalizing s l with
  | zero =>
    obtain ⟨-, rfl, -⟩ := Moved.all.inj all
    rfl
  | succ k ih =>
    simp only [layoutRead] at all
    split at all
    · exact (ih all :)
    · split at all
      · cases all
      · cases all
      · exact (ih all :)

theorem layoutWrite_pc {e start n k : Nat} {s u : State} {l l' : LayoutRun} {c c' : Cmd}
    (all : layoutWrite e start n k s l c = .all u l' c') : l'.pc = l.pc := by
  induction k generalizing s l c with
  | zero =>
    obtain ⟨-, rfl, -⟩ := Moved.all.inj all
    rfl
  | succ k ih =>
    simp only [layoutWrite] at all
    split at all
    · exact (ih all :)
    · split at all
      · cases all
      · cases all
      · exact (ih all :)

/-- With all its elements moved the engine goes on behind a `rd` or `wr`. -/
theorem layoutMoved_all {e access : Nat} {u : State} {l : LayoutRun} (c : Cmd) (inside : l.pc < 63) :
    layoutMoved e access (.all u l c) = (u.setCmd l.cmd c).setLayout e { l with pc := l.pc + 1, elem := 0 } :=
  State.layoutGo_within (Nat.succ_lt_succ inside)

/-! ### The matrix array (R261 to R267) -/

/-- A part that counts only where b is false holds back nothing where b is true or the part is false. -/
theorem bnot_and_eq_false {b part : Bool} (h : b = true ∨ part = false) : (!b && part) = false := by
  rcases h with rfl | rfl
  · rfl
  · exact Bool.and_false _

theorem running_any_eq_false {a : Array128} {n : Nat} (fresh : ∀ r ∈ a.running, r.1 ≠ n) :
    a.running.any (fun r => r.1 = n) = false :=
  List.any_eq_false.2 fun r mem => by simpa using fresh r mem

section
variable {s : State} {t sn n : Nat} {q : List Nat} {c : Cmd} (head : mapGet (s.tile t).array.queues sn = some (n :: q))
  (carried : Carried s n c) (fresh : ∀ r ∈ (s.tile t).array.running, r.1 ≠ n)
include head carried fresh

/-- A `sswap` exchanges the planes and is complete (R263). -/
theorem exec_matrixCommandStart_swaps (swap : c.kind = .stream 0x08) :
    let a := (s.tile t).array
    exec (.matrixCommandStart t sn) s =
      .next ((s.setArray t { a with active := a.shadow, shadow := a.active }).completeCmd n c) := by
  obtain ⟨stands, may, running⟩ := carried
  have idle := running_any_eq_false fresh
  show execMatrixCommandStart t sn s = _
  simp only [execMatrixCommandStart, head, Option.getD_some, List.head?_cons, stands, may, running, idle, Cmd.code_stream swap,
    ne_eq, not_true_eq_false, decide_false, Bool.not_true, Bool.or_self, Bool.false_eq_true, if_false, if_true]

/-- A `sldw` begins with a plane of the depth of its tensor, and no row (R262). -/
theorem exec_matrixCommandStart_loads (load : c.kind = .stream 0x07) :
    let a := (s.tile t).array
    exec (.matrixCommandStart t sn) s =
      .next (s.setArray t { a with running := a.running ++ [(n, { depth := entDim c.entA 1, rows := [] })] }) := by
  obtain ⟨stands, may, running⟩ := carried
  have idle := running_any_eq_false fresh
  show execMatrixCommandStart t sn s = _
  simp only [execMatrixCommandStart, head, Option.getD_some, List.head?_cons, stands, may, running, idle, Cmd.code_stream load,
    ne_eq, not_true_eq_false, decide_false, Bool.not_true, Bool.or_self, Bool.false_eq_true, if_false, if_true, Nat.reduceEqDiff]

/-- An `smat` that nothing holds back and that does not fail keeps the active plane; it takes the held buffer where it opens a
matrix operation there (R264, R266). -/
theorem exec_matrixCommandStart_multiplies (mat : c.kind = .stream 0x09)
    (strip : c.hold = true ∨ s.stripBusy (s.tile t).array = false)
    (buffer : c.hold = true → c.accum = false → (s.tile t).array.owner.any (fun o => o.1 ≠ sn) = false)
    (ok : (s.tile t).array.startFails c = false) :
    let a := (s.tile t).array
    exec (.matrixCommandStart t sn) s = .next (s.setArray t { a with
      owner := if c.hold && !c.accum then some (sn, c.matrixRows) else a.owner, running := a.running ++ [(n, a.active)] }) := by
  obtain ⟨stands, may, running⟩ := carried
  have idle := running_any_eq_false fresh
  have noStrip := bnot_and_eq_false strip
  have noOwner : (c.hold && !c.accum && (s.tile t).array.owner.any fun o => o.1 ≠ sn) = false := by
    by_cases opens : c.hold = true ∧ c.accum = false
    · rw [buffer opens.1 opens.2, Bool.and_false]
    · have stays : (c.hold && !c.accum) = false := by simpa using opens
      rw [stays, Bool.false_and]
  show execMatrixCommandStart t sn s = _
  simp only [execMatrixCommandStart, head, Option.getD_some, List.head?_cons, stands, may, running, idle, Cmd.code_stream mat, noStrip,
    noOwner, ok, ne_eq, not_true_eq_false, decide_false, Bool.not_true, Bool.or_self, Bool.false_eq_true, if_false, Nat.reduceEqDiff]

end

section
variable {s : State} {n k : Nat} {c : Cmd}

/-- An element that has been read is not read again (R232). -/
theorem State.readOperand_staged (read : (mapGet c.staged k).isSome = true) : s.readOperand n k c = .ok s c := by
  simp only [State.readOperand, read, if_true]

theorem State.readOperands_staged {ks : List Nat} (read : ∀ k ∈ ks, (mapGet c.staged k).isSome = true) :
    State.readOperands n ks s c = .ok s c := by
  induction ks with
  | nil => rfl
  | cons k ks ih =>
    simp only [State.readOperands, State.readOperand_staged (read k List.mem_cons_self),
      ih fun j mem => read j (List.mem_cons_of_mem k mem)]

end

section
variable {s : State} {t n : Nat} {p : Plane} {r : List (Nat × Plane)} {c : Cmd}

/-- The command that is first in the array takes a row where it can. -/
theorem exec_smatRow_first {u : State} (first : (s.tile t).array.running = (n, p) :: r) (step : s.rowStep n p = some u) :
    exec (.smatRow t) s = .next u := by
  show execSmatRow t s = _
  simp only [execSmatRow, first, State.firstRow, step]

variable (carried : Carried s n c) (mat : c.kind = .stream 0x09) (more : c.rd < c.matrixRows)
  (room : c.hold = true ∨ (s.tile c.tile).array.strip.isSome = false)
include carried mat more room

/-- A row of an `smat` comes from the lanes, or from its tensor, and goes through the plane (R265). -/
theorem State.rowStep_fed {u : State} {row : List DVal} (fed : c.fed = true) (feeds : s.feedRow c (entDim c.entA 0) = some (u, row)) :
    s.rowStep n p = some (u.takeRow n c p row) := by
  obtain ⟨stands, may, running⟩ := carried
  have noStrip := bnot_and_eq_false room
  simp only [State.rowStep, stands, Cmd.code_stream mat, running, may, Nat.not_le.2 more, noStrip, fed, feeds, Option.map_some, ne_eq,
    not_true_eq_false, decide_false, Bool.not_true, Bool.or_self, Bool.false_eq_true, if_false, if_true]

theorem State.rowStep_read (unfed : c.fed = false) (runs : (s.tile c.tile).array.age.stopped = none)
    (read : ∀ k ∈ c.rowElements c.rd, (mapGet c.staged k).isSome = true) :
    s.rowStep n p = some (s.takeRow n { c with staged := (c.rowElements c.rd).foldl mapErase c.staged } p
      ((c.rowElements c.rd).map c.operand)) := by
  obtain ⟨stands, may, running⟩ := carried
  have noStrip := bnot_and_eq_false room
  simp only [State.rowStep, stands, Cmd.code_stream mat, running, may, Nat.not_le.2 more, noStrip, unfed, runs,
    State.readOperands_staged read, ne_eq, not_true_eq_false, decide_false, Bool.not_true, Option.isSome_none, Bool.or_self,
    Bool.false_eq_true, if_false]

end

/-- A row that every node of the strip can take goes to the sixteen of them (R267). -/
theorem exec_stripDeliver_delivers {s : State} {t n : Nat} {row : List Cst} {c : Cmd} (strip : (s.tile t).array.strip = some (n, row))
    (stands : mapGet s.cmds n = some c) (may : s.cmdMay c = true)
    (nodes : ∀ j, j < 16 → s.stripNode c j = true ∧ ((s.tile t).unitAt (296 + j)).buf = []) :
    let last := decide (c.wr + 1 = c.matrixRows)
    let u := (List.range 16).foldl (fun (u : State) j =>
      u.setUnit t (296 + j) { (u.tile t).unitAt (296 + j) with buf := stripTokens row j last }) s
    let a := (u.tile t).array
    exec (.stripDeliver t) s = .next ((u.setTile t
      { u.tile t with array := { a with strip := none, owner := if last && c.accum then none else a.owner } }).setCmd n
      (if c.wr + 1 = c.matrixRows then { c with wr := c.wr + 1, stage := .complete, bytes := rangeBytes c.ranges }
        else { c with wr := c.wr + 1 })) := by
  have ready : (List.range 16).all (s.stripNode c) = true :=
    List.all_eq_true.2 fun j mem => (nodes j (List.mem_range.1 mem)).1
  have empty : (List.range 16).any (fun j => ((s.tile t).unitAt (slotN j)).buf ≠ []) = false :=
    List.any_eq_false.2 fun j mem => by simp [slotN, (nodes j (List.mem_range.1 mem)).2]
  show execStripDeliver t s = _
  simp only [execStripDeliver, strip, stands, may, ready, empty, Bool.not_true, Bool.and_false, Bool.or_self, Bool.false_eq_true, if_false]
  simp only [slotN, State.setArray]

section
variable {u : State} {n : Nat} {c : Cmd}

/-- Without hold a row goes to the strip. -/
theorem State.takeRow_strip (p : Plane) (row : List DVal) (delivers : c.hold = false) :
    let a := (u.tile c.tile).array
    let out := (List.range 128).map fun j =>
      columnCst (if c.accum then (mapGet a.held (c.rd * 128 + j)).getD freshCst else freshCst) row p j
    u.takeRow n c p row = (u.setArray c.tile { a with strip := some (n, out) }).setCmd n { c with rd := c.rd + 1 } := by
  have delivers' : ({ c with rd := c.rd + 1 } : Cmd).hold = false := delivers
  simp only [State.takeRow, delivers', Bool.false_eq_true, if_false]

/-- With hold a row goes to its places of the held buffer, and the last row ends the command. -/
theorem State.takeRow_held (p : Plane) (row : List DVal) (holds : c.hold = true) :
    let a := (u.tile c.tile).array
    let out := (List.range 128).map fun j =>
      columnCst (if c.accum then (mapGet a.held (c.rd * 128 + j)).getD freshCst else freshCst) row p j
    let c' := { c with rd := c.rd + 1 }
    u.takeRow n c p row =
      (u.setArray c.tile { a with held := out.zipIdx.foldl (fun h x => mapSet h (c.rd * 128 + x.2) x.1) a.held }).setCmd n
        (if c.rd + 1 = c.matrixRows then { c' with stage := .complete, bytes := rangeBytes c.ranges } else c') := by
  have holds' : ({ c with rd := c.rd + 1 } : Cmd).hold = true := holds
  simp only [State.takeRow, holds', if_true]
  rfl

end

end Sys2Proof.Machine

namespace Sys2Proof.Proofs

open Sys2Proof.Machine Sys2Proof.Rules

/-- Settles O37: each act by its own lemma, a node that runs by its kind; and a group's pieces by where each starts and ends. -/
theorem graphWalker : Obligations.GraphWalker := by
  unfold Obligations.GraphWalker
  refine ⟨fun s c i r t u v may => ⟨fun free submitted picks good => ?run, fun free runs reads finished ends => ?finish,
    fun free alone still reads kind good writes => ?ends, fun free runs unread reads kind tasks => ?spawn,
    fun s lives x k rest d spawn tasks least room => ?push, fun s g stands stopped may completed regions => ?frees,
    fun s => ⟨mapGet_mapErase s.contexts c, fun d other => mapGet_mapErase_ne s.contexts other⟩⟩,
    fun r handle group lo hi pos le => ⟨groupTasks_length r handle group lo hi, fun j inside => ?pieces⟩⟩
  case run =>
    have acts {w : State} (h : t.runNode c i r = .ok w) : exec (.graphNodeRun c) s = .next (w.endAct c) := by
      rw [exec_graphNodeRun_picks may free submitted picks, h]
      rfl
    refine ⟨fun kind => ?wait, fun kind => ?spawns, fun x kind command => ?command, fun kind => ?tier, fun b kind test ends => ?cond⟩
    case wait => exact acts (State.runNode_wait good kind)
    case spawns => exact acts (State.runNode_spawn good kind)
    case command => exact acts (State.runNode_command good kind command)
    case tier => exact acts (State.runNode_tier good kind)
    case cond => exact acts ((State.runNode_cond good kind test).trans ends)
  case finish => exact exec_graphNodeFinish_over may free runs reads finished ends
  case ends => exact exec_endNode_ends may free alone still reads kind good writes
  case spawn => exact exec_spawnRead_reads may free runs unread reads kind tasks
  case push => exact exec_spawnTaskPush_pushes lives spawn tasks least room
  case frees => exact exec_contextFree_frees stands stopped may completed regions
  case pieces =>
    have starts := piece_start_lt pos inside
    refine ⟨groupTasks_getElem? inside, ?nonempty, fun more => ?next, fun last => ?last⟩
    case nonempty => omega
    case next =>
      have further := piece_start_lt pos more
      rw [Nat.mul_add_one] at further ⊢
      omega
    case last =>
      have whole := piece_end_ge pos last
      omega

/-- Settles O34: a push goes by the room of the deque, a pop and a steal by whether the deque holds a record. -/
theorem dequeInstructions : Obligations.DequeInstructions := by
  unfold Obligations.DequeInstructions
  refine ⟨fun s f holds access => ⟨fun present room => ?push, fun present full => ?refused, fun q bs bottom => ?pop,
    fun empty => ?empty⟩,
    fun s i a d p len form => ?steal⟩
  case push =>
    show execDqpush f s = _
    rw [execDqpush_present holds access present]
    simp [room, successDword, lenA]
  case refused =>
    show execDqpush f s = _
    rw [execDqpush_present holds access present]
    simp [Nat.not_lt.2 full, successDword, lenA]
  case pop =>
    show execDqpop f s = _
    rw [execDqpop_ok holds access, bottom]
    simp [takeRecord, lenA]
  case empty =>
    show execDqpop f s = _
    have nothing : s.core.deque.dropLast = s.core.deque := by simp [empty]
    have kept : { s.core with deque := s.core.deque.dropLast } = s.core := congrArg (fun q => { s.core with deque := q }) nothing
    rw [execDqpop_ok holds access, kept, empty]
    simp [takeRecord, lenA]
  case steal =>
    refine fun access member own => ⟨fun bs r top => ?taken, fun empty => ?nothing⟩
    case taken =>
      rw [exec_dqsteal form, dequeSteal_ok d len access member own, top]
      exact writeReg_eq _ _ _ _
    case nothing =>
      rw [exec_dqsteal form, dequeSteal_ok d len access member own, empty]
      exact writeReg_eq _ _ _ _

/-- Settles O36: a submission by the die's free contexts, a signal by its node's kind, its count and what its record holds. -/
theorem graphInstructions : Obligations.GraphInstructions := by
  unfold Obligations.GraphInstructions
  refine ⟨fun s i a d n len form aligned below least most => ?gnode,
    fun s i h n len form least most live x kind spawn enough runs => ?spawn,
    fun s u v i h n len pas qas form least most live => ?beside,
    fun s c j r kind => ⟨State.nodeOver_wait_fewer kind, State.nodeOver_wait_beyond kind,
      fun t => State.nodeOver_wait_counted kind⟩⟩
  case gnode =>
    rw [exec_gnode form]
    refine ⟨fun full => ?full, fun free => ?free⟩
    case full =>
      exact (graphSubmit_full aligned below least most (State.takeCtx_full full)).trans (writeReg_eq _ _ _ _)
    case free =>
      obtain ⟨k, small, unused, taken⟩ := State.takeCtx_free free
      exact ⟨k, small, unused, (graphSubmit_takes aligned below least most taken).trans (writeReg_eq _ _ _ _)⟩
  case spawn =>
    rw [exec_gsig_signals form least most live]
    exact congrArg (finish · len) (State.signal_spawn kind spawn enough runs)
  case beside =>
    intro c j g came
    rw [exec_gsig_signals form least most live]
    refine ⟨fun other early => ?early, fun kind set runs reads => ?wait⟩
    case early => exact congrArg (finish · len) ((State.signal_other other).trans (if_neg (Nat.not_lt.2 early)))
    case wait =>
      have positive : n.toNat ≠ 0 := toNat_ne_zero_of_toInt_pos least
      exact ⟨fun beyond => congrArg (finish · len) (State.signal_wait_beyond kind set positive runs reads beyond),
        fun within writes => congrArg (finish · len) (State.signal_wait_stores kind set positive runs reads within writes)⟩

/-- Settles O46: each instruction by what it makes of the engine's run, and the stage index by index. -/
theorem layoutInstructions : Obligations.LayoutInstructions := by
  unfold Obligations.LayoutInstructions
  intro s l c w runs x y n then' stages old from'
  obtain ⟨-, -, -, inside⟩ := id runs
  have start : w.y.toNat < 256 := w.y.isLt
  refine ⟨fun written => ⟨?stop, ?mark, ?sync⟩, fun waits => ⟨?stopWaits, ?markWaits, ?syncWaits⟩, ?for', ?next, ?moves, ?tr8,
    fun size key => ?swz, fun size => ?pad, ?cvt, ?adv⟩
  case stop =>
    show execLayoutStop s = _
    exact (layoutTurn_laid runs _).trans (congrArg _ (if_neg (not_not.2 written)))
  case mark =>
    show execLayoutMark s = _
    refine (layoutTurn_laid runs _).trans (congrArg _ ((if_neg (not_not.2 written)).trans ?_))
    rw [laid, State.pushReport_engine]
    exact State.layoutGo_within (Nat.succ_lt_succ inside)
  case sync =>
    show execLayoutSync s = _
    exact layoutTurn_next runs _ (if_neg (not_not.2 written))
  case stopWaits =>
    show execLayoutStop s = _
    exact (layoutTurn_laid runs _).trans (congrArg _ (if_pos waits))
  case markWaits =>
    show execLayoutMark s = _
    exact (layoutTurn_laid runs _).trans (congrArg _ (if_pos waits))
  case syncWaits =>
    show execLayoutSync s = _
    exact (layoutTurn_laid runs _).trans (congrArg _ (if_pos waits))
  case for' =>
    have zero : (w.imm16 = 0) = (n = 0) := propext BitVec.toNat_inj.symm
    show execLayoutFor s = _
    refine layoutTurn_next runs _ ?_
    simp only [zero]
    rfl
  case next =>
    refine ⟨fun last => ?last, fun more small => ?more⟩
    case last =>
      show execLayoutNext s = _
      exact layoutTurn_next runs _ (congrArg (s.layoutGo s.engine { l with lc := l.lc.set! x (counterAt l.lc x + 1) })
        (if_neg (Nat.not_lt.2 last)))
    case more =>
      show execLayoutNext s = _
      exact (layoutTurn_laid runs _).trans (congrArg _ ((congrArg _ (if_pos more)).trans (State.layoutGo_within small)))
  case moves =>
    intro first moves
    have ends {i : Instr} {access : Nat} {m : Moved} (turn : exec i s = .next (layoutMoved s.engine access m))
        (keeps : ∀ u l' c', m = .all u l' c' → l'.pc = l.pc) : moves i access m := by
      refine ⟨fun u l' c' all => ⟨keeps u l' c' all, ?_⟩, fun u l' c' va f ix part => ?_⟩
      · have same := keeps u l' c' all
        rw [turn, all, layoutMoved_all c' (same ▸ inside), same]
      · rw [turn, part]
        rfl
    have reads : execLayoutRd s = .next (layoutMoved s.engine 0 (layoutRead s.engine first n (n - l.elem) s l c)) :=
      layoutTurn_laid runs _
    have writes : execLayoutWr s = .next (layoutMoved s.engine 1 (layoutWrite s.engine first n (n - l.elem) s l c)) :=
      layoutTurn_laid runs _
    exact ⟨ends reads fun _ _ _ => layoutRead_pc, ends writes fun _ _ _ => layoutWrite_pc⟩
  case tr8 =>
    have turn : execLayoutTr8 s = _ := layoutTurn_next runs _ rfl
    refine ⟨_, turn, fun i small => (stageAt_restage _ _ start (by omega) small).trans ?_⟩
    simp only [Nat.add_sub_cancel_left]
    rfl
  case swz =>
    have most : 2 ^ w.x.toNat ≤ 256 := Nat.pow_le_pow_right (n := 2) (by omega) size
    have turn : execLayoutSwz s = _ := layoutTurn_next runs _ rfl
    refine ⟨_, turn, fun i small => (stageAt_restage _ _ start most small).trans ?_⟩
    simp only [Nat.add_sub_cancel_left]
    rfl
  case pad =>
    have turn : execLayoutPad s = _ := layoutTurn_next runs _ rfl
    exact ⟨_, turn, fun i small => stageAt_restage _ _ start size small⟩
  case cvt =>
    have keep : (w.y = 0) = (y = 0) := propext BitVec.toNat_inj.symm
    have flush : (w.y = 1) = (y = 1) := propext BitVec.toNat_inj.symm
    show execLayoutCvt s = _
    refine layoutTurn_next runs _ ?_
    simp only [keep, flush]
  case adv =>
    intro move
    show execLayoutAdv s = _
    by_cases source : w.x = 0
    · rw [if_pos source]
      exact layoutTurn_next runs _ (by simp only [source, if_true]; rfl)
    · rw [if_neg source]
      exact layoutTurn_next runs _ (by simp only [source, if_false]; rfl)

/-- Settles O47: a start by the command's kind and by acc and hold, a row by where it comes from and goes, and the strip. -/
theorem matrixActs : Obligations.MatrixActs := by
  unfold Obligations.MatrixActs
  refine ⟨fun s t sn n q c head carried => ?start, fun s t n p r c first carried here mat more => ?row,
    fun s t n row c strip stands may nodes => exec_stripDeliver_delivers strip stands may nodes⟩
  case start =>
    intro a starts fresh
    refine ⟨fun swap => exec_matrixCommandStart_swaps head carried fresh swap,
      fun load => exec_matrixCommandStart_loads head carried fresh load,
      fun mat depth => ⟨fun opens delivers clear => ?delivers, fun opens holds own free => ?holds, fun goesOn owner strip => ?goesOn⟩⟩
    case delivers =>
      have ok : a.startFails c = false := by simp [Array128.startFails, depth, opens, delivers]
      refine (exec_matrixCommandStart_multiplies head carried fresh mat (.inr clear) (fun hold => ?_) ok).trans ?_
      · exact absurd hold (by simp [delivers])
      · simp only [delivers, Bool.false_and, Bool.false_eq_true, if_false]
        rfl
    case holds =>
      have ok : a.startFails c = false := by simp [Array128.startFails, depth, opens, free]
      refine (exec_matrixCommandStart_multiplies head carried fresh mat (.inl holds) (fun _ _ => ?_) ok).trans ?_
      · exact (congrArg (Option.any _) free).trans rfl
      · simp only [holds, opens, Bool.not_false, Bool.and_self, if_true]
        rfl
    case goesOn =>
      have ok : a.startFails c = false := by simp [Array128.startFails, depth, goesOn, owner]
      refine (exec_matrixCommandStart_multiplies head carried fresh mat strip (fun _ opens => ?_) ok).trans ?_
      · exact absurd goesOn (by simp [opens])
      · simp only [goesOn, Bool.not_true, Bool.and_false, Bool.false_eq_true, if_false]
        rfl
  case row =>
    subst here
    intro m takes
    have clear (empty : (s.tile c.tile).array.strip = none) : c.hold = true ∨ (s.tile c.tile).array.strip.isSome = false :=
      .inr (by rw [empty]; rfl)
    refine ⟨fun u row fed feeds => ⟨fun delivers empty => ?fedStrip, fun holds => ?fedHeld⟩,
      fun unfed runs read => ⟨fun delivers empty => ?readStrip, fun holds => ?readHeld⟩⟩
    case fedStrip =>
      exact exec_smatRow_first first ((State.rowStep_fed carried mat more (clear empty) fed feeds).trans
        (congrArg some (State.takeRow_strip p row delivers)))
    case fedHeld =>
      exact exec_smatRow_first first ((State.rowStep_fed carried mat more (.inl holds) fed feeds).trans
        (congrArg some (State.takeRow_held p row holds)))
    case readStrip =>
      exact exec_smatRow_first first ((State.rowStep_read carried mat more (clear empty) unfed runs read).trans
        (congrArg some (State.takeRow_strip p _ delivers)))
    case readHeld =>
      exact exec_smatRow_first first ((State.rowStep_read carried mat more (.inl holds) unfed runs read).trans
        (congrArg some (State.takeRow_held p _ holds)))

end Sys2Proof.Proofs

/-! Proofs about the draft memory: the draft instructions (R293 to R309), queries (R298), and the image of a slot (R306). -/

namespace Sys2Proof.Machine

open Sys2Proof.Rules

/-! ### Drops (R296) -/

/-- A drop leaves the newest tokens, at most the cap of them. -/
theorem DraftSlot.length_drop_le (x : DraftSlot) : x.drop.window.length ≤ x.cap := by
  have drops : x.drop.window.length = x.window.length - (x.window.length - x.cap) := List.length_drop
  omega

/-! ### Queries (R298) -/

/-! What the search comes to over the places of v, in a window whose tokens from the newest down are `full`. A token more at the
end of v adds the place of that token, and the runs at the places before it stay. -/

section
variable (full : List (BitVec 24))

/-- The run of tokens that ends at place p of v and at the end of the window too. -/
def runAt (v : List (BitVec 24)) (p : Nat) : Nat := commonRun 255 (v.take (p + 1)).reverse full

theorem runAt_append {v : List (BitVec 24)} {p : Nat} (u : List (BitVec 24)) (inside : p < v.length) :
    runAt full (v ++ u) p = runAt full v p := by
  rw [runAt, List.take_append_of_le_length inside, runAt]

theorem runAt_last (v : List (BitVec 24)) (b : BitVec 24) : runAt full (v ++ [b]) v.length = commonRun 255 (b :: v.reverse) full := by
  rw [runAt, List.take_of_length_le (by simp), List.reverse_concat]

theorem lt_length_concat {v : List (BitVec 24)} {b : BitVec 24} {p : Nat} :
    p < (v ++ [b]).length ↔ p < v.length ∨ p = v.length := by
  rw [List.length_append]
  exact Nat.lt_succ_iff_lt_or_eq

/-- The newest place takes over where its run is not shorter than those before it. -/
theorem matchFrom_concat (v : List (BitVec 24)) (b : BitVec 24) : matchFrom full (v ++ [b]).reverse =
    if 0 < runAt full (v ++ [b]) v.length ∧ (matchFrom full v.reverse).1 ≤ runAt full (v ++ [b]) v.length
    then (runAt full (v ++ [b]) v.length, some v.length) else matchFrom full v.reverse := by
  rw [runAt_last, List.reverse_concat, matchFrom, List.length_reverse]
  simp only [gt_iff_lt, ge_iff_le, Bool.and_eq_true, decide_eq_true_eq]

theorem runAt_le_matchFrom (v : List (BitVec 24)) :
    ∀ p, p < v.length → runAt full v p ≤ (matchFrom full v.reverse).1 := by
  induction v using List.reverseRecOn with
  | nil => exact fun p inside => absurd inside (Nat.not_lt_zero p)
  | append_singleton v b ih =>
    intro p inside
    rw [matchFrom_concat]
    rcases lt_length_concat.1 inside with before | rfl
    · have le := ih p before
      rw [runAt_append full [b] before]
      split
      next takes => exact le.trans takes.2
      next => exact le
    · split <;> omega

theorem matchFrom_latest (v : List (BitVec 24)) (found : 0 < (matchFrom full v.reverse).1) :
    ∃ q, (matchFrom full v.reverse).2 = some q ∧ q < v.length ∧ runAt full v q = (matchFrom full v.reverse).1 ∧
      ∀ p, p < v.length → runAt full v p = (matchFrom full v.reverse).1 → p ≤ q := by
  induction v using List.reverseRecOn with
  | nil => exact absurd found (Nat.lt_irrefl 0)
  | append_singleton v b ih =>
    rw [matchFrom_concat] at found ⊢
    split
    next takes =>
      exact ⟨v.length, rfl, lt_length_concat.2 (.inr rfl), rfl, fun p within _ => (lt_length_concat.1 within).elim Nat.le_of_lt Eq.le⟩
    next stays =>
      rw [if_neg stays] at found
      obtain ⟨q, place, inside, run, latest⟩ := ih found
      refine ⟨q, place, lt_length_concat.2 (.inl inside), (runAt_append full [b] inside).trans run, fun p within same => ?_⟩
      have before : p < v.length := by
        rcases lt_length_concat.1 within with before | rfl
        · exact before
        · exact absurd ⟨same ▸ found, same.ge⟩ stays
      exact latest p before ((runAt_append full [b] before).symm.trans same)

theorem matchFrom_none (v : List (BitVec 24)) (zero : (matchFrom full v.reverse).1 = 0) : (matchFrom full v.reverse).2 = none := by
  induction v using List.reverseRecOn with
  | nil => rfl
  | append_singleton v b ih =>
    rw [matchFrom_concat] at zero ⊢
    split
    next takes =>
      rw [if_pos takes] at zero
      exact absurd zero takes.1.ne'
    next stays =>
      rw [if_neg stays] at zero
      exact ih zero

end

/-- The places of a query are those before the newest token. -/
theorem draftQuery_eq (w : List (BitVec 24)) : draftQuery w = matchFrom w.reverse w.dropLast.reverse := by
  rw [draftQuery, List.drop_one, List.tail_reverse]

theorem runAt_dropLast {w : List (BitVec 24)} {p : Nat} (earlier : p + 1 < w.length) :
    runAt w.reverse w.dropLast p = commonRun 255 (w.take (p + 1)).reverse w.reverse := by
  rw [runAt, List.dropLast_eq_take, List.take_take, Nat.min_eq_left (by omega)]

theorem lt_length_dropLast {w : List (BitVec 24)} {p : Nat} : p < w.dropLast.length ↔ p + 1 < w.length := by
  rw [List.length_dropLast]
  omega

/-! ### Lines of an image (R306) -/

theorem ofBytes_append (bs cs : List Byte) : ofBytes (bs ++ cs) = ofBytes bs + 256 ^ bs.length * ofBytes cs := by
  induction bs with
  | nil => simp [ofBytes]
  | cons b r ih => rw [List.cons_append, ofBytes, ofBytes, ih, List.length_cons, Nat.pow_succ']; ring

theorem ofBytes_zeros (n : Nat) : ofBytes (List.replicate n 0) = 0 := by
  induction n with
  | zero => rfl
  | succ n ih => rw [List.replicate_succ, ofBytes, ih]; rfl

/-- The 64-byte line that holds some words, lowest first. -/
def lineOf (ws : List Nat) : Nat := ofBytes (padTo 64 (ws.flatMap fun w => toBytes w 4))

/-- The 16 words of a 64-byte line. -/
def lineWords (l : Nat) : List Nat := (List.range 16).map fun i => l / 2 ^ (32 * i) % 2 ^ 32

theorem lineOf_eq (ws : List Nat) : lineOf ws = ofBytes (ws.flatMap fun w => toBytes w 4) := by
  rw [lineOf, padTo, ofBytes_append, ofBytes_zeros, Nat.mul_zero, Nat.add_zero]

theorem lineOf_cons (w : Nat) (ws : List Nat) : lineOf (w :: ws) = w % 2 ^ 32 + 2 ^ 32 * lineOf ws := by
  rw [lineOf_eq, lineOf_eq, List.flatMap_cons, ofBytes_append, length_toBytes, ofBytes_toBytes]
  norm_num

/-- A word higher is a word of the number without its lowest word. -/
theorem div_word_succ (l i : Nat) : l / 2 ^ (32 * (i + 1)) = l / 2 ^ 32 / 2 ^ (32 * i) := by
  rw [Nat.mul_succ, Nat.add_comm, Nat.pow_add, Nat.div_div_eq_div_mul]

theorem lineOf_word {ws : List Nat} (small : ∀ w ∈ ws, w < 2 ^ 32) (i : Nat) : lineOf ws / 2 ^ (32 * i) % 2 ^ 32 = ws.getD i 0 := by
  induction ws generalizing i with
  | nil => simp [lineOf_eq, ofBytes]
  | cons w ws ih =>
    obtain ⟨first, rest⟩ := List.forall_mem_cons.1 small
    rw [lineOf_cons, Nat.mod_eq_of_lt first]
    cases i with
    | zero => rw [List.getD_cons_zero]; omega
    | succ i =>
      have above : (w + 2 ^ 32 * lineOf ws) / 2 ^ 32 = lineOf ws := by omega
      rw [List.getD_cons_succ, ← ih rest i, div_word_succ, above]

/-- A line of at most 16 words gives them back, and zero words behind them. -/
theorem lineWords_lineOf {ws : List Nat} (small : ∀ w ∈ ws, w < 2 ^ 32) (short : ws.length ≤ 16) :
    lineWords (lineOf ws) = ws ++ List.replicate (16 - ws.length) 0 := by
  refine List.ext_getElem (by simp [lineWords]; omega) fun i _ _ => ?_
  simp only [lineWords, List.getElem_map, List.getElem_range, lineOf_word small i, List.getElem_append, List.getElem_replicate]
  split
  next inside => exact (List.getElem_eq_getD 0).symm
  next beyond => exact List.getD_eq_default _ _ (Nat.not_lt.1 beyond)

theorem lineOf_words (l n : Nat) : lineOf ((List.range n).map fun i => l / 2 ^ (32 * i) % 2 ^ 32) = l % 2 ^ (32 * n) := by
  induction n generalizing l with
  | zero => simp [lineOf_eq, ofBytes, Nat.mod_one]
  | succ n ih =>
    rw [List.range_succ_eq_map, List.map_cons, List.map_map, lineOf_cons]
    simp only [Function.comp_def, Nat.succ_eq_add_one, div_word_succ, ih]
    rw [Nat.mul_succ, Nat.add_comm (32 * n), Nat.pow_add, Nat.mod_mul]
    simp

/-- Some words in lines of 16 are those words, and zero words behind them. -/
theorem flatMap_lineWords {ws : List Nat} {m : Nat} (small : ∀ w ∈ ws, w < 2 ^ 32) (fits : ws.length ≤ 16 * m) :
    ((List.range m).map fun k => lineOf ((ws.drop (16 * k)).take 16)).flatMap lineWords =
      ws ++ List.replicate (16 * m - ws.length) 0 := by
  induction m generalizing ws with
  | zero => simp [List.eq_nil_of_length_eq_zero (Nat.le_zero.1 fits)]
  | succ m ih =>
    have rest := ih (ws := ws.drop 16) (fun w mem => small w (List.mem_of_mem_drop mem)) (by rw [List.length_drop]; omega)
    have first := lineWords_lineOf (ws := ws.take 16) (fun w mem => small w (List.mem_of_mem_take mem)) (List.length_take_le _ _)
    simp only [List.drop_drop] at rest
    simp only [List.range_succ_eq_map, List.map_cons, List.map_map, List.flatMap_cons, Function.comp_def, Nat.succ_eq_add_one,
      Nat.mul_succ, Nat.mul_zero, List.drop_zero, Nat.add_comm _ 16, rest, first, List.length_take, List.length_drop]
    by_cases whole : 16 ≤ ws.length
    · rw [Nat.min_eq_left whole, Nat.sub_self, List.replicate_zero, List.append_nil, ← List.append_assoc, List.take_append_drop]
      congr 2
      omega
    · rw [List.take_of_length_le (by omega), List.drop_of_length_le (by omega), List.nil_append, List.append_assoc,
        List.replicate_append_replicate]
      congr 2
      omega

/-! ### The image of a slot (R306) -/

theorem draftLine_succ (x : DraftSlot) (k : Nat) :
    ((draftWords x).drop (16 * (k + 1))).take 16 = ((x.window.map BitVec.toNat).drop (16 * k)).take 16 := by
  rw [draftWords, Nat.mul_succ, Nat.add_comm, ← List.drop_drop, List.drop_left' (by simp)]

section
variable {x : DraftSlot} (capped : x.window.length ≤ x.cap) (most : x.cap ≤ 2 ^ 20) (quota : x.quota ≤ x.cap)
include capped most quota

/-- Each field of a header. -/
theorem draftHeader_fields : draftHeader x / 2 ^ 32 % 2 ^ 21 = x.window.length ∧ draftHeader x / 2 ^ 64 % 2 ^ 21 = x.cap ∧
    draftHeader x / 2 ^ 96 % 2 ^ 21 = x.quota ∧ draftHeader x / 2 ^ 128 % 2 ^ 64 = x.total.toNat ∧
    draftHeader x / 2 ^ 192 % 2 ^ 64 = x.dropped.toNat := by
  have total := x.total.isLt
  have dropped := x.dropped.isLt
  simp only [draftHeader]
  omega

/-- The version of a header, and its reserved fields. -/
theorem draftHeader_reserved : draftHeader x % 2 ^ 16 = 1 ∧ draftHeader x / 2 ^ 16 % 2 ^ 16 = 0 ∧
    draftHeader x / 2 ^ 53 % 2 ^ 11 = 0 ∧ draftHeader x / 2 ^ 85 % 2 ^ 11 = 0 ∧ draftHeader x / 2 ^ 117 % 2 ^ 11 = 0 ∧
    draftHeader x / 2 ^ 256 = 0 := by
  have total := x.total.isLt
  have dropped := x.dropped.isLt
  simp only [draftHeader]
  omega

theorem headerBad_draftHeader : headerBad (draftHeader x) = false := by
  obtain ⟨version, low, length, cap, quotas, high⟩ := draftHeader_reserved capped most quota
  obtain ⟨hn, hcap, hquota, -, -⟩ := draftHeader_fields capped most quota
  simp only [headerBad, version, low, length, cap, quotas, high, hn, hcap, hquota, capMax, decide_eq_false (not_lt.2 capped),
    decide_eq_false (not_lt.2 most), decide_eq_false (not_lt.2 quota), gt_iff_lt, ne_eq, not_true_eq_false, decide_false, Bool.or_self]

/-- What an image gives by its header alone. -/
theorem draftImage_header (lines : List Nat) : (draftImage (draftHeader x) lines).cap = x.cap ∧
    (draftImage (draftHeader x) lines).quota = x.quota ∧ (draftImage (draftHeader x) lines).total = x.total ∧
    (draftImage (draftHeader x) lines).dropped = x.dropped := by
  obtain ⟨-, hcap, hquota, htotal, hdropped⟩ := draftHeader_fields capped most quota
  exact ⟨hcap, hquota, BitVec.eq_of_toNat_eq ((BitVec.toNat_ofNat _ _).trans htotal),
    BitVec.eq_of_toNat_eq ((BitVec.toNat_ofNat _ _).trans hdropped)⟩

theorem draftLine_zero : lineOf (((draftWords x).drop (16 * 0)).take 16) = draftHeader x := by
  have header : ((draftWords x).drop (16 * 0)).take 16 = (List.range 16).map fun i => draftHeader x / 2 ^ (32 * i) % 2 ^ 32 := by
    rw [Nat.mul_zero, List.drop_zero, draftWords, List.take_left' (by simp)]
  obtain ⟨-, -, -, -, -, high⟩ := draftHeader_reserved capped most quota
  rw [header, lineOf_words]
  omega

end

/-- The lines of an image behind its header, as `sdsave` stores them. -/
def tokenLines (x : DraftSlot) : List Nat :=
  (List.range ((x.window.length + 15) / 16)).map fun k => lineOf (((draftWords x).drop (16 * (k + 1))).take 16)

/-- The token words of an image are the window's tokens. -/
theorem take_tokenLines (x : DraftSlot) :
    ((tokenLines x).flatMap lineWords).take x.window.length = x.window.map BitVec.toNat := by
  have small : ∀ w ∈ x.window.map BitVec.toNat, w < 2 ^ 32 := by
    intro w mem
    obtain ⟨t, -, rfl⟩ := List.mem_map.1 mem
    omega
  simp only [tokenLines, draftLine_succ]
  rw [flatMap_lineWords small (by rw [List.length_map]; omega)]
  exact List.take_left' (List.length_map _)

theorem tokensBad_tokenLines (x : DraftSlot) : tokensBad x.window.length (tokenLines x) = false := by
  have words : tokensBad x.window.length (tokenLines x) =
      (((tokenLines x).flatMap lineWords).take x.window.length).any fun t => 2 ^ 24 ≤ t := rfl
  rw [words, take_tokenLines, List.any_map, List.any_eq_false]
  exact fun t _ => by simpa using t.isLt

/-- The lines that `sdsave` stores give the slot back (R308, R309). -/
theorem draftImage_tokenLines {x : DraftSlot} (capped : x.window.length ≤ x.cap) (most : x.cap ≤ 2 ^ 20) (quota : x.quota ≤ x.cap) :
    draftImage (draftHeader x) (tokenLines x) = { x with loading := false } := by
  obtain ⟨hn, -⟩ := draftHeader_fields capped most quota
  obtain ⟨hcap, hquota, htotal, hdropped⟩ := draftImage_header capped most quota (tokenLines x)
  have window : (draftImage (draftHeader x) (tokenLines x)).window = x.window := by
    show (((tokenLines x).flatMap lineWords).take (draftHeader x / 2 ^ 32 % 2 ^ 21)).map (BitVec.ofNat 24) = _
    rw [hn, take_tokenLines, List.map_map]
    exact (List.map_congr_left fun t _ => (BitVec.ofNat_toNat 24 t).trans (BitVec.setWidth_eq t)).trans (List.map_id _)
  exact (DraftSlot.mk.injEq ..).mpr ⟨window, hcap, hquota, htotal, hdropped, rfl⟩

/-! ### The draft instructions (R293 to R305, R307) -/

/-- The instructions of R301. -/
def draftInstr : Instr → Bool
  | .sdq _ | .sdacc _ | .sdsave _ | .sdload _ | .sdcapA _ | .sdcapB _ | .sdrstA _ | .sdrstB _ => true
  | _ => false

/-- A draft instruction that has waited for a load comes to what it comes to at once (R309): the wait's end runs it, and only the
instructions of R301 wait so. -/
theorem exec_of_draftComes {s : State} {i : Instr} {e : Host.Outcome State Fault Refusal} (draft : draftInstr i = true)
    (comes : DraftComes s i e) : e = exec i s := by
  rcases comes with now | ⟨r, t, rfl, waits, rfl⟩
  · exact now
  · show execDraftWaitEnd t r = _
    simp only [execDraftWaitEnd, State.waitOf_some.2 waits]
    split
    case h_9 => simp_all only [draftInstr, Bool.false_eq_true]
    all_goals rfl

theorem whileLoading_still (i : Instr) (s : State) (go : State → Out) {loading : Bool} (still : loading = false) :
    whileLoading i loading s go = go s := by
  simp [whileLoading, still]

section
variable {s : State} {n : Nat}

theorem State.draftCheck_pass (own : Drafts s n) : (s.draftCheck n).1 = false := by
  simp [State.draftCheck, own]

theorem draftArea_pass {c : Core} {ea : Nat} (area : DraftArea c ea n) : (draftEnd ea n).1 = false ∧ (draftUser c ea).1 = false := by
  obtain ⟨inside, beyond⟩ := area
  have beyond' : c.m = 0 → supervisorArea ≤ ea := beyond
  simpa [draftEnd, draftUser, spLast, Core.user, inside] using beyond'

end

/-- Checks that stand under a condition pass where they pass under it. -/
theorem forall_mem_ite_nil {α : Type} {p : Prop} [Decidable p] {l : List α} {P : α → Prop} (h : p → ∀ b ∈ l, P b) :
    ∀ b ∈ (if p then l else []), P b := by
  split
  next holds => exact h holds
  next => exact fun b mem => absurd mem List.not_mem_nil

/-- What a query proposes (R302). -/
def DraftSlot.proposal (y : DraftSlot) (least limit : Nat) : List (BitVec 24) :=
  if least ≤ (draftQuery y.window).1 then (y.window.drop ((draftQuery y.window).2.getD 0 + 1)).take limit else []

/-- The state with the proposed tokens in the scratchpad; no tokens are no store. -/
def State.storeTokens (s : State) (ea : Nat) (out : List (BitVec 24)) : State :=
  if out = [] then s else s.storeLocal ea (out.flatMap fun t => toBytes t.toNat 4)

theorem toNat_tokenWord (t : BitVec 24) : (tokenWord t).toNat = t.toNat := by
  rw [tokenWord, BitVec.toNat_setWidth, Nat.mod_eq_of_lt (by omega)]

section
variable {s : State} {f : FormA} {x : Nat} {y : DraftSlot} (holds : Holds s f.gn f.guard)
  (own : Drafts s (s.core.reg f.a).toNat) (word : (s.core.reg f.b).toNat = x)
  (slot : (s.die (dieOf s.cur)).draftSlot (s.core.reg f.a).toNat = y) (still : y.loading = false)
include holds own word slot still

/-- A query of a slot that does not load gives the match and stores its proposal (R302). -/
theorem execSdq_completes (small : x < 2 ^ 31) (least : x / 2 ^ 26 % 32 ≠ 0) (limit : x / 2 ^ 20 % 64 ≤ 32)
    (area : x / 2 ^ 20 % 64 ≠ 0 → DraftArea s.core (4 * (x % 2 ^ 20)) (x / 2 ^ 20 % 64)) : execSdq f s =
      writeReg (s.storeTokens (4 * (x % 2 ^ 20)) (y.proposal (x / 2 ^ 26 % 32) (x / 2 ^ 20 % 64))) f.d
        (queryResult (draftQuery y.window).1 (y.proposal (x / 2 ^ 26 % 32) (x / 2 ^ 20 % 64)).length (draftQuery y.window).2) lenA := by
  subst word slot
  have ends (stores : (s.core.reg f.b).toNat / 2 ^ 20 % 64 > 0) := draftArea_pass (area stores.ne')
  refine (guarded_true _ _ holds).trans ((checks_pass _ ?closed).trans ((checksOpen_pass _ ?opened).trans
    ((whileLoading_still _ _ _ still).trans ?completes)))
  case closed =>
    refine List.forall_mem_append.2 ⟨?_, forall_mem_ite_nil fun stores => by simpa using (ends stores).1⟩
    simpa using ⟨State.draftCheck_pass own, ⟨small, least⟩, limit⟩
  case opened => exact forall_mem_ite_nil fun stores => by simpa using (ends stores).2
  case completes =>
    simp only [toNat_tokenWord]
    rfl

/-- Tokens that are well-formed enter the window in one draft step (R303). -/
theorem execSdacc_completes (small : x < 2 ^ 27) (least : 1 ≤ x / 2 ^ 20 % 128) (most : x / 2 ^ 20 % 128 ≤ 64)
    (area : DraftArea s.core (4 * (x % 2 ^ 20)) (x / 2 ^ 20 % 128))
    (present : s.loadAbsent (4 * (x % 2 ^ 20)) (4 * (x / 2 ^ 20 % 128)) = false)
    {ts : List Nat} (tokens : ((List.range (x / 2 ^ 20 % 128)).map fun j => s.loadLocal (4 * (x % 2 ^ 20) + 4 * j) 4) = ts)
    (right : ∀ t ∈ ts, t < 2 ^ 24) {d : Die} (step : (s.die (dieOf s.cur)).draftStep (s.core.reg f.a).toNat
      { y with window := y.window ++ ts.map (BitVec.ofNat 24), total := y.total + BitVec.ofNat 64 ts.length } = d) :
    execSdacc f s =
      writeReg (s.setDie (dieOf s.cur) d) f.d (BitVec.ofNat 64 (d.draftSlot (s.core.reg f.a).toNat).window.length) lenA := by
  subst word slot step
  have count : ts.length = (s.core.reg f.b).toNat / 2 ^ 20 % 128 := by rw [← tokens, List.length_map, List.length_range]
  have noneWrong : (ts.find? fun t => 2 ^ 24 ≤ t) = none := by simpa using right
  refine (guarded_true _ _ holds).trans ((checks_pass _ ?closed).trans ((checksOpen_pass _ ?opened).trans ?completes))
  case closed => simpa using ⟨State.draftCheck_pass own, ⟨small, Nat.pos_iff_ne_zero.1 least⟩, most⟩
  case opened => simpa using draftArea_pass area
  case completes =>
    simp only [present, tokens, noneWrong, whileLoading_still _ _ _ still, count, Bool.false_eq_true, if_false]

end

/-- A cap and a quota that the pool holds are set in one draft step (R304). -/
theorem setCaps_completes {s : State} {n cap quota : Nat} (i : Instr) (v : Dword) (len : Nat) {bad : Bool} (good : bad = false)
    (own : Drafts s n) (most : cap ≤ 2 ^ 20) (below : quota ≤ cap) (pool : (s.die (dieOf s.cur)).quotasBut n + quota ≤ 2 ^ 26)
    (still : ((s.die (dieOf s.cur)).draftSlot n).loading = false) : setCaps i n bad v cap quota len s =
      finish (s.setDie (dieOf s.cur) ((s.die (dieOf s.cur)).draftStep n
        { (s.die (dieOf s.cur)).draftSlot n with cap := cap, quota := quota })) len := by
  refine (checks_pass _ ?closed).trans (whileLoading_still _ _ _ still)
  simpa [State.draftCheck_pass own, good, capMax, draftPool] using ⟨⟨most, below⟩, pool⟩

/-- `sdrst` of slots that do not load empties each of them (R305). -/
theorem resetSlots_completes {s : State} {n : Nat} {v : Dword} (i : Instr) (all : Bool) (len : Nat) (least : 1 ≤ v.toNat)
    (most : v.toNat ≤ 8192) (own : ∀ j, j < v.toNat → Drafts s (n + j))
    (still : ∀ x ∈ (s.die (dieOf s.cur)).draft, n ≤ x.1 → x.1 < n + v.toNat → x.2.loading = false) : resetSlots i all n v len s =
      finish (s.setDie (dieOf s.cur) { s.die (dieOf s.cur) with
        draft := (s.die (dieOf s.cur)).draft.map fun x => if n ≤ x.1 ∧ x.1 < n + v.toNat then (x.1, x.2.cleared all) else x }) len := by
  have noneLoads : ((s.die (dieOf s.cur)).draft.any fun x => inRange n v.toNat x.1 && x.2.loading) = false := by
    simpa [inRange] using still
  refine (checks_pass _ ?first).trans ((checks_pass _ ?each).trans ((whileLoading_still _ _ _ noneLoads).trans ?resets))
  case first => simpa [draftSlots] using ⟨State.draftCheck_pass (own 0 least), Nat.pos_iff_ne_zero.1 least, most⟩
  case each =>
    intro c mem
    obtain ⟨j, inside, rfl⟩ := List.mem_map.1 mem
    exact State.draftCheck_pass (own j (List.mem_range.1 inside))
  case resets => simp only [inRange, Bool.and_eq_true, decide_eq_true_eq]

section
variable {s : State} {f : FormA} (holds : Holds s f.gn f.guard) (own : Drafts s (s.core.reg f.a).toNat)
  (still : ((s.die (dieOf s.cur)).draftSlot (s.core.reg f.a).toNat).loading = false)
  (bar : f.sub.getLsbD 0 = true → BarrierOk s (s.core.reg f.d)) (aligned : (s.core.reg f.b).toNat % 64 = 0)
  (small : (s.core.reg f.b).toNat < 2 ^ 52)

section
include own bar aligned small

/-- The checks at the issue of an image's command (R307). -/
theorem draftIssue_pass (go : State → Out) : draftIssue f s go = go s := by
  refine (checks_pass _ ?slot).trans ((checksOpen_pass _ ?aligned).trans (checks_pass _ ?rest))
  case slot => simpa using State.draftCheck_pass own
  case aligned => simpa using aligned
  case rest =>
    exact List.forall_mem_append.2 ⟨by simpa using small, forall_mem_ite_nil fun names => State.barrierChecks_pass (bar names)⟩

end

include holds own still bar aligned small

theorem execSdsave_completes : execSdsave f s =
    finish (s.draftCmd f (.sdsave (dieOf s.cur) (s.core.reg f.a).toNat)
      (draftWords ((s.die (dieOf s.cur)).draftSlot (s.core.reg f.a).toNat))) lenA :=
  (guarded_true _ _ holds).trans ((draftIssue_pass own bar aligned small _).trans (whileLoading_still _ _ _ still))

theorem execSdload_completes : execSdload f s =
    finish ((s.draftCmd f (.sdload (dieOf s.cur) (s.core.reg f.a).toNat) []).setDie (dieOf s.cur)
      (((s.draftCmd f (.sdload (dieOf s.cur) (s.core.reg f.a).toNat) []).die (dieOf s.cur)).setDraft (s.core.reg f.a).toNat
        { (s.die (dieOf s.cur)).draftSlot (s.core.reg f.a).toNat with loading := true })) lenA :=
  (guarded_true _ _ holds).trans ((draftIssue_pass own bar aligned small _).trans (whileLoading_still _ _ _ still))

end

/-- An image that has been read and is right is installed in one step (R309). -/
theorem exec_sdloadInstall_installs {s : State} {n g slot h : Nat} {c : Cmd} (stands : mapGet s.cmds n = some c)
    (kind : c.kind = .sdload g slot) (header : mapGet c.staged 0 = some h) (runs : c.stage = .running)
    (read : c.staged.length = loadLines h) (may : s.cmdMay c = true) (good : headerBad h = false)
    (tokens : tokensBad (h / 2 ^ 32 % 2 ^ 21) ((c.staged.drop 1).map Prod.snd) = false)
    (pool : (s.die g).quotasBut slot + h / 2 ^ 96 % 2 ^ 21 ≤ 2 ^ 26) : exec (.sdloadInstall n) s =
      .next ((s.setDie g ((s.die g).setDraft slot (draftImage h ((c.staged.drop 1).map Prod.snd))).evict).setCmd n
        { c with stage := .complete, bytes := 64 * loadLines h }) := by
  have pool' : ¬ (s.die g).quotasBut slot + h / 2 ^ 96 % 2 ^ 21 > draftPool := not_lt.2 pool
  show execSdloadInstall n s = _
  simp only [execSdloadInstall, stands, kind, header, runs, read, may, good, tokens, pool', ne_eq, not_true_eq_false, decide_false,
    Bool.not_true, Bool.or_self, Bool.false_eq_true, if_false]

end Sys2Proof.Machine

namespace Sys2Proof.Proofs

open Sys2Proof.Machine Sys2Proof.Rules

/-- Settles O41: each instruction goes on where its guard holds and its checks pass; a query is an induction over the places of the
window, and an image an induction over its lines. -/
theorem draftInstructions : Obligations.DraftInstructions := by
  unfold Obligations.DraftInstructions
  refine ⟨⟨?slot, ?sdcap, ?sdrst, ?installs⟩, ?drops, ?query, ?image⟩
  case slot =>
    intro s f e holds c n x ea g d y own still
    refine ⟨?sdq, ?sdacc, ?images⟩
    case sdq =>
      intro comes small least limit area
      rw [exec_of_draftComes rfl comes]
      show execSdq f s = _
      exact (execSdq_completes holds own rfl rfl still small least limit area).trans (writeReg_eq _ _ _ _)
    case sdacc =>
      intro comes small least most area present ts right
      rw [exec_of_draftComes rfl comes]
      show execSdacc f s = _
      exact (execSdacc_completes holds own rfl rfl still small least most area present rfl right rfl).trans (writeReg_eq _ _ _ _)
    case images =>
      intro bar named aligned below
      have ok (names : f.sub.getLsbD 0 = true) : BarrierOk s (s.core.reg f.d) := by
        rw [if_pos names] at named
        exact named.2
      have barrier : bar = if f.sub.getLsbD 0 then some (s.core.reg f.d) else none := by
        split at named
        next names => exact named.1.trans (if_pos names).symm
        next plain => exact named.trans (if_neg plain).symm
      subst barrier
      refine ⟨fun comes => ?sdsave, fun comes => ?sdload⟩
      case sdsave =>
        rw [exec_of_draftComes rfl comes]
        show execSdsave f s = _
        exact execSdsave_completes holds own still ok aligned below
      case sdload =>
        rw [exec_of_draftComes rfl comes]
        show execSdload f s = _
        exact execSdload_completes holds own still ok aligned below
  case sdcap =>
    intro s i n cap quota len e form d t own most below pool still comes
    rcases form with ⟨f, rfl, holds, rfl, word, capSmall, quotaSmall, rfl⟩ | ⟨f, rfl, holds, rfl, nonneg, rfl, rfl, rfl⟩
    · have capField : (s.core.reg f.b).toNat % 2 ^ 21 = cap := by omega
      have quotaField : (s.core.reg f.b).toNat / 2 ^ 32 % 2 ^ 21 = quota := by omega
      rw [exec_of_draftComes rfl comes]
      show execSdcapA f s = _
      refine (guarded_true _ _ holds).trans ?_
      simp only [capField, quotaField]
      exact setCaps_completes _ _ _ (decide_eq_false (not_not.2 word)) own most below pool still
    · rw [exec_of_draftComes rfl comes]
      show execSdcapB f s = _
      refine (guarded_true _ _ holds).trans ?_
      simp only [toNat_imm16 nonneg, toInt_imm16]
      exact setCaps_completes _ _ _ (decide_eq_false (not_lt.2 nonneg)) own most below pool still
  case sdrst =>
    intro s i n k len all e form d clear t least most own still comes
    rcases form with ⟨f, rfl, holds, rfl, rfl, rfl, rfl⟩ | ⟨f, rfl, holds, rfl, rfl, rfl, rfl⟩
    · rw [exec_of_draftComes rfl comes]
      show execSdrstA f s = _
      exact (guarded_true _ _ holds).trans (resetSlots_completes _ _ _ least most own still)
    · rw [exec_of_draftComes rfl comes]
      show execSdrstB f s = _
      exact (guarded_true _ _ holds).trans (resetSlots_completes _ _ _ least most own still)
  case installs =>
    exact fun s n g slot h c stands kind header runs read may good tokens pool =>
      exec_sdloadInstall_installs stands kind header runs read may good tokens pool
  case drops => exact fun x => ⟨rfl, x.length_drop_le, rfl, rfl⟩
  case query =>
    intro w run
    rw [draftQuery_eq]
    refine ⟨fun p earlier => ?longest, fun found => ?latest, matchFrom_none w.reverse w.dropLast⟩
    case longest =>
      exact (runAt_dropLast earlier).symm.le.trans (runAt_le_matchFrom _ _ p (lt_length_dropLast.2 earlier))
    case latest =>
      obtain ⟨q, place, inside, longest, latest⟩ := matchFrom_latest w.reverse w.dropLast found
      have earlier := lt_length_dropLast.1 inside
      refine ⟨q, place, earlier, (runAt_dropLast earlier).symm.trans longest, fun p before same => ?_⟩
      exact latest p (lt_length_dropLast.2 before) ((runAt_dropLast before).trans same)
  case image =>
    intro x capped most quota h
    obtain ⟨hn, -⟩ := draftHeader_fields capped most quota
    obtain ⟨hcap, hquota, htotal, hdropped⟩ := draftImage_header capped most quota []
    exact ⟨headerBad_draftHeader capped most quota, hn, hcap, hquota, htotal, hdropped, draftLine_zero capped most quota,
      tokensBad_tokenLines x, draftImage_tokenLines capped most quota⟩

end Sys2Proof.Proofs

/-! Proofs about the system instructions: `relatch` (R327, R344), `ctxsv` and `ctxld` (R332), the tensor-ID tables (R345), power
controls (R407) and counters (R347). -/

namespace Sys2Proof.Machine

open Sys2Proof.Rules

/-! ### Re-latching (R327, R344) -/

@[simp] theorem State.woMark_cur (s : State) (a : Nat) : (s.woMark a).cur = s.cur := by
  unfold State.woMark
  split
  · rfl
  · simp only []
    repeat' split
    all_goals rfl

@[simp] theorem State.writeCells_cur (s : State) (cells : List Host.Cell) : (s.writeCells cells).cur = s.cur :=
  List.foldlRecOn (motive := fun (t : State) => t.cur = s.cur) _ _ rfl fun t h c _ => (t.woMark_cur c.1).trans h

@[simp] theorem State.drainCore_cur (s : State) (t scope : Nat) : (s.drainCore t scope).cur = s.cur :=
  List.foldlRecOn (motive := fun (t : State) => t.cur = s.cur) _ _ rfl fun t h cells _ => (t.writeCells_cur cells).trans h

/-- The function that a `relatch` names: the owner's choice, else its own (R344). -/
def Core.relatchFn (c : Core) (d : BitVec 5) : Nat := if c.m = 2 then fnOf ((c.reg d).setWidth 5) else fnOf c.fn

/-- A `relatch` whose checks pass drains the core, sends its tokens and waits. -/
theorem execRelatch_sends {s : State} {f : FormA} (holds : Holds s f.gn f.guard) (mode : s.core.m ≠ 0)
    (named : s.core.m = 2 → (s.core.reg f.d).toNat < 32) (va : (s.core.reg f.a).toNat % 2 ^ 16 = 0)
    (size : (s.core.reg f.b).toNat % 2 ^ 16 = 0) (inside : (s.core.reg f.a).toNat + (s.core.reg f.b).toNat ≤ 2 ^ 52) :
    let r := (s.drainCore s.cur 4).sendRelatch (deviceOf s.cur) (s.core.relatchFn f.d) (namedDies (deviceOf s.cur) f.sub)
      (s.core.reg f.a).toNat (s.core.reg f.b).toNat
    execRelatch f s = wait r.1 (.relatch r.2.toNat f.d (s.core.relatchFn f.d) 0) := by
  refine (privileged_pass _ _ mode).trans ((guarded_true _ _ holds).trans ((checksOpen_pass _ ?checks).trans ?sends))
  case checks => simpa using And.intro named ⟨⟨va, size⟩, inside⟩
  case sends => simp only [State.drainCore_cur, Core.relatchFn]

/-- A re-latch has emerged where every record of its number has nothing left. -/
theorem State.emerged_iff {s : State} {dev : Nat} {seq : Word} :
    s.emerged dev seq = true ↔ ∀ r ∈ s.relatches, r.dev = dev → r.seq = seq → r.left = [] := by
  simp [State.emerged, or_iff_not_imp_left]

section
variable {s : State} {t q fn n : Nat} {d : BitVec 5} (waits : Waits s t (.relatch q d fn n))
include waits

theorem execRelatchDone_emerged (emerged : s.emerged (deviceOf t) (BitVec.ofNat 32 q) = true) :
    let u : State := { s.endRelatch (deviceOf t) (BitVec.ofNat 32 q) with cur := t }
    execRelatchDone t s = .next ((u.withCore (u.core.setReg d (BitVec.ofNat 64 q))).resumed lenA) := by
  simp only [execRelatchDone, State.waitOf_some.2 waits, emerged, if_true]

theorem execRelatchTimeout_late (late : relatchLimit ≤ n) (outside : (s.coreOf t).ih = false) :
    execRelatchTimeout t s = .next (((s.endRelatch (deviceOf t) (BitVec.ofNat 32 q)).setCore t
      ((s.coreOf t).enterHandler 0x24 ((s.coreOf t).pc64 + 4) (BitVec.ofNat 64 q))).freezeTenant (deviceOf t) fn 0x24
        [coreCause t 0x24 (BitVec.ofNat 64 q)]) := by
  simp only [execRelatchTimeout, State.waitOf_some.2 waits, Nat.not_lt.2 late, outside, Bool.false_eq_true, if_false]

end

/-! ### Saving and restoring contexts (R332) -/

section
variable {s : State} {f : FormA} (holds : Holds s f.gn f.guard) (mode : s.core.m ≠ 0)
  (barrier : f.sub.getLsbD 2 = true → BarrierOk s (s.core.reg f.d))

include barrier in
theorem State.contextBarrier_pass : ∀ c ∈ s.contextBarrier (f.sub.getLsbD 2) (s.core.reg f.d), c.1 = false :=
  forall_mem_ite_nil fun asked => State.barrierChecks_pass (barrier asked)

include holds mode barrier

theorem execCtxsv_issues
    (checked : ∀ b ∈ s.contextChecks true (f.sub.getLsbD 0) (f.sub.getLsbD 1) (s.core.reg f.a) (s.core.reg f.b), b.1 = false) :
    execCtxsv f s = finish (s.issueContext (.ctxsv (s.core.reg f.a) (f.sub.getLsbD 0) (f.sub.getLsbD 1)) (s.core.reg f.b)
      (if f.sub.getLsbD 2 then some (s.core.reg f.d) else none)) lenA :=
  (privileged_pass _ _ mode).trans ((guarded_true _ _ holds).trans
    ((checksOpen_pass _ checked).trans (checks_pass _ (State.contextBarrier_pass barrier))))

theorem execCtxld_issues
    (checked : ∀ b ∈ s.contextChecks false false (f.sub.getLsbD 1) (s.core.reg f.a) (s.core.reg f.b), b.1 = false)
    (starts : (s.drainCore s.cur 4).startCause (s.core.reg f.a) (f.sub.getLsbD 1) = none) :
    execCtxld f s = finish (s.issueContext (.ctxld (s.core.reg f.a) (f.sub.getLsbD 1)) (s.core.reg f.b)
      (if f.sub.getLsbD 2 then some (s.core.reg f.d) else none)) lenA := by
  refine (privileged_pass _ _ mode).trans ((guarded_true _ _ holds).trans
    ((checksOpen_pass _ checked).trans ((checks_pass _ (State.contextBarrier_pass barrier)).trans ?_)))
  simp only [starts]

end

/-! ### Tensor-ID tables (R345) -/

section
variable {s : State} {f : FormA} (holds : Holds s f.gn f.guard) (access : Accessible s.core (s.core.reg f.a).toNat 64)
  (id : (s.core.reg f.b).toNat < 2 ^ 9)

include access id in
theorem tidChecks_pass (go : State → Out) : tidChecks s.core (s.core.reg f.a) (s.core.reg f.b) s go = go s :=
  (checks_pass _ (localChecks_pass access)).trans (checksOpen_pass _ (by simpa using id))

include holds access id

theorem execTidw_enters (present : s.loadAbsent (s.core.reg f.a).toNat 64 = false)
    (good : entBad (BitVec.ofNat 512 (s.loadLocal (s.core.reg f.a).toNat 64)) = false) : execTidw f s =
    finish ((tidDies s.cur (s.core.reg f.b)).foldl (fun (t : State) g => t.setTid g (fnOf s.core.fn) ((s.core.reg f.b).toNat % 256)
      (BitVec.ofNat 512 (s.loadLocal (s.core.reg f.a).toNat 64))) s) lenA := by
  refine (guarded_true _ _ holds).trans ((tidChecks_pass access id _).trans ?_)
  simp only [present, good, Bool.false_eq_true, if_false]

theorem execTidr_stores : execTidr f s = finish (s.storeLocal (s.core.reg f.a).toNat
    (toBytes (s.tid (dieOf s.cur) (fnOf s.core.fn) ((s.core.reg f.b).toNat % 256)).toNat 64)) lenA :=
  (guarded_true _ _ holds).trans (tidChecks_pass access id _)

end

/-! ### Power controls (R407) -/

theorem ownerOnly_owner {s : State} {sub : BitVec 3} (w : Word) (go : State → Out) (owner : sub ≠ 0 → s.core.m = 2) :
    ownerOnly sub w s go = go s := if_neg (by simpa using owner)

section
variable {s : State} {sub : BitVec 3} {v : Dword} {n : Nat} (len : Nat)

theorem setPower_ceiling (cap : sub = 1) (value : v.toNat = n) (most : n ≤ 10) : setPower sub v len s =
    finish (s.setDie (dieOf s.cur) { s.die (dieOf s.cur) with ceiling := n }) len := by
  subst cap value
  have signed : v.toInt = v.toNat := BitVec.toInt_eq_toNat_of_lt (by omega)
  exact checksOpen_pass _ (by simpa [signed] using most)

theorem setPower_tolerance (lat : sub = 2) (value : v.toNat = n) (small : n < 2 ^ 32) : setPower sub v len s =
    finish (s.setDie (dieOf s.cur) { s.die (dieOf s.cur) with tolerance := n }) len := by
  subst lat value
  have signed : v.toInt = v.toNat := BitVec.toInt_eq_toNat_of_lt (by omega)
  exact checksOpen_pass _ (by simpa [signed] using (Nat.cast_lt (α := Int)).2 small)

end

section
variable {s : State} {f : FormA} (holds : Holds s f.gn f.guard)
include holds

theorem execPwrA_status (status : f.sub = 0) :
    execPwrA f s = writeReg s f.d (s.die (dieOf s.cur)).powerStatus lenA :=
  (ownerOnly_owner _ _ fun other => absurd status other).trans ((guarded_true _ _ holds).trans (if_pos status))

theorem execPwrA_sets (sets : f.sub ≠ 0) (owner : s.core.m = 2) : execPwrA f s = setPower f.sub (s.core.reg f.b) lenA s :=
  (ownerOnly_owner _ _ fun _ => owner).trans ((guarded_true _ _ holds).trans (if_neg sets))

end

theorem execPwrB_sets {s : State} {f : FormB} (holds : Holds s f.gn f.guard) (owner : s.core.m = 2) :
    execPwrB f s = setPower f.sub (imm16 false f.imm16) lenB s :=
  (ownerOnly_owner _ _ fun _ => owner).trans (guarded_true _ _ holds)

/-- A literal below 2^15 is its own value. -/
theorem toNat_imm16_small {v : BitVec 16} (small : v.toNat < 2 ^ 15) : (imm16 false v).toNat = v.toNat :=
  toNat_imm16 (by rw [BitVec.toInt_eq_toNat_of_lt (by omega)]; exact Int.natCast_nonneg _)

/-! ### Counters (R347) -/

/-- A tenant's counter is the core's function's own; a shared one reads as it stands for the owner, and as the last period fixed it
for a tenant. -/
theorem State.counter_tenant {s : State} {t n : Nat} (h : tenantCounter n = true) :
    s.counter t n = (mapGet (s.tenant (deviceOf t) (fnOf (s.coreOf t).fn)).counters n).getD 0 := by
  have range : 0x200 ≤ n ∧ n ≤ 0x207 := by simpa [tenantCounter] using h
  unfold State.counter
  split
  case h_6 => exact if_pos h
  all_goals omega

theorem State.counter_shared {s : State} {t n : Nat} (h : sharedCounter n = true) : s.counter t n =
    if fnOf (s.coreOf t).fn = 16 then (mapGet (s.die (dieOf t)).counters n).getD 0
    else (mapGet (s.tenant (deviceOf t) (fnOf (s.coreOf t).fn)).period (periodKey (dieOf t) n)).getD 0 := by
  have range : 0x300 ≤ n ∧ n ≤ 0x304 := by simpa [sharedCounter] using h
  have other : ¬ tenantCounter n = true := by
    simp only [tenantCounter, Bool.and_eq_true, decide_eq_true_eq]
    omega
  unfold State.counter
  split
  case h_6 => exact if_neg other
  all_goals omega

/-- Clearing one counter of a tenant takes it out of the list. -/
theorem State.clearTenant_one (s : State) (t n : Nat) : s.clearTenant t (· = n) =
    s.setTenant (deviceOf t) (fnOf (s.coreOf t).fn) { s.tenant (deviceOf t) (fnOf (s.coreOf t).fn) with
      counters := mapErase (s.tenant (deviceOf t) (fnOf (s.coreOf t).fn)).counters n } := by
  simp only [State.clearTenant, mapErase, ne_eq, decide_not]

section
variable {s : State} {f : FormB} (holds : Holds s f.gn f.guard)
include holds

theorem execCntr_reads (named : f.imm16.toNat = 0 ∨ coreCounter f.imm16.toNat = true ∨ tenantCounter f.imm16.toNat = true ∨
    sharedCounter f.imm16.toNat = true) : execCntr f s = done s (s.core.setReg f.d (s.counter s.cur f.imm16.toNat)) 8 :=
  (guarded_true _ _ holds).trans ((checksOpen_pass _ (by simpa [or_iff_not_imp_left] using named)).trans (writeReg_eq _ _ _ _))

/-- A `cntc` of one counter clears the counter that it names, a shared one for the owner alone. -/
theorem execCntc_one (named : coreCounter f.imm16.toNat = true ∨ tenantCounter f.imm16.toNat = true ∨
      sharedCounter f.imm16.toNat = true) (owner : sharedCounter f.imm16.toNat = true → fnOf s.core.fn = 16) : execCntc f s =
      if coreCounter f.imm16.toNat then finish (s.clearCore s.cur f.imm16.toNat) lenB
      else if tenantCounter f.imm16.toNat then finish (s.clearTenant s.cur (· = f.imm16.toNat)) lenB
      else finish (s.setDie (dieOf s.cur) { s.die (dieOf s.cur) with
        counters := mapErase (s.die (dieOf s.cur)).counters f.imm16.toNat }) lenB := by
  have one : ¬ f.imm16.toNat = 0x7FFF := by
    intro all
    rw [all] at named
    exact absurd named (by decide)
  refine (guarded_true _ _ holds).trans ((checksOpen_pass _ ?checks).trans (if_neg one))
  case checks =>
    exact List.forall_mem_cons.2 ⟨by simpa [or_iff_not_imp_left, one] using named,
      List.forall_mem_singleton.2 (by simpa using owner)⟩

theorem execCntc_core (core : coreCounter f.imm16.toNat = true) : execCntc f s = finish (s.clearCore s.cur f.imm16.toNat) lenB := by
  have apart : ¬ sharedCounter f.imm16.toNat = true := by
    simp only [coreCounter, sharedCounter, Bool.and_eq_true, decide_eq_true_eq] at core ⊢
    omega
  exact (execCntc_one holds (.inl core) fun shared => absurd shared apart).trans (if_pos core)

/-- A counter of the core or of its tile, by its number. -/
theorem counters_core {k : Nat} (core : coreCounter k = true) (number : f.imm16.toNat = k) :
    execCntr f s = done s (s.core.setReg f.d (s.counter s.cur k)) 8 ∧ execCntc f s = finish (s.clearCore s.cur k) lenB := by
  subst number
  exact ⟨execCntr_reads holds (.inr (.inl core)), execCntc_core holds core⟩

theorem execCntc_tenant (tenant : tenantCounter f.imm16.toNat = true) :
    execCntc f s = finish (s.clearTenant s.cur (· = f.imm16.toNat)) lenB := by
  have apart : ¬ coreCounter f.imm16.toNat = true ∧ ¬ sharedCounter f.imm16.toNat = true := by
    simp only [coreCounter, tenantCounter, sharedCounter, Bool.and_eq_true, decide_eq_true_eq] at tenant ⊢
    omega
  exact (execCntc_one holds (.inr (.inl tenant)) fun shared => absurd shared apart.2).trans ((if_neg apart.1).trans (if_pos tenant))

theorem execCntc_shared (shared : sharedCounter f.imm16.toNat = true) (owner : fnOf s.core.fn = 16) : execCntc f s =
    finish (s.setDie (dieOf s.cur) { s.die (dieOf s.cur) with
      counters := mapErase (s.die (dieOf s.cur)).counters f.imm16.toNat }) lenB := by
  have apart : ¬ coreCounter f.imm16.toNat = true ∧ ¬ tenantCounter f.imm16.toNat = true := by
    simp only [coreCounter, tenantCounter, sharedCounter, Bool.and_eq_true, decide_eq_true_eq] at shared ⊢
    omega
  exact (execCntc_one holds (.inr (.inr shared)) fun _ => owner).trans ((if_neg apart.1).trans (if_neg apart.2))

end

end Sys2Proof.Machine

namespace Sys2Proof.Proofs

open Sys2Proof.Machine Sys2Proof.Rules

/-- Settles O43: each instruction goes on where its guard holds and its checks pass, and the end of a wait is what its act finds of
the re-latch. -/
theorem systemInstructions : Obligations.SystemInstructions := by
  unfold Obligations.SystemInstructions
  refine ⟨?formA, ?formB, ?waits⟩
  case formA =>
    intro s f holds c dev die ra rb
    refine ⟨?relatch, ?ctxsv, ?ctxld, ?tid, fun status => ?status, ?cap, ?lat⟩
    case relatch => exact fun mode named va size inside => execRelatch_sends holds mode named va size inside
    case ctxsv => exact fun mode checked barrier => execCtxsv_issues holds mode barrier checked
    case ctxld => exact fun mode checked barrier starts => execCtxld_issues holds mode barrier checked starts
    case tid =>
      exact fun access id => ⟨fun present good => execTidw_enters holds access id present good, execTidr_stores holds access id⟩
    case status => exact (execPwrA_status holds status).trans (writeReg_eq _ _ _ _)
    case cap => exact fun cap owner most => (execPwrA_sets holds (by simp [cap]) owner).trans (setPower_ceiling _ cap rfl most)
    case lat => exact fun lat owner small => (execPwrA_sets holds (by simp [lat]) owner).trans (setPower_tolerance _ lat rfl small)
  case formB =>
    intro s f holds c die d x n
    refine ⟨?cap, ?lat, ?counters⟩
    case cap =>
      exact fun cap owner most => (execPwrB_sets holds owner).trans
        (setPower_ceiling _ cap (toNat_imm16_small (Nat.lt_of_le_of_lt most (by decide))) most)
    case lat =>
      exact fun lat owner small => (execPwrB_sets holds owner).trans
        (setPower_tolerance _ lat (toNat_imm16_small small) (small.trans (by decide)))
    case counters =>
      intro reads clears
      refine ⟨fun zero => ?micros, counters_core holds (by decide), counters_core holds (by decide), counters_core holds (by decide),
        counters_core holds (by decide), fun least most => ?tenant, fun least most owner => ?owners, fun least most other => ?fixed⟩
      case micros =>
        exact (execCntr_reads holds (.inl zero)).trans (congrArg (fun m => done s (c.setReg f.d (s.counter s.cur m)) 8) zero)
      case tenant =>
        have tenant : tenantCounter n = true := by simpa [tenantCounter] using And.intro least most
        exact ⟨(execCntr_reads holds (.inr (.inr (.inl tenant)))).trans
          (congrArg (fun v => done s (c.setReg f.d v) 8) (State.counter_tenant tenant)),
          (execCntc_tenant holds tenant).trans (congrArg (fun t => finish t lenB) (s.clearTenant_one s.cur n))⟩
      case owners =>
        have shared : sharedCounter n = true := by simpa [sharedCounter] using And.intro least most
        exact ⟨(execCntr_reads holds (.inr (.inr (.inr shared)))).trans
          (congrArg (fun v => done s (c.setReg f.d v) 8) ((State.counter_shared shared).trans (if_pos owner))),
          execCntc_shared holds shared owner⟩
      case fixed =>
        have shared : sharedCounter n = true := by simpa [sharedCounter] using And.intro least most
        exact (execCntr_reads holds (.inr (.inr (.inr shared)))).trans
          (congrArg (fun v => done s (c.setReg f.d v) 8) ((State.counter_shared shared).trans (if_neg other)))
  case waits =>
    intro s t q fn n d waits dev u c v
    exact ⟨fun emerged => execRelatchDone_emerged waits (State.emerged_iff.2 emerged),
      fun late outside => execRelatchTimeout_late waits late outside⟩

end Sys2Proof.Proofs

/-! Proofs about hardware faults and alarms (R336, R342, R352, R402, R408), and about submission queues (R396, R397). -/

namespace Sys2Proof.Machine

open Sys2Proof.Rules

/-! ### Writes, walks and events leave a tenant's state (R94, R197, R362) -/

@[simp] theorem State.writeM_tenant_state (s : State) (a : Nat) (bs : List Byte) (d fn : Nat) :
    ((s.writeM a bs).tenant d fn).state = (s.tenant d fn).state := by
  obtain ⟨n, written⟩ := s.writeM_tenant a bs d fn
  rw [written]

@[simp] theorem State.machineWrite_tenant_state (s : State) (a : Nat) (bs : List Byte) (d fn : Nat) :
    ((s.machineWrite a bs).tenant d fn).state = (s.tenant d fn).state := s.writeM_tenant_state a bs d fn

@[simp] theorem State.wakeDie_devices (s : State) (g : Nat) : (s.wakeDie g).devices = s.devices := by
  rcases s.wakeDie_cases g with still | wakes
  · rw [still]
  · rw [wakes, State.setDie_devices]

@[simp] theorem State.post_devices (s : State) (t kind source data : Nat) : (s.post t kind source data).devices = s.devices := by
  obtain ⟨c, posted⟩ := s.post_cases t kind source data
  rw [posted, State.setCore_devices, State.wakeDie_devices]

/-- What a tenant is stands in its device. -/
theorem State.tenant_congr {s t : State} (same : t.devices = s.devices) (d fn : Nat) : t.tenant d fn = s.tenant d fn := by
  rw [State.tenant, State.tenant, State.device, State.device, same]

theorem State.walk_tenant_state (s : State) (gdie fn' va access d fn : Nat) :
    ((s.walk gdie fn' va access).1.tenant d fn).state = (s.tenant d fn).state := by
  have ticked (p : Prop) [Decidable p] : (if p then { s with tick := s.tick + 1 } else s).tenant d fn = s.tenant d fn := by
    split <;> rfl
  unfold State.walk
  split
  case h_1 => rfl
  case h_2 =>
    simp only []
    split
    · rw [ticked]
    · rw [State.machineWrite_tenant_state, ticked]

theorem State.deviceWrite_tenant_state (s : State) (r : HeldWrite) (d fn : Nat) :
    ((s.deviceWrite r).tenant d fn).state = (s.tenant d fn).state := by
  have walked := s.walk_tenant_state r.gdie r.fn r.va 1 d fn
  simp only [State.deviceWrite]
  split
  · rfl
  · split
    case h_1 u _ walk => rwa [walk] at walked
    case h_2 u l walk =>
      rw [walk] at walked
      split
      · exact (u.writeM_tenant_state _ _ d fn).trans walked
      · rw [State.tenant_congr (State.post_devices _ _ _ _ _)]
        exact (u.writeM_tenant_state _ _ d fn).trans walked

/-! ### The freeze of a tenant, and the erasure of its key (R316, R336, R402) -/

/-- A tenant is in the state that it takes, once its status is written. -/
theorem State.setTenantState_tenant_state (s : State) (dev fn : Nat) (st : TenantState) :
    ((s.setTenantState dev fn st).tenant dev fn).state = st := by
  refine (State.deviceWrite_tenant_state _ _ dev fn).trans ?_
  rw [State.tenant_setTenant_same]

theorem State.freezeTenant_fatal {s : State} {dev fn : Nat} (present : (s.tenant dev fn).state ≠ .absent) (code : BitVec 7)
    (chain : List ChainEntry) : ((s.freezeTenant dev fn code chain).tenant dev fn).state = .fatal := by
  have freezes : ((s.tenant dev fn).state = .absent && fn ≠ 16) = false := by simp [present]
  simp only [State.freezeTenant, freezes, Bool.false_eq_true, if_false]
  exact State.setTenantState_tenant_state _ _ _ _

theorem State.fatal_tenant_state {s : State} {dev fn : Nat} (present : (s.tenant dev fn).state ≠ .absent) (code : BitVec 7) :
    ((s.fatal dev fn code).tenant dev fn).state = .fatal :=
  State.freezeTenant_fatal (s := s.free.1) present _ _

/-- The erasure of a tenant's key changes nothing else of the tenant. -/
theorem State.eraseKey_tenant (s : State) (dev fn : Nat) : (s.eraseKey dev fn).tenant dev fn = { s.tenant dev fn with key := none } :=
  State.tenant_setTenant_same _ _ _ _

/-! ### Hardware faults (R342, R352, R408) -/

section
variable {s : State}

theorem exec_eccUncorrectable_present {dev fn : Nat} (present : (s.tenant dev fn).state ≠ .absent) :
    exec (.eccUncorrectable dev fn) s = .next (s.fatal dev fn 0x53) :=
  congrArg Host.Outcome.next (if_neg present)

theorem exec_eccUncorrectable_absent {dev fn : Nat} (absent : (s.tenant dev fn).state = .absent) :
    exec (.eccUncorrectable dev fn) s = .next s :=
  congrArg Host.Outcome.next (if_pos absent)

/-- Where the owner has no region, a lost die strikes tenants alone. -/
theorem exec_dieLost_tenants {g : Nat} (others : ∀ x ∈ s.regions, x.2.fn ≠ 16) :
    let u := (s.tenantsOn g).foldl (fun (u : State) fn => u.fatal (g / 2) fn 0x51) s
    exec (.dieLost g) s = .next { u.setDie g { u.die g with lost := true } with strikes := u.strikes ++ [(g / 2, g % 2, 16)] } := by
  have none : (s.regions.filter fun r => r.2.fn = 16 && r.2.tiles.any fun t => dieOf t = g) = [] :=
    List.filter_eq_nil_iff.2 fun x mem => by simp [others x mem]
  show execDieLost g s = _
  simp only [execDieLost, none, List.map_nil, List.foldl_nil]
  rfl

/-- The tenants that a thermal trip hits become fatal, and the clock stops. -/
theorem exec_thermalTrip_tenants (g : Nat) :
    let u := (s.tenantsOn g).foldl (fun (u : State) fn => u.fatal (g / 2) fn 0x55) s
    exec (.thermalTrip g) s = .next (u.setDie g { u.die g with stopped := true }) := rfl

/-- The tenants that hold a tile without a spare become fatal, and it is disabled. -/
theorem exec_spareExhausted_tenants (g : Nat) :
    let t := g % 2 * 80 + s.free.2.toNat % 80
    let u := ((s.others (g / 2) 16).filter fun fn => s.ownsTile (g / 2) fn t).foldl
      (fun (u : State) fn => u.fatal (g / 2) fn 0x56) s.free.1
    exec (.spareExhausted g) s =
      .next (u.setDie g { u.die g with disabled := ((g / 2 * 160 + t) :: (u.die g).disabled).eraseDups }) := rfl

/-! ### Alarms (R402) -/

theorem exec_securityAlarm_tenant {dev fn : Nat} (present : (s.tenant dev fn).state ≠ .absent) (tenant : fn ≠ 16) :
    exec (.securityAlarm dev 2 fn) s = .next ((s.fatal dev fn 0x54).eraseKey dev fn) :=
  congrArg Host.Outcome.next (if_neg (by simp [present, tenant]))

end

theorem exec_securityAlarm_device (s : State) (dev fn : Nat) : ∃ u : State, exec (.securityAlarm dev 3 fn) s =
    .next (u.setDevice dev { u.device dev with ownerKey := none, frozen := true }) := ⟨_, rfl⟩

/-! ### Submission queues (R396, R397) -/

/-- The base keeps no bit below its alignment. -/
theorem ofNat_and_page (v : Nat) : BitVec.ofNat 64 v &&& ~~~0xFFF#64 = BitVec.ofNat 64 (v / 4096 * 4096) := by
  refine BitVec.eq_of_getLsbD_eq fun i inside => ?_
  have mask : (~~~0xFFF#64).getLsbD i = decide (12 ≤ i) := by
    rw [show (0xFFF#64) = BitVec.ofNat 64 (2 ^ 12 - 1) from rfl, BitVec.getLsbD_not, BitVec.getLsbD_ofNat, Nat.testBit_two_pow_sub_one,
      Bool.eq_iff_iff]
    simp [inside]
  have page : (v / 4096 * 4096).testBit i = (decide (12 ≤ i) && v.testBit i) := by
    rw [show (4096 : Nat) = 2 ^ 12 from rfl, Nat.testBit_mul_two_pow, Nat.testBit_div_two_pow]
    by_cases above : 12 ≤ i
    · simp [above]
    · simp [above]
  rw [BitVec.getLsbD_and, mask, BitVec.getLsbD_ofNat, BitVec.getLsbD_ofNat, page, Bool.and_comm (decide (12 ≤ i)), Bool.and_assoc]

section
variable (x : SubQueue) (v : Nat)

theorem SubQueue.write_base :
    x.write 0 (BitVec.ofNat 64 v) = { x with qbase := BitVec.ofNat 64 (v / 4096 * 4096) } := by
  rw [SubQueue.write, ofNat_and_page]

theorem SubQueue.write_control : x.write 8 (BitVec.ofNat 64 v) = { x with
    err := x.err && !v.testBit 9, enable := v.testBit 8 && decide (4 ≤ v % 32) && decide (v % 32 ≤ 16), qsize := BitVec.ofNat 5 v } := by
  have size : (BitVec.ofNat 64 v).extractLsb' 0 5 = BitVec.ofNat 5 v := by
    apply BitVec.eq_of_toNat_eq
    simp
  simp [SubQueue.write, size, BitVec.getLsbD_ofNat, -BitVec.getLsbD_eq_getElem]

theorem SubQueue.write_tail : x.write 0x10 (BitVec.ofNat 64 v) = { x with tail := BitVec.ofNat 16 v } := by
  have tail : (BitVec.ofNat 64 v).extractLsb' 0 16 = BitVec.ofNat 16 v := by
    apply BitVec.eq_of_toNat_eq
    simp
  rw [SubQueue.write, tail]

end

theorem State.setSubQueue_none {dev fn q : Nat} (s : State) (x : SubQueue) (beyond : 8 ≤ q) : s.setSubQueue dev fn q x = s :=
  if_neg (Nat.not_lt.2 beyond)

section
variable {s : State} {dev fn q : Nat} (reaches : s.hostReaches dev = true)
include reaches

theorem exec_doorbell_reached (tail : Nat) : exec (.doorbell dev fn q tail) s =
    .next ((s.wakeDevice dev).setSubQueue dev fn q { s.subQueue dev fn q with tail := BitVec.ofNat 16 tail }) :=
  congrArg Host.Outcome.next (if_pos reaches)

theorem exec_queueRegisterWrite_reached (off v : Nat) : exec (.queueRegisterWrite dev fn q off v) s =
    .next ((if off = 0x10 then s.wakeDevice dev else s).setSubQueue dev fn q ((s.subQueue dev fn q).write off (BitVec.ofNat 64 v))) :=
  congrArg Host.Outcome.next (if_pos reaches)

end

section
variable {s : State} {dev fn q : Nat} (cut : s.hostReaches dev = false)
include cut

theorem exec_doorbell_cut (tail : Nat) : exec (.doorbell dev fn q tail) s = .next s :=
  congrArg Host.Outcome.next (if_neg (Bool.eq_false_iff.1 cut))

theorem exec_queueRegisterWrite_cut (off v : Nat) : exec (.queueRegisterWrite dev fn q off v) s = .next s :=
  congrArg Host.Outcome.next (if_neg (Bool.eq_false_iff.1 cut))

theorem exec_queueEntrySubmit_cut : exec (.queueEntrySubmit dev fn q) s = .next s :=
  if_pos (by simp [cut])

end

/-- The entry at a queue's head (R397; log entry 48). -/
def State.queueEntry (s : State) (dev : Nat) (x : SubQueue) : Nat :=
  s.mem.num (hostPa dev (x.qbase.toNat + 64 * (x.head.toNat % x.entries))) 64

/-- The context that an entry asks for on the die of its home tile (R397). -/
def State.takeEntry (s : State) (dev fn v : Nat) : State × Option Nat :=
  s.takeCtx fn (dev * 160 + bitsOf v 87 80) (bitsOf v 51 0) (bitsOf v 79 64) (s.coreOf (dev * 160 + bitsOf v 87 80)).user

section
variable {s : State} {dev fn q : Nat} (work : (s.subQueue dev fn q).hasWork = true) (may : s.mayRun dev fn = true)
  (awake : (s.device dev).frozen = false) (reaches : s.hostReaches dev = true) (clock : s.dieStopped (2 * dev) = false)
include work may awake reaches clock

theorem exec_queueEntrySubmit_bad (bad : s.entryBad dev fn (s.queueEntry dev (s.subQueue dev fn q)) = true) :
    exec (.queueEntrySubmit dev fn q) s =
      .next (s.setSubQueue dev fn q { s.subQueue dev fn q with err := true, enable := false }) :=
  (if_neg (by simp [work, may, awake, reaches, clock])).trans (if_pos bad)

variable (good : s.entryBad dev fn (s.queueEntry dev (s.subQueue dev fn q)) = false)
include good

theorem exec_queueEntrySubmit_good : exec (.queueEntrySubmit dev fn q) s =
    match s.takeEntry dev fn (s.queueEntry dev (s.subQueue dev fn q)) with
    | (_, none) => .next s
    | (u, some _) => .next (u.setSubQueue dev fn q { s.subQueue dev fn q with
        head := BitVec.ofNat 16 (((s.subQueue dev fn q).head.toNat + 1) % (s.subQueue dev fn q).entries) }) :=
  (if_neg (by simp [work, may, awake, reaches, clock])).trans (if_neg (Bool.eq_false_iff.1 good))

/-- A right entry waits while its die has no free context. -/
theorem exec_queueEntrySubmit_full (full : (s.takeEntry dev fn (s.queueEntry dev (s.subQueue dev fn q))).2 = none) :
    exec (.queueEntrySubmit dev fn q) s = .next s := by
  rw [exec_queueEntrySubmit_good work may awake reaches clock good, ← Prod.eta (s.takeEntry _ _ _), full]

/-- A right entry takes a context, and the head moves on. -/
theorem exec_queueEntrySubmit_taken {n : Nat} (taken : (s.takeEntry dev fn (s.queueEntry dev (s.subQueue dev fn q))).2 = some n) :
    exec (.queueEntrySubmit dev fn q) s =
      .next ((s.takeEntry dev fn (s.queueEntry dev (s.subQueue dev fn q))).1.setSubQueue dev fn q { s.subQueue dev fn q with
        head := BitVec.ofNat 16 (((s.subQueue dev fn q).head.toNat + 1) % (s.subQueue dev fn q).entries) }) := by
  rw [exec_queueEntrySubmit_good work may awake reaches clock good, ← Prod.eta (s.takeEntry _ _ _), taken]

end

end Sys2Proof.Machine

namespace Sys2Proof.Proofs

open Sys2Proof.Machine Sys2Proof.Rules

/-- Settles O52: each fault makes fatal the tenants that it finds, a freeze ends with the status of a FATAL tenant, and a queue's
registers and entries go by their bits. -/
theorem faultsAndQueues : Obligations.FaultsAndQueues := by
  unfold Obligations.FaultsAndQueues
  refine ⟨?ecc, ?dies, ?alarms, ?registers, ?entries, ?still⟩
  case ecc => exact fun s dev fn => ⟨exec_eccUncorrectable_present, exec_eccUncorrectable_absent⟩
  case dies =>
    intro s g stopped
    refine ⟨fun none => ?quiet, fun fn one => ?trips, ?lost, ?spare⟩
    case quiet => rw [exec_thermalTrip_tenants, none]; rfl
    case trips => rw [exec_thermalTrip_tenants, one]; rfl
    case lost =>
      intro others lost
      exact ⟨fun none => by rw [exec_dieLost_tenants others, none]; rfl,
        fun fn one => by rw [exec_dieLost_tenants others, one]; rfl⟩
    case spare =>
      intro u t out
      refine ⟨fun unheld => ?unheld, fun fn one held => ?held⟩
      case unheld =>
        have none : ((s.others (g / 2) 16).filter fun fn => s.ownsTile (g / 2) fn t) = [] := by
          simpa [List.filter_eq_nil_iff] using unheld
        exact (exec_spareExhausted_tenants g).trans (by rw [none]; rfl)
      case held =>
        have one' : ((s.others (g / 2) 16).filter fun fn => s.ownsTile (g / 2) fn t) = [fn] := by simp [one, held]
        exact (exec_spareExhausted_tenants g).trans (by rw [one']; rfl)
  case alarms =>
    refine fun s dev fn => ⟨rfl, fun present tenant => ?second, ?third⟩
    case second =>
      refine ⟨_, exec_securityAlarm_tenant present tenant, ?_⟩
      rw [State.eraseKey_tenant]
      exact ⟨rfl, State.fatal_tenant_state present _⟩
    case third =>
      obtain ⟨u, freezes⟩ := exec_securityAlarm_device s dev fn
      refine ⟨_, freezes, ?_⟩
      rw [State.device_setDevice_same]
      exact ⟨rfl, rfl⟩
  case registers =>
    intro s dev fn q tail v _ reaches x
    refine ⟨exec_doorbell_reached reaches tail, ?base, ?control, ?tail⟩
    case base => rw [exec_queueRegisterWrite_reached reaches, SubQueue.write_base]; rfl
    case control => rw [exec_queueRegisterWrite_reached reaches, SubQueue.write_control]; rfl
    case tail => rw [exec_queueRegisterWrite_reached reaches, SubQueue.write_tail]; rfl
  case entries =>
    intro s dev fn q x enabled ahead may awake reaches clock v home takes
    have work : x.hasWork = true := by
      simp only [SubQueue.hasWork, enabled, Bool.true_and]
      exact decide_eq_true ahead
    exact ⟨exec_queueEntrySubmit_bad work may awake reaches clock, fun good =>
      ⟨exec_queueEntrySubmit_full work may awake reaches clock good,
        fun n => exec_queueEntrySubmit_taken work may awake reaches clock good⟩⟩
  case still =>
    intro s dev fn q tail off v
    refine ⟨fun reaches beyond => ?beyond, fun cut => ?cut⟩
    case beyond =>
      rw [exec_doorbell_reached reaches, exec_queueRegisterWrite_reached reaches]
      exact ⟨congrArg Host.Outcome.next (State.setSubQueue_none _ _ beyond),
        congrArg Host.Outcome.next (State.setSubQueue_none _ _ beyond)⟩
    case cut =>
      exact ⟨exec_doorbell_cut cut tail, exec_queueRegisterWrite_cut cut off v, exec_queueEntrySubmit_cut cut⟩

end Sys2Proof.Proofs

/-! Proofs about groups and experts: sends (R375, R378, R381, R388), the instructions about messages, readiness and groups (R372, R376,
R382 to R385, R390, R391), and the acts of a send in its tree (R372 to R377, R379, R390). -/

namespace Sys2Proof.Machine

open Sys2Proof.Rules

/-! ### What a write, a drain and a local store leave of a core (R227, R362) -/

/-- What a core holds beside its view and its queue of commands, which the last word of a write-once buffer leaves (R362). -/
def Core.beside (c : Core) : Core := { c with view := { pb := [], sv := [] }, queue := [] }

theorem State.coreOf_congr {s t : State} (same : t.tiles = s.tiles) (u : Nat) : t.coreOf u = s.coreOf u := by
  rw [State.coreOf, State.coreOf, State.tile, State.tile, same]

/-- A tile whose new core differs in view and queue at most changes no core beside those. -/
theorem State.beside_setTile {s : State} {t : Nat} {x : Tile} (h : x.core.beside = (s.coreOf t).beside) (u : Nat) :
    ((s.setTile t x).coreOf u).beside = (s.coreOf u).beside := by
  by_cases here : u = t
  · subst here
    rw [← h, State.coreOf, State.tile_setTile_same]
  · rw [State.coreOf, State.tile_setTile_ne _ _ _ _ here, State.coreOf]

/-- A tile with other write-once buffers, and a core with another queue. -/
def State.setWriteOnce (s : State) (t : Nat) (ws : List WriteOnce) : State := s.setTile t { s.tile t with writeOnce := ws }
def State.setQueue (s : State) (t : Nat) (q : List Nat) : State := s.setCore t { s.coreOf t with queue := q }

/-- The tiles that a write-once word leaves as it becomes present: its buffer has one word more, or it ends and its command leaves
its core's queue (R362). -/
theorem State.woMark_tiles (s : State) (a : Nat) : (s.woMark a).tiles = s.tiles ∨
    (∃ t ws, (s.woMark a).tiles = (s.setWriteOnce t ws).tiles) ∨
    ∃ t ws u q, (s.woMark a).tiles = ((s.setWriteOnce t ws).setQueue u q).tiles := by
  unfold State.woMark
  split
  · exact .inl rfl
  · simp only []
    split
    · exact .inl rfl
    · split
      · exact .inl rfl
      · split
        · split
          all_goals exact .inr (.inr ⟨_, _, _, _, rfl⟩)
        · exact .inr (.inl ⟨_, _, rfl⟩)

theorem State.beside_woMark (s : State) (a u : Nat) : ((s.woMark a).coreOf u).beside = (s.coreOf u).beside := by
  have bound (t : Nat) (ws : List WriteOnce) : ((s.setWriteOnce t ws).coreOf u).beside = (s.coreOf u).beside :=
    State.beside_setTile (x := { s.tile t with writeOnce := ws }) rfl u
  rcases s.woMark_tiles a with same | ⟨t, ws, same⟩ | ⟨t, ws, v, q, same⟩
  · rw [State.coreOf_congr same]
  · rw [State.coreOf_congr same, bound]
  · rw [State.coreOf_congr same, ← bound t ws]
    exact State.beside_setTile (x := { (s.setWriteOnce t ws).tile v with core := { (s.setWriteOnce t ws).coreOf v with queue := q } }) rfl u

theorem State.beside_writeCells (s : State) (cells : List Host.Cell) (u : Nat) :
    ((s.writeCells cells).coreOf u).beside = (s.coreOf u).beside :=
  List.foldlRecOn (motive := fun (t : State) => (t.coreOf u).beside = (s.coreOf u).beside) _ _ rfl
    fun t h c _ => (t.beside_woMark c.1 u).trans h

theorem State.beside_drainCore (s : State) (t scope u : Nat) : ((s.drainCore t scope).coreOf u).beside = (s.coreOf u).beside := by
  have written : (((storesOf (s.coreOf t).view.pb (inScope t scope)).foldl (fun s cells => s.writeCells cells) s).coreOf u).beside =
      (s.coreOf u).beside :=
    List.foldlRecOn (motive := fun (v : State) => (v.coreOf u).beside = (s.coreOf u).beside) _ _ rfl
      fun v h cells _ => (v.beside_writeCells cells u).trans h
  refine (State.beside_setTile ?_ u).trans written
  rfl

/-- A drain leaves of the cores all that stands beside their views and queues. -/
theorem State.drainCore_core (s : State) (scope : Nat) : (s.drainCore s.cur scope).core.beside = s.core.beside := by
  rw [State.core, State.drainCore_cur]
  exact s.beside_drainCore _ _ _

theorem State.writeCells_core (s : State) (cells : List Host.Cell) : (s.writeCells cells).core.beside = s.core.beside := by
  rw [State.core, State.writeCells_cur]
  exact s.beside_writeCells _ _

/-- A local store keeps what stands beside the core's view and queue, also where the ring moves the tile's bytes (R224). -/
theorem State.storeLocal_core (s : State) (a : Nat) (bs : List Byte) :
    (s.storeLocal a bs).cur = s.cur ∧ (s.storeLocal a bs).core.beside = s.core.beside := by
  have stored (t : State) (v : View) : (t.withCore { t.core with view := v }).core.beside = t.core.beside := by
    rw [State.core_withCore]; rfl
  unfold State.storeLocal
  split
  · exact ⟨rfl, stored s _⟩
  · simp only []
    split
    · exact ⟨rfl, stored s _⟩
    · simp only [State.storeRing]
      split
      · exact ⟨State.writeCells_cur _ _, (stored _ _).trans ((State.writeCells_core _ _).trans (stored s _))⟩
      · exact ⟨rfl, (stored _ _).trans (stored s _)⟩

/-! ### Instructions of forms A and B, and those that have waited -/

theorem exec_of_forms {s : State} {i : Instr} {mkA : FormA → Instr} {mkB : FormB → Instr} {sub : BitVec 3} {a d : BitVec 5} {x len : Nat}
    {go : Instr → BitVec 3 → BitVec 5 → BitVec 5 → Nat → Nat → State → Out}
    (form : Forms s mkA mkB i sub a d x len)
    (hA : ∀ f : FormA, f.sub = sub → exec (mkA f) s = guarded f.gn f.guard lenA s fun s =>
      go (mkA f) f.sub f.a f.d (s.core.reg f.b).toNat lenA s)
    (hB : ∀ f : FormB, f.sub = sub → exec (mkB f) s = guarded f.gn f.guard lenB s fun s =>
      go (mkB f) f.sub f.a f.d (imm16 false f.imm16).toNat lenB s) : exec i s = go i sub a d x len s := by
  rcases form with ⟨f, rfl, holds, rfl, rfl, rfl, rfl, rfl⟩ | ⟨f, rfl, holds, rfl, rfl, rfl, rfl, rfl⟩
  · exact (hA f rfl).trans (guarded_true _ _ holds)
  · exact (hB f rfl).trans (guarded_true _ _ holds)

/-- The instructions that wait for a group or for room (R371, R381). -/
def sendInstr : Instr → Bool
  | .gsendA _ | .gsendB _ | .gsendoA _ | .gsendoB _ | .gsendXA _ | .gsendXB _ => true
  | _ => false

/-- A send that has waited comes to what it comes to at once: the wait's end runs it (R381). -/
theorem exec_of_sendComes {s : State} {i : Instr} {e : Host.Outcome State Fault Refusal} (sends : sendInstr i = true)
    (comes : Comes s i (.gsend i) .gsendResume e) : e = exec i s := by
  rcases comes with now | ⟨r, t, rfl, waits, rfl⟩
  · exact now
  · show execGsendResume t r = _
    simp only [execGsendResume, State.waitOf_some.2 waits]
    split
    case h_7 => simp_all only [sendInstr, Bool.false_eq_true]
    all_goals rfl

theorem payloadChecks_pass {c : Core} {ea n : Nat} (ok : PayloadOk c ea n) : ∀ b ∈ payloadChecks c ea n, b.1 = false := by
  obtain ⟨aligned, inside, area⟩ := ok
  have area' : c.m = 0 → supervisorArea ≤ ea := area
  simpa [payloadChecks, spLast, Core.user, aligned, inside] using area'

theorem State.drainCore_sendSeq (s : State) (scope : Nat) : (s.drainCore s.cur scope).core.sendSeq = s.core.sendSeq := by
  simpa [Core.beside] using congrArg Core.sendSeq (s.drainCore_core scope)

theorem State.drainCore_fn (s : State) (scope : Nat) : (s.drainCore s.cur scope).core.fn = s.core.fn := by
  simpa [Core.beside] using congrArg Core.fn (s.drainCore_core scope)

/-- The plain send that a core makes next (R375). -/
def State.nextSend (s : State) (ordered ask : Bool) (g : Nat) (p : List Byte) : Send :=
  { handle := handleOf false ordered g s.cur s.core.sendSeq, sender := s.cur, fn := fnOf s.core.fn, group := g, set := none
    ordered := ordered, ask := ask, payload := p, state := .issued, tried := [], batch := 0 }

theorem State.nextSend_drainCore (s : State) (scope : Nat) (ordered ask : Bool) (g : Nat) (p : List Byte) :
    (s.drainCore s.cur scope).nextSend ordered ask g p = s.nextSend ordered ask g p := by
  simp only [State.nextSend, State.drainCore_cur, State.drainCore_sendSeq, State.drainCore_fn]

/-- A plain send leaves: the drain, the send, and its number (R375, R378). -/
theorem sendAll_plain (s : State) (ordered ask : Bool) (d : BitVec 5) (g : Nat) (p : List Byte) (len : Nat) :
    sendAll none ordered ask 0 d [(g, p)] len s =
      let u := s.drainCore s.cur 4
      done { u with sends := u.sends ++ [s.nextSend ordered ask g p] }
        ({ u.core with sendSeq := s.core.sendSeq + 1 }.setReg d (s.core.sendSeq.setWidth 64)) len := by
  show writeReg (State.leave none ordered ask 0 (s.drainCore s.cur 4) [(g, p)]) d (s.core.sendSeq.setWidth 64) len = _
  rw [← s.nextSend_drainCore 4, ← s.drainCore_sendSeq 4]
  exact (writeReg_withCore _ _ _ _ _).trans (congrArg Host.Outcome.next (State.withCore_withCore _ _ _))

theorem plainSend_sends {s : State} {a : BitVec 5} {x : Nat} {g : Group} (i : Instr) (ordered : Bool) (d : BitVec 5) (len : Nat)
    (small : x < 2 ^ 9) (installed : Installed s (x % 256) g) (ok : PayloadOk s.core (s.core.reg a).toNat 64)
    (present : s.loadAbsent (s.core.reg a).toNat 64 = false) (stands : s.installing (fnOf s.core.fn) (x % 256) = false)
    (room : (s.sendsOf s.cur (fnOf s.core.fn)).length < 64) : plainSend i ordered a d x len s =
      sendAll none ordered (x.testBit 8) 0 d [(x % 256, s.readLocal (s.core.reg a).toNat 64)] len s := by
  have goes : sendWaits s [x % 256] 1 = false := by simpa [sendWaits, stands, retransmitDepth] using room
  have first : ∀ b ∈ [(decide (x / 2 ^ 9 ≠ 0), 0x10#7), ((s.groupOn (deviceOf s.cur) (fnOf s.core.fn) (x % 256)).isNone, 0x10#7)],
      b.1 = false := by simpa [installed] using small
  refine (checksOpen_pass _ (List.forall_mem_append.2 ⟨first, payloadChecks_pass ok⟩)).trans ?_
  simp only [goes, present, Bool.false_eq_true, if_false]

theorem expertSend_sends {s : State} {a : BitVec 5} {x : Nat} {y : ExpertSet} (i : Instr) (d : BitVec 5) (len : Nat)
    (small : x < 2 ^ 9) (plain : x / 2 ^ 4 % 16 = 0) (set : s.expertSet (deviceOf s.cur) (fnOf s.core.fn) (x % 16) = some y)
    (groups : ∀ j, j < y.groups → (s.groupOn (deviceOf s.cur) (fnOf s.core.fn) (y.gbase + j)).isSome = true ∧
      s.installing (fnOf s.core.fn) (y.gbase + j) = false)
    (ok : PayloadOk s.core (s.core.reg a).toNat (8 + 4 * y.groups * y.experts))
    (present : s.loadAbsent (s.core.reg a).toNat (8 + 4 * y.groups * y.experts) = false)
    (room : (s.sendsOf s.cur (fnOf s.core.fn)).length + min y.kg y.groups ≤ 64) : expertSend i a d x len s =
      let bs := s.readLocal (s.core.reg a).toNat (8 + 4 * y.groups * y.experts)
      let v := biasedScores (wordsAt bs 8 (y.groups * y.experts)) (s.core.expert (x % 16)).bias
      sendAll (some (x % 16)) false (x.testBit 8) (s.core.expert (x % 16)).batch d
        ((chooseGroups y v.1).map fun g => (y.gbase + g, expertPayload (bs.take 8) (scoreRow y v.1 g))) len
        (s.withCore { s.core with flags := s.core.flags ||| v.2 }) := by
  have goes : sendWaits s y.sendGroups (min y.kg y.groups) = false := by
    simpa [sendWaits, ExpertSet.sendGroups, retransmitDepth, room] using fun j inside => (groups j inside).2
  have first : ∀ b ∈ [(y.sendGroups.any fun g => (s.groupOn (deviceOf s.cur) (fnOf s.core.fn) g).isNone, 0x10#7)], b.1 = false := by
    simpa [ExpertSet.sendGroups, Option.isSome_iff_ne_none] using fun j inside => (groups j inside).1
  have word : (decide (x / 2 ^ 9 ≠ 0) || decide (x / 2 ^ 4 % 16 ≠ 0)) = false := by simpa using And.intro small plain
  simp only [expertSend, word, set, Bool.false_eq_true, if_false]
  refine (checksOpen_pass _ (List.forall_mem_append.2 ⟨first, payloadChecks_pass ok⟩)).trans ?_
  simp only [goes, present, Bool.false_eq_true, if_false]
  rfl

end Sys2Proof.Machine

namespace Sys2Proof.Proofs

open Sys2Proof.Machine Sys2Proof.Rules

/-- Settles O38: a send whose checks pass and that has room drains the core and leaves with the core's next number, and one that has
waited is run again. -/
theorem groupSends : Obligations.GroupSends := by
  unfold Obligations.GroupSends
  refine ⟨?plain, ?expert⟩
  case plain =>
    intro s i sub a d x len ordered g e form comes small installed ea fn ok present stands room u q send
    have runs : exec i s = plainSend i ordered a d x len s := by
      rcases form with ⟨form, rfl⟩ | ⟨form, rfl⟩
      · exact exec_of_forms (go := fun i _ => plainSend i false) form (fun _ _ => rfl) fun _ _ => rfl
      · exact exec_of_forms (go := fun i _ => plainSend i true) form (fun _ _ => rfl) fun _ _ => rfl
    have sends : sendInstr i = true := by
      rcases form with ⟨⟨f, rfl, -⟩ | ⟨f, rfl, -⟩, -⟩ | ⟨⟨f, rfl, -⟩ | ⟨f, rfl, -⟩, -⟩
      all_goals rfl
    rw [exec_of_sendComes sends comes, runs, plainSend_sends i ordered d len small installed ok present stands room]
    exact sendAll_plain s ordered (x.testBit 8) d (x % 256) _ len
  case expert =>
    intro s i sub a d x len y z e form comes small plain held ea fn n set groups ok present room bs v out u
    subst held
    have sends : sendInstr i = true := by
      rcases form with ⟨f, rfl, -⟩ | ⟨f, rfl, -⟩
      all_goals rfl
    rw [exec_of_sendComes sends comes, exec_of_forms (go := fun i _ => expertSend i) form (fun _ _ => rfl) fun _ _ => rfl,
      expertSend_sends i d len small plain set groups ok present room, sendAll, writeReg_eq]
    simp only [State.core_withCore]
    rfl

end Sys2Proof.Proofs

/-! Proofs about the instructions of messages, readiness and groups (R372, R376, R382 to R385, R390, R391). -/

namespace Sys2Proof.Machine

open Sys2Proof.Rules

/-! ### Receiving (R378, R382) -/

theorem find?_append_cons {α : Type} {p : α → Bool} {l r : List α} {m : α} (before : ∀ k ∈ l, p k = false) (hit : p m = true) :
    (l ++ m :: r).find? p = some m := by
  rw [List.find?_append, List.find?_eq_none.2 fun k mem => Bool.eq_false_iff.1 (before k mem), List.find?_cons_of_pos hit, Option.none_or]

/-- What `grecv` does with the message that it finds (R378, R382). -/
def takeMessage (ea : Nat) (d : BitVec 5) (len : Nat) (s : State) : Option Message → Out
  | none => writeReg s d (-1) len
  | some m =>
    let t := s.storeLocal ea m.payload
    writeReg ((t.withCore { t.core with received := t.core.received.erase m, toAck := m.handle :: t.core.toAck }).refreshCore t.cur 4)
      d (BitVec.ofNat 64 m.handle) len

section
variable {s : State} {a d : BitVec 5} {x len : Nat} (small : x < 2 ^ 9)
  (named : x.testBit 8 = false → ∃ g, Installed s (x % 256) g) (ok : PayloadOk s.core (s.core.reg a).toNat 64)
include small named ok

/-- A `grecv` whose checks pass goes by the oldest message that its word names. -/
theorem receive_passes : receive a d x len s =
    takeMessage (s.core.reg a).toNat d len s (s.core.received.find? fun m => x.testBit 8 || m.group = x % 256) := by
  have group : (!x.testBit 8 && (s.groupOn (deviceOf s.cur) (fnOf s.core.fn) (x % 256)).isNone) = false := by
    cases all : x.testBit 8 with
    | true => rfl
    | false =>
      obtain ⟨g, installed⟩ := named all
      simp [installed]
  have first : ∀ b ∈ [(decide (x / 2 ^ 9 ≠ 0), 0x10#7),
      (!x.testBit 8 && (s.groupOn (deviceOf s.cur) (fnOf s.core.fn) (x % 256)).isNone, 0x10#7)], b.1 = false := by
    simpa [group] using small
  refine (checksOpen_pass _ (List.forall_mem_append.2 ⟨first, payloadChecks_pass ok⟩)).trans ?_
  unfold takeMessage
  cases s.core.received.find? fun m => x.testBit 8 || m.group = x % 256 with
  | none => rfl
  | some m => rfl

theorem receive_none (none : ∀ m ∈ s.core.received, x.testBit 8 = false ∧ m.group ≠ x % 256) :
    receive a d x len s = writeReg s d (-1) len := by
  have found : (s.core.received.find? fun m => x.testBit 8 || m.group = x % 256) = Option.none :=
    List.find?_eq_none.2 fun m mem => by simp [none m mem]
  rw [receive_passes small named ok, found]
  rfl

theorem receive_some {l r : List Message} {m : Message} (queue : s.core.received = l ++ m :: r)
    (before : ∀ k ∈ l, x.testBit 8 = false ∧ k.group ≠ x % 256 ∧ k ≠ m) (hit : x.testBit 8 = true ∨ m.group = x % 256) :
    receive a d x len s =
      let t := s.storeLocal (s.core.reg a).toNat m.payload
      writeReg ((t.withCore { t.core with received := l ++ r, toAck := m.handle :: s.core.toAck }).refreshCore s.cur 4)
        d (BitVec.ofNat 64 m.handle) len := by
  have found : (s.core.received.find? fun m => x.testBit 8 || m.group = x % 256) = some m := by
    rw [queue]
    exact find?_append_cons (fun k mem => by simp [before k mem]) (by simpa using hit)
  have kept := (s.storeLocal_core (s.core.reg a).toNat m.payload).2
  have received : (s.storeLocal (s.core.reg a).toNat m.payload).core.received = s.core.received := by
    simpa [Core.beside] using congrArg Core.received kept
  have toAck : (s.storeLocal (s.core.reg a).toNat m.payload).core.toAck = s.core.toAck := by
    simpa [Core.beside] using congrArg Core.toAck kept
  have new : m ∉ l := fun mem => (before m mem).2.2 rfl
  rw [receive_passes small named ok, found]
  simp only [takeMessage, received, toAck, queue, List.erase_append_right _ new, List.erase_cons_head, (s.storeLocal_core _ _).1]

end

/-! ### Readiness (R372, R383) -/

theorem changeReady_changes {s : State} {a : BitVec 5} {x m : Nat} {g : Group} (more : Bool) (d : BitVec 5) (len : Nat) (small : x < 2 ^ 8)
    (amount : (s.core.reg a).toNat < 2 ^ 32) (installed : Installed s x g) (member : g.memberOf s.cur = some m) :
    changeReady more a d x len s =
      let c := s.core
      let k := if more then min (c.reg a).toNat (64 - c.committed) else min (c.reg a).toNat (c.readiness x)
      writeReg ((s.withCore (c.setReadiness x (if more then c.readiness x + k else c.readiness x - k))).tellReady
        (groupKey (fnOf c.fn) x) m g (if more then (k : Int) else -(k : Int))) d (BitVec.ofNat 64 k) len := by
  refine (checksOpen_pass _ ?checks).trans ?_
  case checks => simpa using And.intro small amount
  simp only [installed, member]

/-! ### Acknowledging (R376, R384) -/

theorem execGack_acks {s : State} {f : FormA} {x : Send} (holds : Holds s f.gn f.guard)
    (found : s.sends.find? (fun x => x.handle = (s.core.reg f.a).toNat && x.fn = fnOf s.core.fn) = some x) (plain : x.set = none)
    (mine : (s.core.reg f.a).toNat ∈ s.core.toAck) : execGack f s =
      finish ((s.drainCore s.cur 4).notify
        { send := x.key, ack := true, tile := s.cur, sender := x.sender, set := none, batch := x.batch, index := 0, chosen := 0 }) lenA := by
  refine (guarded_true _ _ holds).trans ?_
  simp [found, plain, mine]

/-! ### The masks of a group (R391) -/

/-- The masks of a set's experts on the dies of a group's members. -/
def State.memberMasks (s : State) (fn set index : Nat) (g : Group) : List (BitVec 16) :=
  (g.records.filter g.isMember).map fun i =>
    match s.expertSet (g.dev[i]?.getD 0) fn set with
    | some z => z.masks[2 * index + g.tile[i]?.getD 0 / 80]?.getD 0
    | none => 0

section
variable {s : State} {f : FormA} (holds : Holds s f.gn f.guard)
include holds

theorem execXmask_members {g : Group} (members : f.sub = 0) (small : (s.core.reg f.a).toNat < 2 ^ 8)
    (installed : Installed s (s.core.reg f.a).toNat g) :
    execXmask f s = writeReg s f.d (maskOf (g.records.filter g.isMember)) lenA := by
  have word : ¬ (s.core.reg f.a).toNat / 2 ^ 8 ≠ 0 := by simpa using small
  refine (guarded_true _ _ holds).trans ?_
  simp only [members, word, installed, if_true, if_false]

theorem execXmask_experts {y : ExpertSet} {g : Group} (experts : f.sub ≠ 0) (small : (s.core.reg f.a).toNat < 2 ^ 14)
    (plain : (s.core.reg f.a).toNat / 2 ^ 4 % 16 = 0)
    (set : s.expertSet (deviceOf s.cur) (fnOf s.core.fn) ((s.core.reg f.a).toNat % 16) = some y)
    (inside : (s.core.reg f.a).toNat / 2 ^ 8 < y.groups) (installed : Installed s (y.gbase + (s.core.reg f.a).toNat / 2 ^ 8) g) :
    execXmask f s = writeReg s f.d (((s.memberMasks (fnOf s.core.fn) ((s.core.reg f.a).toNat % 16)
      ((s.core.reg f.a).toNat / 2 ^ 8) g).foldl (fun m x => m ||| x) 0).setWidth 64) lenA := by
  have word : (decide ((s.core.reg f.a).toNat / 2 ^ 14 ≠ 0) || decide ((s.core.reg f.a).toNat / 2 ^ 4 % 16 ≠ 0)) = false := by
    simpa using And.intro small plain
  have index : (s.core.reg f.a).toNat / 2 ^ 8 % 64 = (s.core.reg f.a).toNat / 2 ^ 8 := Nat.mod_eq_of_lt (by omega)
  refine (guarded_true _ _ holds).trans ?_
  simp only [experts, word, index, set, not_le.2 inside, installed, Bool.false_eq_true, if_false]
  refine congrArg (fun m : BitVec 16 => writeReg s f.d (m.setWidth 64) lenA) ?_
  rw [State.memberMasks, List.foldl_map]
  refine congrArg (fun h => List.foldl h 0 _) (funext fun m => funext fun i => ?_)
  cases s.expertSet (g.dev[i]?.getD 0) (fnOf s.core.fn) ((s.core.reg f.a).toNat % 16) with
  | none => exact BitVec.or_zero.symm
  | some z => rfl

end

/-! ### `gstat` (R371, R385, R390) -/

theorem exec_gstat {s : State} {i : Instr} {sub : BitVec 3} {a d : BitVec 5} {x len : Nat} (form : Forms s .gstatA .gstatB i sub a d x len)
    (mode : statPrivileged sub = true → s.core.m ≠ 0) : exec i s = groupState i sub.toNat a d x len s := by
  refine exec_of_forms (go := fun i sub => groupState i sub.toNat) form ?_ ?_
  · rintro f rfl
    show execGstatA f s = _
    cases priv : statPrivileged f.sub with
    | true => exact (if_pos priv).trans (privileged_pass _ _ (mode priv))
    | false => exact if_neg (Bool.eq_false_iff.1 priv)
  · rintro f rfl
    show execGstatB f s = _
    cases priv : statPrivileged f.sub with
    | true => exact (if_pos priv).trans (privileged_pass _ _ (mode priv))
    | false => exact if_neg (Bool.eq_false_iff.1 priv)

/-- Where no word of some bytes is absent, none of the first of them is (R362). -/
theorem State.loadAbsent_prefix {s : State} {a m n : Nat} (le : m ≤ n) (present : s.loadAbsent a n = false) :
    s.loadAbsent a m = false := by
  rw [State.loadAbsent, List.any_eq_false] at present ⊢
  exact fun i mem => present i (List.mem_range.2 (lt_of_lt_of_le (List.mem_range.1 mem) le))

section
variable {s : State} {x : Nat} (small : x < 2 ^ 8)
include small

theorem groupState_reads {g : Group} {op : Nat} (i : Instr) (a d : BitVec 5) (len : Nat) (read : op < 4) (installed : Installed s x g) :
    groupState i op a d x len s =
      writeReg (if op = 2 then s.refreshCore s.cur 4 else s) d (BitVec.ofNat 64 (s.groupStat op x g)) len := by
  have word : ¬ x / 2 ^ 8 ≠ 0 := by simpa using small
  unfold groupState
  split
  case h_4 => simp only [word, installed, if_false]
  all_goals omega

theorem not_testBit_8 : x.testBit 8 = false := Nat.testBit_lt_two_pow small

theorem groupDrop_drops {g : Group} (i : Instr) (len : Nat) (installed : Installed s x g)
    (idle : s.groupBusy (fnOf s.core.fn) x = false) :
    groupDrop i x len s = finish (s.installGroup (fnOf s.core.fn) x none) len := by
  have word : (decide (x / 2 ^ 8 ≠ 0) || (s.groupOn (deviceOf s.cur) (fnOf s.core.fn) x).isNone) = false := by
    simpa [installed] using small
  simp only [groupDrop, not_testBit_8 small, word, idle, Bool.false_eq_true, if_false]

theorem groupLoad_loads {g : Group} {a : BitVec 5} (i : Instr) (len : Nat) (idle : s.groupBusy (fnOf s.core.fn) x = false)
    (ok : PayloadOk s.core (s.core.reg a).toNat (64 + 8 * s.loadLocal (s.core.reg a).toNat 1))
    (present : s.loadAbsent (s.core.reg a).toNat (64 + 8 * s.loadLocal (s.core.reg a).toNat 1) = false)
    (parsed : s.parseGroup (fnOf s.core.fn) (deviceOf s.cur)
      (s.readLocal (s.core.reg a).toNat (64 + 8 * s.loadLocal (s.core.reg a).toNat 1)) = some g) :
    groupLoad i a x len s = finish (s.installGroup (fnOf s.core.fn) x (some g)) len := by
  have head : s.loadAbsent (s.core.reg a).toNat 1 = false := State.loadAbsent_prefix (Nat.le_add_right_of_le (by decide)) present
  have headOk : PayloadOk s.core (s.core.reg a).toNat 64 := by
    obtain ⟨aligned, inside, area⟩ := ok
    exact ⟨aligned, by omega, area⟩
  have first : ∀ b ∈ [(decide (x / 2 ^ 8 ≠ 0), 0x10#7)], b.1 = false := by simpa using small
  simp only [groupLoad, not_testBit_8 small, Bool.false_eq_true, if_false]
  refine (checksOpen_pass _ (List.forall_mem_append.2 ⟨first, payloadChecks_pass headOk⟩)).trans ?_
  simp only [head, Bool.false_eq_true, if_false]
  refine (checksOpen_pass _ (payloadChecks_pass ok)).trans ?_
  simp only [present, parsed, idle, Bool.false_eq_true, if_false]

/-- A `gstat` that reads (R385), in either form. -/
theorem exec_gstat_reads {i : Instr} {sub : BitVec 3} {a d : BitVec 5} {len : Nat} {g : Group}
    (form : Forms s .gstatA .gstatB i sub a d x len) (plain : statPrivileged sub = false) (read : sub.toNat < 4)
    (installed : Installed s x g) : exec i s =
      writeReg (if sub.toNat = 2 then s.refreshCore s.cur 4 else s) d (BitVec.ofNat 64 (s.groupStat sub.toNat x g)) len :=
  (exec_gstat form fun priv => absurd priv (Bool.eq_false_iff.1 plain)).trans (groupState_reads small i a d len read installed)

end

theorem closeBatch_closes {s : State} {x : Nat} {y : ExpertSet} (d : BitVec 5) (len : Nat) (small : x < 2 ^ 4)
    (set : s.expertSet (deviceOf s.cur) (fnOf s.core.fn) x = some y) : closeBatch d x len s =
      let z := s.core.expert x
      writeReg (s.withCore (s.core.setExpert x { z with batch := z.batch + 1, closed := z.closed ++ [z.batch] })) d
        (BitVec.ofNat 64 z.batch) len := by
  have word : (decide (x / 2 ^ 4 ≠ 0) || (s.expertSet (deviceOf s.cur) (fnOf s.core.fn) x).isNone) = false := by
    simpa [set] using small
  simp only [closeBatch, word, Bool.false_eq_true, if_false]

/-- A `gstat` that has waited comes to what it comes to at once: the wait's end runs it (R371). -/
theorem exec_of_installComes {s : State} {i : Instr} {e : Host.Outcome State Fault Refusal} {sub : BitVec 3} {a d : BitVec 5} {x len : Nat}
    (form : Forms s .gstatA .gstatB i sub a d x len) (comes : Comes s i (.install i) .groupInstall e) : e = exec i s := by
  rcases comes with now | ⟨r, t, rfl, waits, rfl⟩
  · exact now
  · show execGroupInstall t r = _
    simp only [execGroupInstall, State.waitOf_some.2 waits]
    rcases form with ⟨f, rfl, -⟩ | ⟨f, rfl, -⟩
    all_goals rfl

end Sys2Proof.Machine

namespace Sys2Proof.Proofs

open Sys2Proof.Machine Sys2Proof.Rules

/-- Settles O39: each instruction goes on where its guard holds and its checks pass, with the core's fields that the drain and the store
before it leave as they were. -/
theorem groupInstructions : Obligations.GroupInstructions := by
  unfold Obligations.GroupInstructions
  refine ⟨?grecv, ?ready, ?gack, ?gstat⟩
  case grecv =>
    intro s i sub a d x len form small named c ea ok
    rw [exec_of_forms (go := fun _ _ => receive) form (fun _ _ => rfl) fun _ _ => rfl]
    refine ⟨fun none => ?nothing, fun l m r queue before hit => ?oldest⟩
    case nothing => rw [receive_none small named ok none]; exact writeReg_eq _ _ _ _
    case oldest => rw [receive_some small named ok queue before hit]; exact writeReg_eq _ _ _ _
  case ready =>
    intro s i sub a d x len more g m form small amount installed member c n r k t
    have runs : exec i s = changeReady more a d x len s := by
      rcases form with ⟨form, rfl⟩ | ⟨form, rfl⟩
      · exact exec_of_forms (go := fun _ _ => changeReady true) form (fun _ _ => rfl) fun _ _ => rfl
      · exact exec_of_forms (go := fun _ _ => changeReady false) form (fun _ _ => rfl) fun _ _ => rfl
    rw [runs, changeReady_changes more d len small amount installed member]
    exact writeReg_eq _ _ _ _
  case gack =>
    intro s f holds h
    refine ⟨fun x found plain mine => execGack_acks holds found plain mine,
      fun g members small installed => (execXmask_members holds members small installed).trans (writeReg_eq _ _ _ _),
      fun y g experts small plain set inside installed => ?_⟩
    exact (execXmask_experts holds experts small plain set inside installed).trans (writeReg_eq _ _ _ _)
  case gstat =>
    intro s i sub a d x len form c fn
    refine ⟨fun g small installed => ⟨fun h => ?ready, fun h => ?messages, fun h => ?unacked, fun h => ?parked, ?drop⟩, ?load, ?batch⟩
    case drop =>
      rintro e rfl mode idle comes
      rw [exec_of_installComes form comes, exec_gstat form fun _ => mode]
      exact groupDrop_drops small i len installed idle
    case load =>
      rintro g rfl mode small idle ea n ok present parsed
      rw [exec_gstat form fun _ => mode]
      exact groupLoad_loads small i len idle ok present parsed
    case batch =>
      rintro y rfl small set z y'
      rw [exec_gstat form (fun priv => absurd priv (by decide))]
      exact (closeBatch_closes d len small set).trans ((writeReg_withCore _ _ _ _ _).trans
        (congrArg Host.Outcome.next (State.withCore_withCore _ _ _)))
    all_goals
      subst h
      exact (exec_gstat_reads small form rfl (by decide) installed).trans (writeReg_eq _ _ _ _)

end Sys2Proof.Proofs

/-! Proofs about the acts of a send in its tree (R372 to R377, R379), and the bias unit (R390). -/

namespace Sys2Proof.Machine

open Sys2Proof.Rules

/-! ### A send of a tree, by its key (R373, R377) -/

theorem State.key_of_send {s : State} {k : Nat} {x : Send} (sent : s.send k = some x) : x.key = k := by
  simpa using List.find?_some sent

theorem State.heldBack_iff {s : State} {k : Nat} {x : Send} (sent : s.send k = some x) : s.heldBack x = true ↔
    ∃ y ∈ s.sends.takeWhile (fun y => y.key ≠ k), y.ordered = true ∧ y.sender = x.sender ∧ y.fn = x.fn ∧ y.group = x.group := by
  simp [State.heldBack, State.key_of_send sent, and_assoc]

/-- The core that a save has not taken away is the one that stands (R326). -/
theorem State.homeCore_here {s : State} {fn t : Nat} (here : mapGet s.away (homeKey fn t) = none) : s.homeCore fn t = s.coreOf t := by
  rw [State.homeCore, State.homeTile, here]
  rfl

section
variable {s : State} {k : Nat} {x : Send} {g : Group} (sent : s.send k = some x) (tree : mapGet s.groups (groupKey x.fn x.group) = some g)
include sent tree

theorem exec_sendAtRoot_comes (issued : x.state = .issued) (path : s.noPath (deviceOf x.sender) (deviceOf (g.place g.root)) = false) :
    exec (.sendAtRoot k) s = .next (s.setSend (if x.ordered then { x with state := .orderWait } else x.comeTo g.root)) := by
  show execSendAtRoot k s = _
  simp only [execSendAtRoot, sent, issued, tree, path, Bool.false_eq_true, if_false]

theorem exec_orderwaitRelease_free (waits : x.state = .orderWait) (free : s.heldBack x = false) :
    exec (.orderwaitRelease k) s = .next (s.setSend (x.comeTo g.root)) := by
  show execOrderwaitRelease k s = _
  simp only [execOrderwaitRelease, sent, waits, tree, free, Bool.false_eq_true, if_false]

theorem exec_sendSteer_restarts (restarts : k ∈ g.restarts) : exec (.sendSteer k) s = .next s := by
  show execSendSteer k s = _
  simp only [execSendSteer, sent, tree]
  split
  next i g' _ same => 
    obtain rfl : g = g' := Option.some.inj same
    rw [if_pos (by simpa using restarts)]
  next => rfl

theorem exec_sendSteer_steers {i : Nat} (stands : x.state = .at i) (free : k ∉ g.restarts) :
    exec (.sendSteer k) s = .next (s.steer x g i) := by
  have free' : g.restarts.contains k = false := by simpa using free
  show execSendSteer k s = _
  simp only [execSendSteer, sent, stands, tree, free', Bool.false_eq_true, if_false]

theorem State.restart_waits (ordered : x.ordered = true) (held : s.heldBack x = true) :
    s.restart (groupKey x.fn x.group) k = s.setSend { x with state := .orderWait, tried := [] } := by
  simp only [State.restart, sent, tree, ordered, held, Bool.and_self, if_true]

theorem exec_groupParkTimeout_removes {since : Nat} (parked : x.state = .parked since) (free : k ∉ g.restarts)
    (late : since + g.plimit ≤ s.microsOf (g.dev[g.root]?.getD 0)) (present : s.present x.sender x.fn = true) :
    exec (.groupParkTimeout k) s = .next (((s.setGroup (groupKey x.fn x.group) { g with parked := g.parked.filter (· ≠ k) }).dropSend
      k).impreciseTo x.fn x.sender 0x52 x.handle) := by
  have free' : g.restarts.contains k = false := by simpa using free
  show execGroupParkTimeout k s = _
  simp only [execGroupParkTimeout, sent, parked, tree, late, present, free', decide_true, Bool.not_false, Bool.and_self, if_true]

end

theorem exec_parkedRestart_restarts {s : State} {key : Nat} {g : Group} (tree : mapGet s.groups key = some g) :
    exec (.parkedRestart key) s = .next (g.restarts.foldl (fun s k => s.restart key k)
      (s.setGroup key { g with parked := g.parked.filter fun k => !g.restarts.contains k, restarts := [] })) := by
  show execParkedRestart key s = _
  simp only [execParkedRestart, tree]

/-! ### One move of a send (R373) -/

section
variable {s : State} {x : Send} {g : Group} {i : Nat}

/-- A member that stands for the function and is not away has the readiness that its core holds. -/
theorem State.readinessOf_here {t : Nat} (present : s.present t x.fn = true) (here : mapGet s.away (homeKey x.fn t) = none) :
    s.readinessOf x.fn x.group t = (s.coreOf t).readiness x.group := by
  have fn : fnOf (s.coreOf t).fn = x.fn := by
    simp only [State.present, Bool.and_eq_true, decide_eq_true_eq] at present
    exact present.1.1
  simp only [State.readinessOf, State.homeCore_here here, fn, if_true]

theorem State.tryTake_passed (passed : g.isMember i = false ∨ s.readinessOf x.fn x.group (g.place i) = 0) :
    s.tryTake g i x = .passed s := by
  have passes : (!g.isMember i || decide (s.readinessOf x.fn x.group (g.place i) = 0)) = true := by simpa using passed
  simp only [State.tryTake, passes, if_true]

theorem State.tryTake_later (ready : ¬ (g.isMember i = false ∨ s.readinessOf x.fn x.group (g.place i) = 0))
    (away : ¬ (s.present (g.place i) x.fn = true ∧ mapGet s.away (homeKey x.fn (g.place i)) = none)) : s.tryTake g i x = .later := by
  have passes : (!g.isMember i || decide (s.readinessOf x.fn x.group (g.place i) = 0)) = false := by simpa using ready
  have gone : (!s.present (g.place i) x.fn || (mapGet s.away (homeKey x.fn (g.place i))).isSome) = true := by
    simpa [Option.isSome_iff_ne_none, or_iff_not_imp_left] using away
  simp only [State.tryTake, passes, gone, Bool.false_eq_true, if_true, if_false]

theorem State.tryTake_plain (member : g.isMember i = true) (present : s.present (g.place i) x.fn = true)
    (here : mapGet s.away (homeKey x.fn (g.place i)) = none) (ready : 0 < (s.coreOf (g.place i)).readiness x.group)
    (plain : x.set = none) :
    let c := s.coreOf (g.place i)
    s.tryTake g i x = .taken (s.setCore (g.place i)
      { c with received := c.received ++ [{ handle := x.handle, group := x.group, payload := x.payload }] }) 0 := by
  have passes : (!g.isMember i || decide (s.readinessOf x.fn x.group (g.place i) = 0)) = false := by
    simp [member, State.readinessOf_here present here, ready.ne']
  simp only [State.tryTake, passes, present, here, plain, Option.isSome_none, Bool.not_true, Bool.or_self, Bool.false_eq_true, if_false]

theorem State.steer_later (h : s.tryTake g i x = .later) : s.steer x g i = s := by simp only [State.steer, h]

theorem State.steer_taken {c : Core} (h : s.tryTake g i x = .taken (s.setCore (g.place i) c) 0) (plain : x.set = none) :
    let t := g.place i
    s.steer x g i = ((((s.setCore t (c.setReadiness x.group (c.readiness x.group - 1))).setSend { x with state := .taken i }).post t 0x50
      (x.sender % 160) (x.handle % 2 ^ 16 + x.group * 2 ^ 16)).notify
        { send := x.key, ack := false, tile := t, sender := x.sender, set := none, batch := x.batch, index := 0, chosen := 0 }) := by
  have zero : (0 : BitVec 14).toNat * 2 ^ 24 = 0 := by decide
  simp only [State.steer, h, plain, Option.bind_none, State.coreOf_setCore_same, State.setCore_setCore, zero, Nat.add_zero]

section
variable (passed : s.tryTake g i x = .passed s)
include passed

theorem State.steer_down {d : Nat} (child : g.choose i (x.triedAt i) = some d)
    (path : s.noPath (deviceOf (g.place i)) (deviceOf (g.place d)) = false) :
    s.steer x g i = (s.setGroup (groupKey x.fn x.group) (g.addCount d (-1))).setSend (x.comeTo d) := by
  simp only [State.steer, passed, child, path, Bool.false_eq_true, if_false]

theorem State.steer_up (none : g.choose i (x.triedAt i) = none) (below : i ≠ g.root)
    (path : s.noPath (deviceOf (g.place i)) (deviceOf (g.place (g.up i))) = false) :
    s.steer x g i = (s.setGroup (groupKey x.fn x.group) (if g.up i = g.root then (g.addCount i 1).rise else g.addCount i 1)).setSend
      { x with state := .at (g.up i), tried := mapSet x.tried (g.up i) (i :: x.triedAt (g.up i)) } := by
  simp only [State.steer, passed, none, below, path, ne_eq, not_false_eq_true, Bool.false_eq_true, if_true, if_false]
  rfl

theorem State.steer_parks (none : g.choose i (x.triedAt i) = none) (root : i = g.root) :
    s.steer x g i = (s.setGroup (groupKey x.fn x.group) { g with parked := g.parked ++ [x.key] }).setSend
      { x with state := .parked (s.microsOf (g.dev[g.root]?.getD 0)) } := by
  subst root
  simp only [State.steer, passed, none, ne_eq, not_true_eq_false, if_false]

end

end

/-! ### Messages and notices (R372, R376, R390) -/

theorem State.dropSend_groups (s : State) (k : Nat) : (s.dropSend k).groups = s.groups := rfl

theorem State.setHomeTile_groups (s : State) (fn t : Nat) (x : Tile) : (s.setHomeTile fn t x).groups = s.groups := by
  unfold State.setHomeTile
  split
  · split
    all_goals rfl
  · rfl

theorem State.setHomeCore_groups (s : State) (fn t : Nat) (c : Core) : (s.setHomeCore fn t c).groups = s.groups :=
  s.setHomeTile_groups _ _ _

theorem exec_ackArrive_counts {s : State} {n j : Nat} {m : Notice} {x : Send} {g : Group} (notice : mapGet s.notices n = some m)
    (ack : m.ack = true) (sent : s.send m.send = some x) (tree : mapGet s.groups (groupKey x.fn x.group) = some g)
    (taken : x.state = .taken j) (present : s.present x.sender x.fn = true) (counts : s.ackCounts x m.tile = true) :
    let gone : State := { s with notices := mapErase s.notices n }
    let c := gone.homeCore x.fn m.tile
    let u := (gone.setHomeCore x.fn m.tile { c with toAck := c.toAck.filter (· ≠ x.handle) }).dropSend x.key
    exec (.ackArrive n) s = .next (if x.ask then
      u.postHome x.fn x.sender 0x51 (g.place j % 160) (x.handle % 2 ^ 16 + x.group * 2 ^ 16) else u) := by
  show execAckArrive n s = _
  simp only [execAckArrive, notice, ack, sent, present, counts, taken, State.dropSend_groups, State.setHomeCore_groups, tree,
    Bool.not_true, Bool.false_eq_true, if_false]

section
variable {s : State} {n : Nat} {m : ReadyMsg} {g : Group} (message : mapGet s.readyMsgs n = some m)
  (tree : mapGet s.groups m.group = some g) (first : s.readyBehind n m = false)
include message tree first

theorem exec_readinessArrive_root (root : g.up m.node = g.root) : exec (.readinessArrive n) s =
    .next (({ s with readyMsgs := mapErase s.readyMsgs n } : State).setGroup m.group
      (if 0 < m.amount then (g.addCount m.node m.amount).rise else g.addCount m.node m.amount)) := by
  show execReadinessArrive n s = _
  simp only [execReadinessArrive, message, tree, first, Bool.false_eq_true, if_false]
  exact if_pos root

theorem exec_readinessArrive_inner (inner : g.up m.node ≠ g.root) : exec (.readinessArrive n) s =
    .next (({ s with readyMsgs := mapSet s.readyMsgs n { m with node := g.up m.node } } : State).setGroup m.group
      (g.addCount m.node m.amount)) := by
  show execReadinessArrive n s = _
  simp only [execReadinessArrive, message, tree, first, Bool.false_eq_true, if_false]
  exact if_neg inner

end

theorem exec_takenNotice_plain {s : State} {n : Nat} {m : Notice} (notice : mapGet s.notices n = some m) (taken : m.ack = false)
    (plain : m.set = none) (present : s.present m.sender (m.send / 2 ^ 64) = true) :
    exec (.takenNotice n) s = .next { s with notices := mapErase s.notices n } := by
  show execTakenNotice n s = _
  simp only [execTakenNotice, notice, taken, plain, present, Bool.not_true, Bool.or_self, Bool.false_eq_true, if_false]

/-! ### Strikes (R379) -/

/-- The strikes, M and the sends of a state. -/
def State.struckPart (s : State) : List (Nat × Nat × Nat) × Memory × List Send := (s.strikes, s.mem, s.sends)

theorem State.struckPart_setHomeTile (s : State) (fn t : Nat) (x : Tile) : (s.setHomeTile fn t x).struckPart = s.struckPart := by
  unfold State.setHomeTile
  split
  · split
    all_goals rfl
  · rfl

theorem State.struckPart_post (s : State) (t kind source data : Nat) : (s.post t kind source data).struckPart = s.struckPart := by
  obtain wake | wake := s.wakeDie_cases (dieOf t)
  all_goals
    simp only [State.post, wake]
    split
    all_goals rfl

theorem State.struckPart_postHome (s : State) (fn t kind source data : Nat) :
    (s.postHome fn t kind source data).struckPart = s.struckPart := by
  unfold State.postHome
  split
  · exact s.struckPart_setHomeTile _ _ _
  · split
    · exact s.struckPart_post _ _ _ _
    · rfl

/-- A state u in which a strike that stood listed in s has taken the sends of the struck senders, and nothing of M. -/
def State.StruckTo (s : State) (dev die fn : Nat) (u : State) : Prop :=
  u.strikes = s.strikes.erase (dev, die, fn) ∧ u.mem = s.mem ∧ ∀ x ∈ u.sends, struckTile dev die fn x.sender x.fn = false

section
variable {s u : State} {dev die fn : Nat}

theorem State.StruckTo.congr {v : State} (h : s.StruckTo dev die fn u) (same : v.struckPart = u.struckPart) : s.StruckTo dev die fn v := by
  obtain ⟨strikes, mem, sends⟩ := h
  simp only [State.struckPart, Prod.mk.injEq] at same
  obtain ⟨strikes', mem', sends'⟩ := same
  exact ⟨strikes'.trans strikes, mem'.trans mem, sends' ▸ sends⟩

theorem State.StruckTo.reenterTree {x : Send} (h : s.StruckTo dev die fn u) (left : struckTile dev die fn x.sender x.fn = false) :
    s.StruckTo dev die fn (u.reenterTree x) := by
  obtain ⟨strikes, mem, sends⟩ := h
  simp only [State.reenterTree]
  split
  · exact ⟨strikes, mem, sends⟩
  · refine ⟨strikes, mem, fun y hy => ?_⟩
    obtain ⟨z, hz, rfl⟩ := List.mem_map.1 hy
    split
    · exact left
    · exact sends z hz

theorem State.struckPart_setGroups (f : State → Nat × Group → Group) (l : List (Nat × Group)) (u : State) :
    (l.foldl (fun s g => s.setGroup g.1 (f s g)) u).struckPart = u.struckPart :=
  List.foldlRecOn (motive := fun (v : State) => v.struckPart = u.struckPart) _ _ rfl fun _ h _ _ => h

/-- What a strike comes to, up to the STRUCK events that it posts (R386). -/
theorem execStruck_events (listed : (dev, die, fn) ∈ s.strikes) : ∃ (u : State) (cores : List (Nat × Nat)) (data : Nat),
    execStruck dev die fn s = .next (cores.foldl (fun s c => s.postHome c.2 c.1 0x53 0 data) u) ∧ s.StruckTo dev die fn u := by
  refine ⟨_, _, _, if_neg (by simpa using listed), ?_⟩
  refine List.foldlRecOn (motive := fun u => s.StruckTo dev die fn u) _ (fun s x => s.reenterTree x) ?first ?step
  case step => exact fun v h x mem => h.reenterTree (by simpa using (List.mem_filter.1 (List.mem_filter.1 mem).1).2)
  case first =>
    have rebuilt := State.struckPart_setGroups (fun s g => s.rebuild g.2 (g.1 / 256) (g.1 % 256) (g.2.struckBy dev die fn (g.1 / 256)))
      (s.groups.filter fun g => g.2.struckBy dev die fn (g.1 / 256) ≠ []) { s with strikes := s.strikes.erase (dev, die, fn) }
    simp only [State.struckPart, Prod.mk.injEq] at rebuilt
    obtain ⟨strikes, mem, sends⟩ := rebuilt
    exact ⟨strikes, mem, fun x hx => by simpa using (List.mem_filter.1 hx).2⟩

theorem execStruck_strikes (listed : (dev, die, fn) ∈ s.strikes) : ∃ t, execStruck dev die fn s = .next t ∧ s.StruckTo dev die fn t := by
  obtain ⟨u, cores, data, comes, struck⟩ := execStruck_events listed
  exact ⟨_, comes, List.foldlRecOn (motive := fun v => s.StruckTo dev die fn v) _ _ struck
    fun v h c _ => h.congr (v.struckPart_postHome _ _ _ _ _)⟩

end

/-! ### The bias unit (R390) -/

theorem stepBias_eq (x : ExpertSet) (total count : Nat) (b : Word) : stepBias x total count b =
    if count * x.groups * x.experts < total then BitVec.ofNat 32 (rFadd rmRNE false 1 b x.step 0).bits
    else if total < count * x.groups * x.experts then BitVec.ofNat 32 (rFsub rmRNE false 1 b x.step 0).bits else b := by
  simp only [stepBias, rFadd, rFsub, src32]
  rfl

/-- The load of all experts of a set, the old value of a bias, and the new values' bytes (R390). -/
def ExpertCore.load (e : ExpertCore) (x : ExpertSet) : Nat :=
  (List.range (x.groups * x.experts)).foldl (fun n i => n + (mapGet e.counts i).getD 0) 0
def State.oldBias (u : State) (pas : List Nat) (i : Nat) : Word := BitVec.ofNat 32 (u.numOf ((pas.drop (4 * i)).take 4))
def State.newBiases (u : State) (pas : List Nat) (e : ExpertCore) (x : ExpertSet) : List Byte :=
  (List.range (x.groups * x.experts)).flatMap fun i =>
    toBytes (stepBias x (e.load x) ((mapGet e.counts i).getD 0) (u.oldBias pas i)).toNat 4

theorem execBiased_steps {s u : State} {t set n b : Nat} {r pas : List Nat} {e : ExpertCore} {x : ExpertSet}
    (mine : mapGet (s.coreOf t).experts set = some e)
    (installed : s.expertSet (deviceOf t) (fnOf (s.coreOf t).fn) set = some x) (closed : e.closed = b :: r)
    (engine : s.biasEngine (dieOf t) e = some n) (present : s.present t (fnOf (s.coreOf t).fn) = true)
    (ended : s.batchOver t (fnOf (s.coreOf t).fn) set b = true) (runs : (s.age (copyAge (dieOf t) n)).stopped = none)
    (reach : State.reach (copyAge (dieOf t) n) (dieOf t) (fnOf (s.coreOf t).fn) t 1 (4 * (x.groups * x.experts)) s (x.bias : Int) =
      .ok u pas) :
    let v := u.writeCells (pas.zip (u.newBiases pas e x))
    execBiased t set s = .next ((v.setCore t ((v.coreOf t).setExpert set { e with closed := r, stopped := none, counts := [] })).post t
      0x52 set (b % 2 ^ 32)) := by
  simp only [execBiased, mine, installed, closed, engine, present, ended, runs, reach, Option.isSome_none, Bool.not_true, Bool.or_self,
    Bool.false_eq_true, if_false]
  rfl

end Sys2Proof.Machine

namespace Sys2Proof.Proofs

open Sys2Proof.Machine Sys2Proof.Rules

/-- Settles O40: each act by where its send stands and what its record, message, notice, strike or batch holds. -/
theorem groupSteering : Obligations.GroupSteering := by
  unfold Obligations.GroupSteering
  refine ⟨?send, ?ready, ?notice, ?strike, ?bias, stepBias_eq⟩
  case send =>
    intro s k x g sent key tree down
    have named := State.key_of_send sent
    refine ⟨exec_sendAtRoot_comes sent tree, fun waits first => ?released, exec_sendSteer_restarts sent tree, ?steers,
      fun ordered held => State.restart_waits sent tree ordered ((State.heldBack_iff sent).2 held),
      exec_parkedRestart_restarts tree, fun since parked free late present =>
        exec_groupParkTimeout_removes sent tree parked free late present, ?acked⟩
    case released =>
      refine exec_orderwaitRelease_free sent tree waits (Bool.eq_false_iff.2 fun held => ?_)
      obtain ⟨y, mem, same⟩ := (State.heldBack_iff sent).1 held
      exact first y mem same
    case steers =>
      intro i stands free t c p here passed
      have steers := exec_sendSteer_steers sent tree stands free
      refine ⟨fun h => State.readinessOf_here h.1 h.2, fun ready away => ?later, fun member h ready plain => ?taken,
        fun d h child path => ?down, fun h none below path => ?up, fun h none root => ?parks⟩
      case later => rw [steers, State.steer_later (State.tryTake_later ready away)]
      case taken =>
        have takes := State.tryTake_plain member h.1 h.2 ready plain
        rw [steers, State.steer_taken takes plain]
        rfl
      case down => rw [steers, State.steer_down (State.tryTake_passed h) child path]; rfl
      case up => rw [steers, State.steer_up (State.tryTake_passed h) none below path]; rfl
      case parks => rw [steers, State.steer_parks (State.tryTake_passed h) none root]; rfl
    case acked =>
      intro n m j notice ack mine taken present counts
      subst mine
      exact exec_ackArrive_counts notice ack sent tree taken present counts
  case ready =>
    exact fun s n m g message tree first => ⟨exec_readinessArrive_root message tree first, exec_readinessArrive_inner message tree first⟩
  case notice => exact fun s n m notice taken plain present => exec_takenNotice_plain notice taken plain present
  case strike => exact fun s dev die fn listed => execStruck_strikes listed
  case bias =>
    intro s u t set n b r pas e x fn d mine installed closed engine present ended runs reach
    exact execBiased_steps mine installed closed engine present ended runs reach

end Sys2Proof.Proofs

/-! Proofs about cross-chip streams (R356 to R360) and Belgal links (R355, R363 to R369). -/

namespace Sys2Proof.Machine

/-! ### Places of streams -/

/-- A port of a tile, from the number that names both. -/
theorem port_split (t : Nat) {p : Nat} (port : p < 64) : (t * 64 + p) / 64 = t ∧ (t * 64 + p) % 64 = p := by omega

/-! ### Pairing (R357) -/

section
variable {s : State} {t p u q : Nat} {a b : StreamEnd} (hp : p < 64) (hq : q < 64) (tx : s.streamEnd t p = some a)
  (rx : s.streamEnd u (64 + q) = some b) (freeA : a.paired = false) (freeB : b.paired = false) (namesA : a.names u q = true)
  (namesB : b.names t p = true) (name : a.name = b.name) (mayA : s.endMay t p a = true) (mayB : s.endMay u (64 + q) b = true)
  (path : s.noPath (deviceOf t) (deviceOf u) = false)
include hp hq tx rx freeA freeB namesA namesB name mayA mayB path

/-- Two ends that name each other pair where the last check of R357 passes, and take 0x10 where it does not. -/
theorem exec_streamPair_meet : exec (.streamPair (t * 64 + p) (u * 64 + q)) s =
    if a.depth ≠ b.depth || a.fn ≠ b.fn || !s.tileOfFn a.fn u || !s.tileOfFn a.fn t then
      .next ((s.endFault t p 0x10).endFault u (64 + q) 0x10)
    else .next ((((s.setEnd t p { a with paired := true, peer := b.cmd }).setEnd u (64 + q)
      { b with paired := true, peer := a.cmd }).pairReport a.cmd).pairReport b.cmd) := by
  obtain ⟨ht, hp⟩ := port_split t hp
  obtain ⟨hu, hq⟩ := port_split u hq
  show execStreamPair _ _ s = _
  rw [execStreamPair, ht, hp, hu, hq]
  simp only [tx, rx, freeA, freeB, namesA, namesB, name, mayA, mayB, path, ne_eq, not_true_eq_false, decide_false, Bool.not_true,
    Bool.or_self, Bool.false_eq_true, if_false]

theorem exec_streamPair_pairs (depth : a.depth = b.depth) (fn : a.fn = b.fn) (holdsRx : s.tileOfFn a.fn u = true)
    (holdsTx : s.tileOfFn a.fn t = true) : exec (.streamPair (t * 64 + p) (u * 64 + q)) s =
      .next ((((s.setEnd t p { a with paired := true, peer := b.cmd }).setEnd u (64 + q)
        { b with paired := true, peer := a.cmd }).pairReport a.cmd).pairReport b.cmd) := by
  rw [exec_streamPair_meet hp hq tx rx freeA freeB namesA namesB name mayA mayB path, if_neg (by simp [depth, ← fn, holdsRx, holdsTx])]

theorem exec_streamPair_fails (differ : a.depth ≠ b.depth ∨ a.fn ≠ b.fn ∨ s.tileOfFn a.fn u = false ∨ s.tileOfFn a.fn t = false) :
    exec (.streamPair (t * 64 + p) (u * 64 + q)) s = .next ((s.endFault t p 0x10).endFault u (64 + q) 0x10) := by
  rw [exec_streamPair_meet hp hq tx rx freeA freeB namesA namesB name mayA mayB path, if_pos (by simpa [or_assoc] using differ)]

end

/-! ### Tokens of a stream (R358, R359) -/

/-- A turn of a port's receive ends: the fold of `execStreamTokenTransfer`. -/
def State.receiveTurn (s : State) (t p : Nat) : State :=
  (s.receivers t p).foldl (fun (v : State) e =>
    if s.noPath (deviceOf t) (deviceOf e.1) then v.streamLost e.1 e.2 else v.deliverToken e.1 e.2) s

theorem exec_streamTokenTransfer {t p : Nat} (s : State) (hp : p < 64) : exec (.streamTokenTransfer (t * 64 + p)) s =
    match (s.receiveTurn t p).streamEnd t p with
    | none => .next (s.receiveTurn t p)
    | some a =>
      if !a.paired then .next (s.receiveTurn t p)
      else if s.noPath (deviceOf t) (deviceOf a.farTile) then .next ((s.receiveTurn t p).streamLost t p)
      else .next (if (s.receiveTurn t p).endMay t p a then (s.receiveTurn t p).takeToken t p a else s.receiveTurn t p) := by
  obtain ⟨ht, hp⟩ := port_split t hp
  show execStreamTokenTransfer _ s = _
  rw [execStreamTokenTransfer, ht, hp]
  rfl

/-- A receive end with nothing on its way gets nothing. -/
theorem State.deliverToken_empty {s : State} {u k : Nat} (empty : ∀ e, s.streamEnd u k = some e → s.inTransit e.cmd = []) :
    s.deliverToken u k = s := by
  rw [State.deliverToken]
  cases found : s.streamEnd u k with
  | none => rfl
  | some e => simp only [empty e found]

theorem State.receiveTurn_empty {s : State} {t p : Nat} (still : ∀ x ∈ s.receivers t p, s.noPath (deviceOf t) (deviceOf x.1) = false ∧
    ∀ e, s.streamEnd x.1 x.2 = some e → s.inTransit e.cmd = []) : s.receiveTurn t p = s :=
  List.foldlRecOn (motive := fun v => v = s) _ _ rfl fun v same x mem => by
    obtain ⟨path, empty⟩ := still x mem
    subst same
    rw [if_neg (by simp [path]), State.deliverToken_empty empty]

theorem State.deliverToken_enters {s : State} {u k : Nat} {e : StreamEnd} {w : Token} {r : List Token} (rx : s.streamEnd u k = some e)
    (transit : s.inTransit e.cmd = w :: r) (token : w ≠ closeMark) (paired : e.paired = true) (may : s.endMay u k e = true)
    (room : ((s.tile u).fiPort (k - 64)).room = true) : s.deliverToken u k =
      ((s.pushFi u (k - 64) w).setEnd u k { e with carried := e.carried + 1 }).setTransit e.cmd r := by
  simp only [State.deliverToken, rx, transit, token, paired, may, room, ne_eq, not_false_eq_true, decide_true, Bool.and_self, if_true]

theorem State.receiveTurn_enters {s : State} {t p u k : Nat} (one : s.receivers t p = [(u, k)])
    (path : s.noPath (deviceOf t) (deviceOf u) = false) : s.receiveTurn t p = s.deliverToken u k := by
  simp only [State.receiveTurn, one, List.foldl_cons, List.foldl_nil, path, Bool.false_eq_true, if_false]

/-- A send end that does not close takes its next token where fewer than the depth are outstanding. -/
theorem State.takeToken_cons {s : State} {t p : Nat} {a : StreamEnd} {k : Token} {r : List Token}
    (queue : ((s.tile t).foPort p).q = k :: r) (stays : a.closing = none) (noCloser : s.closer t p = none) : s.takeToken t p a =
      if s.outstanding a < a.depth then
        let v := (s.popFo t p).carryToken t a.farTile
        (v.setTransit a.peer (v.inTransit a.peer ++ [k])).setEnd t p { a with out := s.outstanding a + 1, carried := a.carried + 1 }
      else s.setEnd t p { a with out := s.outstanding a } := by
  simp only [State.takeToken, queue, stays, noCloser, Option.map_none, StreamEnd.farTile]

section
variable {s : State} {t p : Nat} {a : StreamEnd} {k : Token} {r : List Token} (hp : p < 64)
  (still : ∀ x ∈ s.receivers t p, s.noPath (deviceOf t) (deviceOf x.1) = false ∧
    ∀ e, s.streamEnd x.1 x.2 = some e → s.inTransit e.cmd = [])
  (tx : s.streamEnd t p = some a) (paired : a.paired = true) (path : s.noPath (deviceOf t) (deviceOf a.farTile) = false)
  (may : s.endMay t p a = true)
include hp still tx paired path may

theorem exec_streamTokenTransfer_takes : exec (.streamTokenTransfer (t * 64 + p)) s = .next (s.takeToken t p a) := by
  rw [exec_streamTokenTransfer s hp, State.receiveTurn_empty still]
  simp only [tx, paired, path, may, Bool.not_true, Bool.false_eq_true, if_false, if_true]

end

theorem exec_streamTokenTransfer_enters {s : State} {t p u k : Nat} {e : StreamEnd} {w : Token} {r : List Token} (hp : p < 64)
    (one : s.receivers t p = [(u, k)]) (path : s.noPath (deviceOf t) (deviceOf u) = false) (rx : s.streamEnd u k = some e)
    (transit : s.inTransit e.cmd = w :: r) (token : w ≠ closeMark) (paired : e.paired = true) (may : s.endMay u k e = true)
    (room : ((s.tile u).fiPort (k - 64)).room = true)
    (noSender : (((s.pushFi u (k - 64) w).setEnd u k { e with carried := e.carried + 1 }).setTransit e.cmd r).streamEnd t p = none) :
    exec (.streamTokenTransfer (t * 64 + p)) s =
      .next (((s.pushFi u (k - 64) w).setEnd u k { e with carried := e.carried + 1 }).setTransit e.cmd r) := by
  rw [exec_streamTokenTransfer s hp, State.receiveTurn_enters one path, State.deliverToken_enters rx transit token paired may room]
  simp only [noSender]

/-- Once the close mark comes, the port waits for its `sclose`, or is done with the one that stands there. -/
theorem exec_streamCloseMark_marked {s : State} {u q : Nat} {e : StreamEnd} (hq : q < 64) (rx : s.streamEnd u (64 + q) = some e)
    (paired : e.paired = true) (may : s.endMay u (64 + q) e = true) (mark : (s.inTransit e.cmd).head? = some closeMark) :
    let v := (s.setTransit e.cmd []).setEnd u (64 + q) { e with marked := true }
    exec (.streamCloseMark (u * 64 + q)) s = match v.closer u (64 + q) with
      | none => .next v
      | some (n, c) => .next ((v.unbind u (64 + q) e).portDone n c (4 * e.carried)) := by
  obtain ⟨hu, hq⟩ := port_split u hq
  show execStreamCloseMark _ s = _
  rw [execStreamCloseMark, hu, hq]
  simp only [rx, paired, may, mark, Bool.not_true, Bool.or_self, Bool.false_eq_true, if_false, decide_true, if_true, Bool.true_or]
    <;> rfl

/-! ### Directions of ports (R364) -/

@[simp] theorem State.link_setLink_same (s : State) (n : Nat) (l : Link) : (s.setLink n l).link n = l := by
  simp [State.link, State.setLink]

theorem State.link_setLink_ne (s : State) {n m : Nat} (l : Link) (h : m ≠ n) : (s.setLink n l).link m = s.link m := by
  simp [State.link, State.setLink, mapGet_mapSet_ne _ _ _ _ h]

theorem State.link_congr {s v : State} (same : v.links = s.links) (n : Nat) : v.link n = s.link n := by
  rw [State.link, State.link, same]

theorem State.wakeDie_link (s : State) (g n : Nat) : (s.wakeDie g).link n = s.link n := by
  refine State.link_congr ?_ n
  obtain h | h := s.wakeDie_cases g <;> rw [h]
  rfl

/-- A wake leaves what a port's work depends on: its link, and whether its die works. -/
theorem State.wakeDie_portUp (s : State) (port : Nat) : (s.wakeDie (port / 8)).portUp port = s.portUp port := by
  have works : ((s.wakeDie (port / 8)).die (port / 8)).lost = (s.die (port / 8)).lost ∧
      ((s.wakeDie (port / 8)).die (port / 8)).stopped = (s.die (port / 8)).stopped := by
    obtain h | h := s.wakeDie_cases (port / 8) <;> rw [h]
    · exact ⟨rfl, rfl⟩
    · simp only [State.die_setDie_same, and_self]
  simp only [State.portUp, State.wakeDie_link, works]

/-! ### Frames that arrive (R365, R367, R369) -/

section
variable {s : State} {port : Nat} {frame : List Word} (up : s.portUp port = true)
include up

theorem exec_frameReceive_bad (bad : frameOk (wordBytes frame) = false) :
    exec (.frameReceive port frame) s = .next ((s.wakeDie (port / 8)).reply port 2) := by
  show execFrameReceive _ _ s = _
  simp only [execFrameReceive, up, s.wakeDie_portUp, bad, Bool.not_true, Bool.not_false, Bool.false_eq_true, if_false, if_true]

variable (sound : frameOk (wordBytes frame) = true)
include sound

theorem exec_frameReceive_data (data : numAt (wordBytes frame) 0 16 % 256 = 0) :
    let bs := wordBytes frame
    let h := numAt bs 0 16
    let w := s.wakeDie (port / 8)
    let l := w.link (linkIn port)
    exec (.frameReceive port frame) s =
      if h / 2 ^ 16 % 2 ^ 12 ≠ l.accepted % 2 ^ 12 then .next ((w.acknowledge port (h / 2 ^ 28 % 2 ^ 12)).reply port 2)
      else match w.frameBlocks port bs with
        | none => .next (w.reply port 2)
        | some blocks => .next (((w.acknowledge port (h / 2 ^ 28 % 2 ^ 12)).setLink (linkIn port)
          (l.accept (decide (h / 2 ^ 64 % 2 = 1)) blocks)).reply port 1) := by
  show execFrameReceive _ _ s = _
  simp only [execFrameReceive, up, s.wakeDie_portUp, sound, data, Bool.not_true, Bool.false_eq_true, if_false, if_true]
    <;> rfl

theorem exec_frameReceive_nak (nak : numAt (wordBytes frame) 0 16 % 256 = 2) : exec (.frameReceive port frame) s =
    .next (((s.wakeDie (port / 8)).acknowledge port (numAt (wordBytes frame) 0 16 / 2 ^ 28 % 2 ^ 12)).replay port) := by
  show execFrameReceive _ _ s = _
  simp only [execFrameReceive, up, s.wakeDie_portUp, sound, nak, Bool.not_true, Bool.false_eq_true, if_false, if_true]

theorem exec_frameReceive_ack (kind : numAt (wordBytes frame) 0 16 % 256 = 1 ∨ numAt (wordBytes frame) 0 16 % 256 = 3) :
    exec (.frameReceive port frame) s =
      .next ((s.wakeDie (port / 8)).acknowledge port (numAt (wordBytes frame) 0 16 / 2 ^ 28 % 2 ^ 12)) := by
  show execFrameReceive _ _ s = _
  obtain kind | kind := kind <;>
    simp only [execFrameReceive, up, s.wakeDie_portUp, sound, kind, Bool.not_true, Bool.false_eq_true, if_false, if_true]

end

section
variable {s : State} {port : Nat} (ack : Nat) (up : s.portUp port = true)
include up

theorem exec_ackReceive_up : exec (.ackReceive port ack) s = .next ((s.wakeDie (port / 8)).acknowledge port ack) := by
  show execAckReceive _ _ s = _
  rw [execAckReceive, if_pos up]

theorem exec_nakReceive_up : exec (.nakReceive port ack) s = .next (((s.wakeDie (port / 8)).acknowledge port ack).replay port) := by
  show execNakReceive _ _ s = _
  rw [execNakReceive, if_pos up]

end

section
variable {s : State} {port ack : Nat} {l : Link} (out : s.link (linkOut port) = l)
include out

/-- The frames up to the first one that the ack field names are released (R369). -/
theorem State.acknowledge_releases {k : Nat} (held : k < l.unacked.length) (answers : (l.sentBase + k) % 2 ^ 12 = ack % 2 ^ 12)
    (first : ∀ j, j < k → ¬ (l.sentBase + j) % 2 ^ 12 = ack % 2 ^ 12) : s.acknowledge port ack =
      s.setLink (linkOut port) ({ l with unacked := l.unacked.drop (k + 1), sentBase := l.sentBase + k + 1 } : Link).eraseKeys := by
  have found : (List.range l.unacked.length).find? (fun k => (l.sentBase + k) % 2 ^ 12 = ack % 2 ^ 12) = some k := by
    rw [List.find?_range_eq_some]
    exact ⟨decide_eq_true answers, List.mem_range.2 held, fun j hj => by simpa using first j hj⟩
  simp only [State.acknowledge, out, found]

theorem State.acknowledge_none (none : ∀ k, k < l.unacked.length → ¬ (l.sentBase + k) % 2 ^ 12 = ack % 2 ^ 12) :
    s.acknowledge port ack = s := by
  have found : (List.range l.unacked.length).find? (fun k => (l.sentBase + k) % 2 ^ 12 = ack % 2 ^ 12) = .none := by
    rw [List.find?_eq_none]
    exact fun k mem => by simpa using none k (List.mem_range.1 mem)
  simp only [State.acknowledge, out, found]

end

/-! ### Keys and training (R365) -/

theorem senderOf_even {n : Nat} (even : n % 2 = 0) : senderOf n = some n := by rw [senderOf, if_pos even]

/-- The other epoch's parity is the one that is not in force. -/
theorem toNat_eq_toNat_not_iff (a b : Bool) : a.toNat = (!b).toNat ↔ a ≠ b := by revert a b; decide

section
variable {s : State} {n o : Nat} (sender : senderOf n = some o)
include sender

theorem exec_keyRenewal_waits (old : ∃ x ∈ (s.link o).unacked, x.1 ≠ (s.link o).kep) : exec (.keyRenewal n) s = .next s := by
  have older : (s.link o).unacked.any (fun u => u.1.toNat = (!(s.link o).kep).toNat) = true := by
    simpa only [List.any_eq_true, decide_eq_true_eq, toNat_eq_toNat_not_iff] using old
  show execKeyRenewal n s = _
  simp only [execKeyRenewal, sender, older, Bool.or_true, if_true]

variable (alive : (s.link o).down = false) (die : (s.die (o / 16)).lost = false) (keyed : s.keyless (o / 2) = false)
  (settled : ∀ x ∈ (s.link o).unacked, x.1 = (s.link o).kep)
include alive die keyed settled

theorem exec_keyRenewal_renews :
    let l := s.link o
    let u := s.freshKey.1
    let key := s.freshKey.2
    exec (.keyRenewal n) s = .next ((match partnerPort (o / 2) with
      | none => u
      | some q => u.setLink (linkIn q) { u.link (linkIn q) with
          kep := l.kep, keys := mapSet ((u.link (linkIn q)).keys.filter fun k => k.1 = l.kep.toNat) (!l.kep).toNat key }).setLink o
        ({ l with keys := mapSet l.keys (!l.kep).toNat key, kep := !l.kep, used := 0 } : Link).eraseKeys) := by
  have young : (s.link o).unacked.any (fun u => u.1.toNat = (!(s.link o).kep).toNat) = false := by
    simpa only [List.any_eq_false, decide_eq_true_eq, toNat_eq_toNat_not_iff, ne_eq, not_not] using settled
  show execKeyRenewal n s = _
  simp only [execKeyRenewal, sender, alive, die, keyed, young, Bool.or_self, Bool.false_eq_true, if_false]
    <;> rfl

end

/-- The trained directions: counts from 0, one key, and what the receiver had not accepted. -/
theorem State.trainDirection_links (s : State) {o i : Nat} (apart : o ≠ i) :
    let t := s.trainDirection o i
    (t.link o).sentBase = 0 ∧ (t.link i).accepted = 0 ∧ (t.link o).keys = (t.link i).keys ∧
    (t.link o).unacked.map Prod.snd = ((s.link o).unacked.drop ((s.link i).accepted - (s.link o).sentBase)).map Prod.snd := by
  have fresh (m : Nat) : s.freshKey.1.link m = s.link m := State.link_congr rfl m
  simp only [State.trainDirection, State.link_setLink_same, State.link_setLink_ne _ _ apart, fresh, List.map_map, true_and]
  rfl

/-! ### Lanes and links that fail (R355, R363) -/

theorem exec_laneFailure_trains {s : State} {n : Nat} (alive : (s.link n).down = false) (left : 4 < (s.link n).lanes) :
    exec (.laneFailure n) s = .next ((s.setLink n { s.link n with lanes := (s.link n).lanes - 1 }).trainPort (n / 2)) := by
  show execLaneFailure n s = _
  rw [execLaneFailure, if_neg (by simp [alive]), if_neg (by omega)]

theorem exec_laneFailure_drops {s : State} {n : Nat} (alive : (s.link n).down = false) (few : (s.link n).lanes ≤ 4) :
    exec (.laneFailure n) s = .next ((s.setLink n { s.link n with lanes := (s.link n).lanes - 1 }).dropLink (n / 2)) := by
  show execLaneFailure n s = _
  rw [execLaneFailure, if_neg (by simp [alive]), if_pos few]

/-- Both directions of a port down. -/
def State.portDown (s : State) (p : Nat) : State :=
  let v := s.setLink (linkOut p) { s.link (linkOut p) with down := true }
  v.setLink (linkIn p) { v.link (linkIn p) with down := true }

theorem State.dropLink_eq (s : State) (port : Nat) : s.dropLink port =
    let v := (port :: (partnerPort port).toList).foldl State.portDown s
    v.lostEnds.foldl (fun (s : State) e => s.streamLost e.1 e.2) v := rfl

theorem exec_linkDown_keeps {s v : State} {port : Nat} (down : (port :: (partnerPort port).toList).foldl State.portDown s = v)
    (kept : v.lostEnds = []) : exec (.linkDown port) s = .next v := by
  show execLinkDown port s = _
  simp only [execLinkDown, State.dropLink_eq, down, kept, List.foldl_nil]

end Sys2Proof.Machine

namespace Sys2Proof.Proofs

open Sys2Proof.Machine

/-- Settles O51. -/
theorem linkActs : Obligations.LinkActs := by
  unfold Obligations.LinkActs
  refine ⟨?pair, ?takes, ?enters, ?close, ?frame, ?acks, fun n even => senderOf_even even, ?renewal,
    fun s o i apart => s.trainDirection_links apart,
    fun s n alive => ⟨exec_laneFailure_trains alive, exec_laneFailure_drops alive⟩, ?down⟩
  case pair =>
    intro s t p u q a b hp hq tx rx freeA freeB namesA namesB name mayA mayB path
    exact ⟨exec_streamPair_pairs hp hq tx rx freeA freeB namesA namesB name mayA mayB path,
      exec_streamPair_fails hp hq tx rx freeA freeB namesA namesB name mayA mayB path⟩
  case takes =>
    intro s t p a k r hp still tx paired path may queue stays noCloser
    have takes := exec_streamTokenTransfer_takes hp still tx paired path may
    rw [State.takeToken_cons queue stays noCloser] at takes
    exact ⟨fun room => by rw [takes, if_pos room], fun full => by rw [takes, if_neg (by omega)]⟩
  case enters =>
    intro s t p u k e w r hp one path rx transit token paired may room v noSender
    exact exec_streamTokenTransfer_enters hp one path rx transit token paired may room noSender
  case close =>
    intro s u q e hq rx paired may mark v
    have marked := exec_streamCloseMark_marked hq rx paired may mark
    exact ⟨fun waits => by rw [marked, waits], fun n c closes => by rw [marked, closes]⟩
  case frame =>
    intro s port frame up bs h w u l next receives
    refine ⟨exec_frameReceive_bad up, fun sound => ⟨fun blocks data inOrder opened => ?_, fun data outOfOrder => ?_,
      fun data inOrder fails => ?_, exec_frameReceive_nak up sound, exec_frameReceive_ack up sound⟩⟩
    · refine (exec_frameReceive_data up sound data).trans ?_
      rw [if_neg (not_not.2 (of_decide_eq_true inOrder)), opened]
      rfl
    · refine (exec_frameReceive_data up sound data).trans ?_
      rw [if_pos (of_decide_eq_false outOfOrder)]
    · refine (exec_frameReceive_data up sound data).trans ?_
      rw [if_neg (not_not.2 (of_decide_eq_true inOrder)), fails]
  case acks =>
    intro s port ack up w l released answers
    have out : w.link (linkOut port) = l := s.wakeDie_link _ _
    rw [exec_ackReceive_up ack up, exec_nakReceive_up ack up]
    refine ⟨fun k held names first => ?_, fun none => ?_⟩
    · rw [State.acknowledge_releases out held names first]
      exact ⟨rfl, rfl⟩
    · rw [State.acknowledge_none out none]
      exact ⟨rfl, rfl⟩
  case renewal =>
    intro s n o sender alive die keyed l u key held
    refine ⟨exec_keyRenewal_waits sender, fun settled => ?_⟩
    have renews := exec_keyRenewal_renews sender alive die keyed settled
    exact ⟨fun alone => by rw [renews, alone], fun q joined => by rw [renews, joined]⟩
  case down =>
    intro s port down drops
    exact ⟨fun alone kept => exec_linkDown_keeps (by rw [alone]; rfl) kept,
      fun q joined kept => exec_linkDown_keeps (by rw [joined]; rfl) kept⟩

end Sys2Proof.Proofs

/-! Every instruction and every act goes on, but an access of the host or of a debugger to no memory (R395, R409). -/

namespace Sys2Proof.Machine

/-! ### Answers that go on

A shared operation either answers a state itself, a trap or a wait too, or hands on to the rest of the instruction, which goes on
from every state. -/

/-- An answer that is a next state. -/
def GoesOn (o : Out) : Prop := ∃ t, o = .next t

theorem GoesOn.next (s : State) : GoesOn (.next s) := ⟨s, rfl⟩

theorem GoesOn.ite {c : Prop} [Decidable c] {a b : Out} (yes : GoesOn a) (no : GoesOn b) : GoesOn (if c then a else b) := by
  split
  · exact yes
  · exact no

section
variable {s : State} {go : State → Out} (goes : ∀ t, GoesOn (go t))
include goes

theorem GoesOn.guarded {gn : Bool} {g : BitVec 3} {n : Nat} : GoesOn (guarded gn g n s go) := .ite (goes s) (.next _)

theorem GoesOn.privileged {w : Word} : GoesOn (privileged w s go) := .ite (.next _) (goes s)

theorem GoesOn.checks {l : List (Bool × BitVec 7 × Dword)} : GoesOn (checks s l go) := by
  obtain pass | ⟨c, -, -, fails⟩ := checks_cases l s go
  · rw [pass]; exact goes s
  · rw [fails]; exact .next _

theorem GoesOn.checksOpen {l : List (Bool × BitVec 7)} : GoesOn (checksOpen s l go) := by
  induction l with
  | nil => exact goes s
  | cons c r ih => exact .ite (.next _) ih

theorem GoesOn.inFabricOrder {i : Instr} : GoesOn (inFabricOrder i s go) := .ite (.next _) (goes s)

theorem GoesOn.whileLoading {i : Instr} {loading : Bool} : GoesOn (whileLoading i loading s go) := .ite (.next _) (goes s)

theorem GoesOn.draftIssue {f : FormA} : GoesOn (draftIssue f s go) := .checks fun _ => .checksOpen fun _ => .checks goes

theorem GoesOn.systemAccess {w : Word} {n : Nat} : GoesOn (systemAccess w n s go) := .ite (.next _) (goes s)

theorem GoesOn.ownerOnly {sub : BitVec 3} {w : Word} : GoesOn (ownerOnly sub w s go) := .ite (.next _) (goes s)

theorem GoesOn.tidChecks {c : Core} {ea id : Dword} : GoesOn (tidChecks c ea id s go) := .checks fun _ => .checksOpen goes

end

theorem GoesOn.loadAt {s : State} {i : Instr} {ea : Int} {n : Nat} {go : State → Nat → Out} (goes : ∀ t a, GoesOn (go t a)) :
    GoesOn (loadAt s i ea n go) := .checks fun t => .ite (.next _) (goes t _)

/-- A walk that fails traps, one on a page under move leaves the instruction to be run again, and one that succeeds hands on. -/
theorem GoesOn.coreTranslate {s : State} {ea : Int} {access : Nat} {go : State → Nat → Out} (goes : ∀ t a, GoesOn (go t a)) :
    GoesOn (coreTranslate s ea access go) := by
  fun_cases Machine.coreTranslate s ea access go
  · exact .next _
  · exact .next _
  · exact goes _ _

theorem GoesOn.globalAt {s : State} {ea : Int} {align : BitVec 7} {access : Nat} {go : State → Nat → Out}
    (goes : ∀ t a, GoesOn (go t a)) : GoesOn (globalAt s ea align access go) := .checks fun _ => .coreTranslate goes

theorem GoesOn.onLine {s : State} {i : Instr} {go : Region → Out} (goes : ∀ r, GoesOn (go r)) : GoesOn (onLine i s go) := by
  fun_cases Machine.onLine i s go
  · exact .next _
  · exact .next _
  · exact goes _

/-! ### Operations that the forms of an instruction share -/

section
variable (s : State) (i : Instr) (a d : BitVec 5) (sub : BitVec 3) (n v : Dword) (x len : Nat)

theorem takeRecord_goesOn (r : Option (List Byte)) : GoesOn (takeRecord x d r len s) := by
  cases r with
  | none => exact .next _
  | some bs => exact .next _

theorem dequeSteal_goesOn : GoesOn (dequeSteal a d v len s) :=
  .checks fun _ => .ite (.next _) (takeRecord_goesOn _ _ _ _ _)

theorem armActor_goesOn : GoesOn (armActor i sub a n len s) :=
  .ite (.next _) (.ite (.next _) (.loadAt fun _ _ => .ite (.next _) (.next _)))

theorem globalLoad_goesOn (order : Nat) (ea : Int) : GoesOn (globalLoad i d order ea len s) :=
  .globalAt fun _ _ => .ite (.next _) (.next _)

theorem globalStore_goesOn (order : Nat) (ea : Int) : GoesOn (globalStore d order ea len s) := .globalAt fun _ _ => .next _

theorem coreAtomic_goesOn (order : Nat) (ea : Int) (f : Nat → Option Nat) : GoesOn (coreAtomic d order ea f s) :=
  .globalAt fun _ _ => .next _

/-- An arrival whose update fails traps (R239). -/
theorem barrierAct_goesOn (order arrivals : Nat) (de : Dword) : GoesOn (barrierAct d order arrivals v de len s) :=
  .checks fun t => by
    simp only []
    split
    · exact .next _
    · exact .next _

theorem tagInsert_goesOn : GoesOn (tagInsert a n len s) := .checks fun _ => .checksOpen fun _ => .next _

theorem loadSlot_goesOn : GoesOn (loadSlot i a n len s) := .checks fun _ => .ite (.next _) (.checks fun _ => .next _)

theorem argWrite_goesOn (w : Word) : GoesOn (argWrite n w len s) := .checks fun _ => .next _

theorem portGet_goesOn (limit : Option Nat) : GoesOn (portGet x d limit len s) := by
  fun_cases portGet x d limit len s <;> exact .next _

theorem setCaps_goesOn (bad : Bool) (cap quota : Nat) : GoesOn (setCaps i x bad v cap quota len s) :=
  .checks fun _ => .whileLoading fun _ => .next _

theorem resetSlots_goesOn (all : Bool) : GoesOn (resetSlots i all x v len s) :=
  .checks fun _ => .checks fun _ => .whileLoading fun _ => .next _

theorem beatSet_goesOn : GoesOn (beatSet i sub v len s) := .onLine fun r => by
  cases r.bsetFault sub.toNat v.toInt with
  | none => exact .next _
  | some c => exact .next _

theorem counterRead_goesOn : GoesOn (counterRead i sub d v len s) := .onLine fun _ => .ite (.next _) (.next _)

theorem counterClear_goesOn : GoesOn (counterClear i sub v len s) := .onLine fun _ => .ite (.next _) (.next _)

theorem graphSubmit_goesOn : GoesOn (graphSubmit d a n len s) := by
  fun_cases graphSubmit d a n len s <;> exact .next _

theorem graphSignal_goesOn : GoesOn (graphSignal a n len s) := .ite (.next _) (.ite (.next _) (.next _))

theorem plainSend_goesOn (ordered : Bool) : GoesOn (plainSend i ordered a d x len s) :=
  .checksOpen fun _ => .ite (.next _) (.ite (.next _) (.next _))

theorem expertSend_goesOn : GoesOn (expertSend i a d x len s) := by
  fun_cases expertSend i a d x len s
  · exact .next _
  · exact .next _
  · exact .checksOpen fun _ => .ite (.next _) (.ite (.next _) (.next _))

theorem receive_goesOn : GoesOn (receive a d x len s) := .checksOpen fun _ => by
  split
  · exact .next _
  · exact .next _

/-- Without the group, or off its tree, a change of readiness traps (R383). -/
theorem changeReady_goesOn (more : Bool) : GoesOn (changeReady more a d x len s) := .checksOpen fun _ => by
  split
  · exact .next _
  · split
    · exact .next _
    · exact .next _

theorem installSet_goesOn (e : ExpertSet) : GoesOn (installSet x e len s) := by
  fun_cases installSet x e len s <;> exact .next _

theorem groupLoad_goesOn : GoesOn (groupLoad i a x len s) := by
  refine .ite (.checksOpen fun t => .ite (.next _) ?_) (.checksOpen fun _ => .ite (.next _) (.checksOpen fun t => .ite (.next _) ?_))
  · cases parseSet (t.readLocal (s.core.reg a).toNat 320) with
    | none => exact .next _
    | some e => exact installSet_goesOn _ _ _ _
  · split
    · exact .next _
    · exact .ite (.next _) (.next _)

theorem groupDrop_goesOn : GoesOn (groupDrop i x len s) :=
  .ite (.ite (.next _) (.next _)) (.ite (.next _) (.ite (.next _) (.next _)))

theorem closeBatch_goesOn : GoesOn (closeBatch d x len s) := .ite (.next _) (.next _)

theorem groupState_goesOn (op : Nat) : GoesOn (groupState i op a d x len s) := by
  fun_cases groupState i op a d x len s
  · exact groupLoad_goesOn _ _ _ _ _
  · exact groupDrop_goesOn _ _ _ _
  · exact closeBatch_goesOn _ _ _ _
  · exact .next _
  · exact .next _
  · exact .next _

theorem setPower_goesOn : GoesOn (setPower sub v len s) := .ite (.checksOpen fun _ => .next _) (.checksOpen fun _ => .next _)

/-- A stream command that fails its checks traps, and one that is built is placed or waits for the queue (R34). -/
theorem issueStream_goesOn (code : Nat) : GoesOn (issueStream i code s) := .guarded fun _ => .ite (.next _) (by
  split
  · exact .next _
  · exact .next _
  · exact .ite (.next _) (.next _))

end

/-! ### The rules of rows of integers and FP32 -/

section
variable (s : State)

theorem intA_goesOn (reading : Option Bool) (f : Exact) (i : FormA) : GoesOn (intA reading f i s) := .guarded fun _ => .next _

theorem intB_goesOn (reading : Option Bool) (f : Exact) (zext : Bool) (i : FormB) : GoesOn (intB reading f zext i s) :=
  .guarded fun _ => .next _

theorem intC_goesOn (reading : Option Bool) (f : Exact) (zext : Bool) (i : FormC) : GoesOn (intC reading f zext i s) :=
  .guarded fun _ => .next _

theorem fpA_goesOn (r : FpRule) (f : FormA) : GoesOn (fpA r f s) := .guarded fun _ => .next _

theorem fpC_goesOn (r : FpRule) (f : FormC) : GoesOn (fpC r f s) := .guarded fun _ => .next _

end

/-- Tokens of a slice that a draft context refuses trap (R303). -/
theorem execSdacc_goesOn (f : FormA) (s : State) : GoesOn (execSdacc f s) :=
  .guarded fun _ => .checks fun _ => .checksOpen fun _ => .ite (.next _) (by
    simp only []
    split
    · exact .next _
    · exact .whileLoading fun _ => .next _)

theorem execGack_goesOn (f : FormA) (s : State) : GoesOn (execGack f s) := .guarded fun _ => by
  simp only []
  split
  · exact .next _
  · exact .ite (.next _) (.next _)

/-- Without its group or set a read of members traps (R391). -/
theorem execXmask_goesOn (f : FormA) (s : State) : GoesOn (execXmask f s) := .guarded fun t => by
  refine .ite (.ite (.next _) ?_) (.ite (.next _) ?_)
  · split
    · exact .next _
    · exact .next _
  · split
    · exact .next _
    · refine .ite (.next _) ?_
      split
      · exact .next _
      · exact .next _

/-- A tenant that `ctxld` cannot start traps at issue (R314, R317). -/
theorem execCtxld_goesOn (f : FormA) (s : State) : GoesOn (execCtxld f s) :=
  .privileged fun _ => .guarded fun _ => .checksOpen fun _ => .checks fun _ => by
    split
    · exact .next _
    · exact .next _

/-! ### Instructions of cores -/

/-- An instruction of form A, B or C. -/
def scalarInstr (i : Instr) : Bool := (asFormA i).isSome || (asFormB i).isSome || (asFormC i).isSome

theorem exec_goesOn_of_scalar (i : Instr) (s : State) (scalar : scalarInstr i = true := by rfl) : GoesOn (exec i s) := by
  unfold exec
  cases i
  -- control transfer and traps
  case nop => exact .next _
  case brB | brC | callB | callC | ret | jr | trapB => exact .guarded fun _ => .next _
  case bpB | bpC | done | loopB | loopC | wfe | brk => exact .guarded fun _ => .ite (.next _) (.next _)
  case eret => exact .privileged fun _ => .guarded fun _ => .next _
  -- integers
  case addA | subA | andA | orA | xorA | andnA | shlA | shrA | sarA | rotlA | minA | maxA | minuA | maxuA | movA | mulA | mulhA |
      mulhuA | divA | divuA | remA | remuA | clz | ctz | popc | brev | bswap => exact intA_goesOn _ _ _ _
  case addB | subB | andB | orB | xorB | andnB | shlB | shrB | sarB | rotlB | minB | maxB | minuB | maxuB | movB | mulB | mulhB |
      mulhuB | divB | divuB | remB | remuB => exact intB_goesOn _ _ _ _ _
  case addC | subC | andC | orC | xorC | andnC | shlC | shrC | sarC | rotlC | minC | maxC | minuC | maxuC | movC | mulC | mulhC |
      mulhuC | divC | divuC | remC | remuC => exact intC_goesOn _ _ _ _ _
  case selA | selB | selC | extA | extB | bfx | bfi | addcpA | addcpB | addcpC => exact .guarded fun _ => .next _
  -- comparisons, predicates and addresses
  case cmpA | cmpB | cmpC | pand | por | pxor | pnot | pset | pget | leaA | leaB | leaC | pcrelB | pcrelC =>
    exact .guarded fun _ => .next _
  -- accesses to the scratchpad
  case ldA | ldB | ldC | ldpA | ldpB => exact .guarded fun _ => .loadAt fun _ _ => .next _
  case stA | stB | stC | stpA | stpB => exact .guarded fun _ => .checks fun _ => .next _
  -- accesses to M, boundaries, barriers and tags
  case gldA | gldB => exact .guarded fun _ => globalLoad_goesOn _ _ _ _ _ _
  case gstA | gstB => exact .guarded fun _ => globalStore_goesOn _ _ _ _ _
  case amo | cas => exact .guarded fun _ => coreAtomic_goesOn _ _ _ _ _
  case phase => exact .guarded fun _ => .ite (.next _) (.next _)
  case barvA | barvB | bexpA | bexpB => exact .guarded fun _ => barrierAct_goesOn _ _ _ _ _ _ _
  case bwait => exact .guarded fun _ => .checks fun _ => .ite (.next _) (.next _)
  case tlook => exact .guarded fun _ => .next _
  case tinsA | tinsB => exact .guarded fun _ => tagInsert_goesOn _ _ _ _
  case tevict => exact .guarded fun _ => .checks fun _ => .checksOpen fun _ => .next _
  -- FP32
  case faddA | fsubA | fmulA | fmaA | fmsA | fnmaA | fdivA | fsqrt | fminA | fmaxA | fsgnA | frnd => exact fpA_goesOn _ _ _
  case faddC | fsubC | fmulC | fmaC | fmsC | fnmaC | fdivC | fminC | fmaxC | fsgnC => exact fpC_goesOn _ _ _
  case fcmpA | fcmpC | fcvt | fclass => exact .guarded fun _ => .next _
  -- ports and configuration
  case fputA | fputB | fcntB => exact .guarded fun _ => .ite (.next _) (.next _)
  case fgetA | fgetB => exact .guarded fun _ => portGet_goesOn _ _ _ _ _
  case fcntA => exact .guarded fun _ => .next _
  case acrd | acclr => exact .guarded fun _ => .inFabricOrder fun _ => .next _
  case cfglA | cfglB => exact .guarded fun _ => .inFabricOrder fun _ => loadSlot_goesOn _ _ _ _ _
  case argwA | argwB | argwC => exact .guarded fun _ => .inFabricOrder fun _ => argWrite_goesOn _ _ _ _
  -- beats
  case bsetA | bsetB => exact .guarded fun _ => beatSet_goesOn _ _ _ _ _
  case bget | bhold | bgo => exact .guarded fun _ => .onLine fun _ => .next _
  case rfstA | rfstB => exact .guarded fun _ => counterRead_goesOn _ _ _ _ _ _
  case rfclA | rfclB => exact .guarded fun _ => counterClear_goesOn _ _ _ _ _
  -- deques, actors and graphs
  case dqpush => exact .guarded fun _ => .checks fun _ => .ite (.next _) (.next _)
  case dqpop => exact .guarded fun _ => .checks fun _ => takeRecord_goesOn _ _ _ _ _
  case dqstealA | dqstealB => exact .guarded fun _ => dequeSteal_goesOn _ _ _ _ _
  case armA | armB => exact .guarded fun _ => armActor_goesOn _ _ _ _ _ _
  case evget => exact .guarded fun _ => .next _
  case yield => exact .guarded fun _ => .ite (.next _) (.next _)
  case gnodeA | gnodeB => exact .guarded fun _ => graphSubmit_goesOn _ _ _ _ _
  case gsigA | gsigB => exact .guarded fun _ => graphSignal_goesOn _ _ _ _
  -- groups
  case gsendA | gsendB | gsendoA | gsendoB => exact .guarded fun _ => plainSend_goesOn _ _ _ _ _ _ _
  case gsendXA | gsendXB => exact .guarded fun _ => expertSend_goesOn _ _ _ _ _ _
  case grecvA | grecvB => exact .guarded fun _ => receive_goesOn _ _ _ _ _
  case greadyA | greadyB | gunreadyA | gunreadyB => exact .guarded fun _ => changeReady_goesOn _ _ _ _ _ _
  case gack => exact execGack_goesOn _ _
  case gstatA | gstatB =>
    exact .ite (.privileged fun _ => .guarded fun _ => groupState_goesOn _ _ _ _ _ _ _)
      (.guarded fun _ => groupState_goesOn _ _ _ _ _ _ _)
  case xmask => exact execXmask_goesOn _ _
  -- drafts
  case sdq => exact .guarded fun _ => .checks fun _ => .checksOpen fun _ => .whileLoading fun _ => .next _
  case sdacc => exact execSdacc_goesOn _ _
  case sdsave | sdload => exact .guarded fun _ => .draftIssue fun _ => .whileLoading fun _ => .next _
  case sdcapA | sdcapB => exact .guarded fun _ => setCaps_goesOn _ _ _ _ _ _ _ _
  case sdrstA | sdrstB => exact .guarded fun _ => resetSlots_goesOn _ _ _ _ _ _
  -- the system
  case sget => exact .systemAccess fun _ => .guarded fun _ => .next _
  case sset => exact .systemAccess fun _ => .guarded fun _ => .ite (.next _) (.next _)
  case relatch => exact .privileged fun _ => .guarded fun _ => .checksOpen fun _ => .next _
  case ctxsv => exact .privileged fun _ => .guarded fun _ => .checksOpen fun _ => .checks fun _ => .next _
  case ctxld => exact execCtxld_goesOn _ _
  case tidw => exact .guarded fun _ => .tidChecks fun _ => .ite (.next _) (.ite (.next _) (.next _))
  case tidr => exact .guarded fun _ => .tidChecks fun _ => .next _
  case pwrA => exact .ownerOnly fun _ => .guarded fun _ => .ite (.next _) (setPower_goesOn _ _ _ _)
  case pwrB => exact .ownerOnly fun _ => .guarded fun _ => setPower_goesOn _ _ _ _
  case cntr => exact .guarded fun _ => .checksOpen fun _ => .next _
  case cntc =>
    exact .guarded fun _ => .checksOpen fun _ => .ite (.next _) (.ite (.next _) (.ite (.next _) (.next _)))
  all_goals exact nomatch scalar

/-! ### Words of streams, units, operators and layout programs -/

theorem exec_goesOn_of_stream {i : Instr} {code : Nat} (stream : asStream i = some code) (s : State) : GoesOn (exec i s) := by
  unfold exec
  cases i
  case sport | ssink | sfill | sage | sbound | scfg | sarg | sldw | sswap | smat | scopy | sgath | sscat | slay | sring | sbar | swo |
      squant | stier | sxfer | sclose | smark => exact issueStream_goesOn _ _ _
  all_goals exact nomatch stream

theorem unitTurn_goesOn (go : Ctx → State → Option State) (s : State) : GoesOn (unitTurn go s) := by
  fun_cases unitTurn go s <;> exact .next _

theorem exec_goesOn_of_el {i : Instr} {code : Nat} (el : asEl i = some code) (s : State) : GoesOn (exec i s) := by
  unfold exec
  cases i
  case elIadd | elIsub | elImul | elImac | elIand | elIor | elIxor | elIshl | elIshr | elIsar | elImin | elImax | elIcmp | elIsel |
      elFadd | elFsub | elFmul | elFma | elFmin | elFmax | elFcmp | elFabs | elFdiv | elFsqrt | elFrsq | elFexp2 | elFlog2 | elFtanh |
      elCvtin | elCvtout | elPack | elUnpack | elQuant | elScale | elItof | elFtoi | elRsum | elRmax | elRmaxabs | elRmin | elRcnt |
      elScan | elMstrip | elMins | elConst | elIota | elSel | elDsel | elJoin | elGate | elErr | elMrd | elMwr | elMamo | elPub |
      elAcq | elAgen | elLgen | elMfeed | elNorm | elAcc | elCadd | elLut | elBsplit | elBjoin => exact unitTurn_goesOn _ _
  case elDelayIntake => show GoesOn (execElDelayIntake s); fun_cases execElDelayIntake <;> exact .next _
  all_goals exact nomatch el

theorem opTurn_goesOn (go : OpCtx → State → Option State) (s : State) : GoesOn (opTurn go s) := by
  fun_cases opTurn go s <;> exact .next _

theorem exec_goesOn_of_router {i : Instr} {code : Nat} (router : asRouter i = some code) (s : State) : GoesOn (exec i s) := by
  unfold exec
  cases i
  case steer | merge | carry | fork | drop => exact opTurn_goesOn _ _
  all_goals exact nomatch router

theorem layoutTurn_goesOn (go : Nat → LayoutRun → Cmd → LayoutWord → State → State) (s : State) : GoesOn (layoutTurn go s) := by
  fun_cases layoutTurn go s <;> exact .next _

theorem exec_goesOn_of_layout {i : Instr} {code : Nat} (layout : asLayout i = some code) (s : State) : GoesOn (exec i s) := by
  unfold exec
  cases i
  case layoutStop | layoutFor | layoutNext | layoutRd | layoutWr | layoutTr8 | layoutSwz | layoutPad | layoutCvt | layoutAdv |
      layoutMark | layoutSync => exact layoutTurn_goesOn _ _
  all_goals exact nomatch layout

/-! ### Waits that end by running their instruction

Each act below runs, from the start, an instruction of a core or a stream command that the wait names. -/

theorem execGsendResume_goesOn (t : Nat) (s : State) : GoesOn (execGsendResume t s) := by
  fun_cases execGsendResume t s
  · exact exec_goesOn_of_scalar (.gsendA _) _
  · exact exec_goesOn_of_scalar (.gsendB _) _
  · exact exec_goesOn_of_scalar (.gsendXA _) _
  · exact exec_goesOn_of_scalar (.gsendXB _) _
  · exact exec_goesOn_of_scalar (.gsendoA _) _
  · exact exec_goesOn_of_scalar (.gsendoB _) _
  · exact .next _
  · exact .next _

theorem execGroupInstall_goesOn (t : Nat) (s : State) : GoesOn (execGroupInstall t s) := by
  fun_cases execGroupInstall t s
  · exact exec_goesOn_of_scalar (.gstatA _) _
  · exact exec_goesOn_of_scalar (.gstatB _) _
  · exact .next _
  · exact .next _

theorem execDraftWaitEnd_goesOn (t : Nat) (s : State) : GoesOn (execDraftWaitEnd t s) := by
  fun_cases execDraftWaitEnd t s
  · exact exec_goesOn_of_scalar (.sdq _) _
  · exact exec_goesOn_of_scalar (.sdacc _) _
  · exact exec_goesOn_of_scalar (.sdsave _) _
  · exact exec_goesOn_of_scalar (.sdload _) _
  · exact exec_goesOn_of_scalar (.sdcapA _) _
  · exact exec_goesOn_of_scalar (.sdcapB _) _
  · exact exec_goesOn_of_scalar (.sdrstA _) _
  · exact exec_goesOn_of_scalar (.sdrstB _) _
  · exact .next _
  · exact .next _

theorem execBeatInsnResume_goesOn (t : Nat) (s : State) : GoesOn (execBeatInsnResume t s) := by
  fun_cases execBeatInsnResume t s
  · exact exec_goesOn_of_scalar (.cfglA _) _
  · exact exec_goesOn_of_scalar (.cfglB _) _
  · exact exec_goesOn_of_scalar (.argwA _) _
  · exact exec_goesOn_of_scalar (.argwB _) _
  · exact exec_goesOn_of_scalar (.argwC _) _
  · exact exec_goesOn_of_scalar (.acrd _) _
  · exact exec_goesOn_of_scalar (.acclr _) _
  · exact exec_goesOn_of_scalar (.bsetA _) _
  · exact exec_goesOn_of_scalar (.bsetB _) _
  · exact exec_goesOn_of_scalar (.bget _) _
  · exact exec_goesOn_of_scalar (.bhold _) _
  · exact exec_goesOn_of_scalar (.bgo _) _
  · exact exec_goesOn_of_scalar (.rfstA _) _
  · exact exec_goesOn_of_scalar (.rfstB _) _
  · exact exec_goesOn_of_scalar (.rfclA _) _
  · exact exec_goesOn_of_scalar (.rfclB _) _
  · exact .next _
  · exact .next _

theorem execWriteOnceReadResume_goesOn (t : Nat) (s : State) : GoesOn (execWriteOnceReadResume t s) := by
  fun_cases execWriteOnceReadResume t s
  · exact exec_goesOn_of_scalar (.ldA _) _
  · exact exec_goesOn_of_scalar (.ldB _) _
  · exact exec_goesOn_of_scalar (.ldC _) _
  · exact exec_goesOn_of_scalar (.ldpA _) _
  · exact exec_goesOn_of_scalar (.ldpB _) _
  · exact exec_goesOn_of_scalar (.gldA _) _
  · exact exec_goesOn_of_scalar (.gldB _) _
  · exact exec_goesOn_of_scalar (.cfglA _) _
  · exact exec_goesOn_of_scalar (.cfglB _) _
  · exact exec_goesOn_of_scalar (.tidw _) _
  · exact exec_goesOn_of_scalar (.dqpush _) _
  · exact exec_goesOn_of_scalar (.armA _) _
  · exact exec_goesOn_of_scalar (.armB _) _
  · exact exec_goesOn_of_scalar (.gsendA _) _
  · exact exec_goesOn_of_scalar (.gsendB _) _
  · exact exec_goesOn_of_scalar (.gsendoA _) _
  · exact exec_goesOn_of_scalar (.gsendoB _) _
  · exact exec_goesOn_of_scalar (.gsendXA _) _
  · exact exec_goesOn_of_scalar (.gsendXB _) _
  · exact exec_goesOn_of_scalar (.gstatA _) _
  · exact exec_goesOn_of_scalar (.gstatB _) _
  · exact exec_goesOn_of_scalar (.sdacc _) _
  · exact exec_goesOn_of_stream (i := .scopy) rfl _
  · exact exec_goesOn_of_stream (i := .slay) rfl _
  · exact .next _
  · exact .next _

/-! ### Acts -/

/-- An act: no word of a core, a unit, an operator or a layout engine. -/
def actInstr (i : Instr) : Bool :=
  !scalarInstr i && (asStream i).isNone && (asEl i).isNone && (asRouter i).isNone && (asLayout i).isNone

/-- Each branch of an act answers a state, but for the host's and a debugger's accesses. -/
theorem exec_goesOn_of_act {i : Instr} (act : actInstr i = true) (host : ∀ d a w v, i ≠ .hostCxlMemAccess d a w v)
    (debugger : ∀ t k n w v, i ≠ .debuggerAccess t k n w v) (s : State) : GoesOn (exec i s) := by
  unfold exec
  cases i
  case gsendResume t => exact execGsendResume_goesOn t s
  case groupInstall t => exact execGroupInstall_goesOn t s
  case draftWaitEnd t => exact execDraftWaitEnd_goesOn t s
  case beatInsnResume t => exact execBeatInsnResume_goesOn t s
  case writeOnceReadResume t => exact execWriteOnceReadResume_goesOn t s
  case hostCxlMemAccess d a w v => exact absurd rfl (host d a w v)
  case debuggerAccess t k n w v => exact absurd rfl (debugger t k n w v)
  -- acts without a branch
  case sourceItemAdmit | smatRow | linkDown | eccUncorrectable | doorbell | queueRegisterWrite | idleWake | relatchTokenEmerge |
      wsSample | softPreemptTimeout | dieLost | thermalTrip | spareExhausted | tileReset | spdmRequest | managementMessage | jtagOpen |
      idleEntry | counterPeriodEnd | debuggerRelease => exact .next _
  -- waits of cores
  case wfeWake t => show GoesOn (execWfeWake t s); fun_cases execWfeWake <;> exact .next _
  case bwaitObserve t => show GoesOn (execBwaitObserve t s); fun_cases execBwaitObserve <;> exact .next _
  case fputResume t => show GoesOn (execFputResume t s); fun_cases execFputResume <;> exact .next _
  case fgetResume t => show GoesOn (execFgetResume t s); fun_cases execFgetResume <;> exact .next _
  case fgetTimeout t => show GoesOn (execFgetTimeout t s); fun_cases execFgetTimeout <;> exact .next _
  case fcntResume t => show GoesOn (execFcntResume t s); fun_cases execFcntResume <;> exact .next _
  case sdloadInstall cmd => show GoesOn (execSdloadInstall cmd s); fun_cases execSdloadInstall <;> exact .next _
  case relatchDone t => show GoesOn (execRelatchDone t s); fun_cases execRelatchDone <;> exact .next _
  case relatchTimeout t => show GoesOn (execRelatchTimeout t s); fun_cases execRelatchTimeout <;> exact .next _
  -- commands and the fabric
  case streamQueueAdmit t => show GoesOn (execStreamQueueAdmit t s); fun_cases execStreamQueueAdmit <;> exact .next _
  case commandDispatch t eng => show GoesOn (execCommandDispatch t eng s); fun_cases execCommandDispatch <;> exact .next _
  case elDelayOutput t slot => show GoesOn (execElDelayOutput t slot s); fun_cases execElDelayOutput <;> exact .next _
  case mwrEotDrain t m => show GoesOn (execMwrEotDrain t m s); fun_cases execMwrEotDrain <;> exact .next _
  case relatchTokenConsume t m => show GoesOn (execRelatchTokenConsume t m s); fun_cases execRelatchTokenConsume <;> exact .next _
  case routerForward t chan => show GoesOn (execRouterForward t chan s); fun_cases execRouterForward <;> exact .next _
  case actorFiring t => show GoesOn (execActorFiring t s); fun_cases execActorFiring <;> exact .next _
  case engineRead cmd k => show GoesOn (execEngineRead cmd k s); fun_cases execEngineRead <;> exact .next _
  case engineWrite cmd k => show GoesOn (execEngineWrite cmd k s); fun_cases execEngineWrite <;> exact .next _
  case engineComplete cmd => show GoesOn (execEngineComplete cmd s); fun_cases execEngineComplete <;> exact .next _
  case engineReport eng => show GoesOn (execEngineReport eng s); fun_cases execEngineReport <;> exact .next _
  case sbarArrive t => show GoesOn (execSbarArrive t s); fun_cases execSbarArrive <;> exact .next _
  case seep agent addr => show GoesOn (execSeep agent addr s); fun_cases execSeep <;> exact .next _
  case pageWalk age va access => show GoesOn (execPageWalk age va access s); fun_cases execPageWalk <;> exact .next _
  case portAgeStream t => show GoesOn (execPortAgeStream t s); fun_cases execPortAgeStream <;> exact .next _
  -- regions and their beats
  case regionLoad cmd => show GoesOn (execRegionLoad cmd s); fun_cases execRegionLoad <;> exact .next _
  case residencyWaitEnd cmd => show GoesOn (execResidencyWaitEnd cmd s); fun_cases execResidencyWaitEnd <;> exact .next _
  case issueGateClose leader station =>
    show GoesOn (execIssueGateClose leader station s)
    fun_cases execIssueGateClose <;> exact .next _
  case beatBoundary leader => show GoesOn (execBeatBoundary leader s); fun_cases execBeatBoundary <;> exact .next _
  case slipEnd leader => show GoesOn (execSlipEnd leader s); fun_cases execSlipEnd <;> exact .next _
  case governorWindow leader => show GoesOn (execGovernorWindow leader s); fun_cases execGovernorWindow <;> exact .next _
  case sinkReport leader sink => show GoesOn (execSinkReport leader sink s); fun_cases execSinkReport <;> exact .next _
  case configParityError t slot => show GoesOn (execConfigParityError t slot s); fun_cases execConfigParityError <;> exact .next _
  case configParityRepair leader => show GoesOn (execConfigParityRepair leader s); fun_cases execConfigParityRepair <;> exact .next _
  -- the ring and the matrix unit
  case ringRendezvous cluster => show GoesOn (execRingRendezvous cluster s); fun_cases execRingRendezvous <;> exact .next _
  case ringTimeout t => show GoesOn (execRingTimeout t s); fun_cases execRingTimeout <;> exact .next _
  case matrixCommandStart t sn => show GoesOn (execMatrixCommandStart t sn s); fun_cases execMatrixCommandStart <;> exact .next _
  case stripDeliver t => show GoesOn (execStripDeliver t s); fun_cases execStripDeliver <;> exact .next _
  -- graphs
  case graphNodeRun ctx => show GoesOn (execGraphNodeRun ctx s); fun_cases execGraphNodeRun <;> exact .next _
  case graphNodeFinish ctx node => show GoesOn (execGraphNodeFinish ctx node s); fun_cases execGraphNodeFinish <;> exact .next _
  case endNode ctx => show GoesOn (execEndNode ctx s); fun_cases execEndNode <;> exact .next _
  case contextFree ctx => show GoesOn (execContextFree ctx s); fun_cases execContextFree <;> exact .next _
  case spawnRead ctx node => show GoesOn (execSpawnRead ctx node s); fun_cases execSpawnRead <;> exact .next _
  case spawnTaskPush ctx node => show GoesOn (execSpawnTaskPush ctx node s); fun_cases execSpawnTaskPush <;> exact .next _
  -- tiers and quanta
  case pageMove dev fn va frame => show GoesOn (execPageMove dev fn va frame s); fun_cases execPageMove <;> exact .next _
  case quantumExpiry dev fn => show GoesOn (execQuantumExpiry dev fn s); fun_cases execQuantumExpiry <;> exact .next _
  case quantumGrant dev fn => show GoesOn (execQuantumGrant dev fn s); fun_cases execQuantumGrant <;> exact .next _
  case hang dev fn => show GoesOn (execHang dev fn s); fun_cases execHang <;> exact .next _
  -- streams and links
  case streamPair txPort rxPort => show GoesOn (execStreamPair txPort rxPort s); fun_cases execStreamPair <;> exact .next _
  case streamTokenTransfer txPort => show GoesOn (execStreamTokenTransfer txPort s); fun_cases execStreamTokenTransfer <;> exact .next _
  case streamCloseMark rxPort => show GoesOn (execStreamCloseMark rxPort s); fun_cases execStreamCloseMark <;> exact .next _
  case frameReceive link frame => show GoesOn (execFrameReceive link frame s); fun_cases execFrameReceive <;> exact .next _
  case nakReceive link ack => show GoesOn (execNakReceive link ack s); fun_cases execNakReceive <;> exact .next _
  case ackReceive link ack => show GoesOn (execAckReceive link ack s); fun_cases execAckReceive <;> exact .next _
  case keyRenewal link => show GoesOn (execKeyRenewal link s); fun_cases execKeyRenewal <;> exact .next _
  case laneFailure link => show GoesOn (execLaneFailure link s); fun_cases execLaneFailure <;> exact .next _
  -- groups
  case sendAtRoot send => show GoesOn (execSendAtRoot send s); fun_cases execSendAtRoot <;> exact .next _
  case sendSteer send => show GoesOn (execSendSteer send s); fun_cases execSendSteer <;> exact .next _
  case orderwaitRelease send => show GoesOn (execOrderwaitRelease send s); fun_cases execOrderwaitRelease <;> exact .next _
  case parkedRestart group => show GoesOn (execParkedRestart group s); fun_cases execParkedRestart <;> exact .next _
  case groupParkTimeout send => show GoesOn (execGroupParkTimeout send s); fun_cases execGroupParkTimeout <;> exact .next _
  case readinessArrive msg => show GoesOn (execReadinessArrive msg s); fun_cases execReadinessArrive <;> exact .next _
  case ackArrive msg => show GoesOn (execAckArrive msg s); fun_cases execAckArrive <;> exact .next _
  case struck dev die fn => show GoesOn (execStruck dev die fn s); fun_cases execStruck <;> exact .next _
  case biased t set => show GoesOn (execBiased t set s); fun_cases execBiased <;> exact .next _
  -- alarms, queues, bring-up and power
  case securityAlarm dev level fn => show GoesOn (execSecurityAlarm dev level fn s); fun_cases execSecurityAlarm <;> exact .next _
  case queueEntrySubmit dev fn queue =>
    show GoesOn (execQueueEntrySubmit dev fn queue s)
    fun_cases execQueueEntrySubmit <;> exact .next _
  case powerOnReset dev number base => show GoesOn (execPowerOnReset dev number base s); fun_cases execPowerOnReset <;> exact .next _
  case debugHold t => show GoesOn (execDebugHold t s); fun_cases execDebugHold <;> exact .next _
  case stepChangeRequest gdie target =>
    show GoesOn (execStepChangeRequest gdie target s)
    fun_cases execStepChangeRequest <;> exact .next _
  case stepHoldsDone gdie => show GoesOn (execStepHoldsDone gdie s); fun_cases execStepHoldsDone <;> exact .next _
  case stepRampDone gdie => show GoesOn (execStepRampDone gdie s); fun_cases execStepRampDone <;> exact .next _
  case stepSwitchDone gdie => show GoesOn (execStepSwitchDone gdie s); fun_cases execStepSwitchDone <;> exact .next _
  case takenNotice msg => show GoesOn (execTakenNotice msg s); fun_cases execTakenNotice <;> exact .next _
  all_goals exact nomatch act

theorem exec_goesOn {i : Instr} (host : ∀ d a w v, i ≠ .hostCxlMemAccess d a w v)
    (debugger : ∀ t k n w v, i ≠ .debuggerAccess t k n w v) (s : State) : GoesOn (exec i s) := by
  by_cases scalar : scalarInstr i = true
  · exact exec_goesOn_of_scalar i s scalar
  cases stream : asStream i with
  | some code => exact exec_goesOn_of_stream stream s
  | none =>
  cases el : asEl i with
  | some code => exact exec_goesOn_of_el el s
  | none =>
  cases router : asRouter i with
  | some code => exact exec_goesOn_of_router router s
  | none =>
  cases layout : asLayout i with
  | some code => exact exec_goesOn_of_layout layout s
  | none =>
  exact exec_goesOn_of_act (by simp [actInstr, scalar, stream, el, router, layout]) host debugger s

/-! ### Accesses of the host and of a debugger (R395, R409) -/

theorem exec_hostCxlMemAccess_goesOn {s : State} {dev addr : Nat} (write v : Nat) (size : addr / 64 * 64 + 64 ≤ hbmBytes)
    (exposed : coveredBy ((s.device dev).hdm.take 2) (addr / 64 * 64) 64 = true) (reach : s.hostReaches dev = true) :
    GoesOn (exec (.hostCxlMemAccess dev addr write v) s) := ⟨_, exec_hostCxlMemAccess_exposed write v size exposed reach⟩

theorem exec_debuggerAccess_goesOn {s : State} {t what i : Nat} (write v : Nat)
    (inside : (s.coreOf t).held = false ∨ s.debuggable t = false ∨ what = 0 ∨ i + 7 ≤ spLast) :
    GoesOn (exec (.debuggerAccess t what i write v) s) := by
  show GoesOn (execDebuggerAccess t what i write v s)
  fun_cases execDebuggerAccess
  case case3 closed register beyond =>
    simp only [Bool.or_eq_true, Bool.not_eq_true', not_or, Bool.not_eq_false] at closed
    obtain ⟨held, may⟩ := closed
    obtain h | h | h | h := inside
    · exact absurd h (by simp [held])
    · exact absurd h (by simp [may])
    · exact absurd h register
    · omega
  all_goals exact .next _

theorem exec_debuggerAccess_nowhere {s : State} {t what i : Nat} (write v : Nat) (held : (s.coreOf t).held = true)
    (may : s.debuggable t = true) (memory : what ≠ 0) (beyond : spLast < i + 7) :
    exec (.debuggerAccess t what i write v) s = .fault (.unpopulated i) := by
  show execDebuggerAccess t what i write v s = _
  rw [execDebuggerAccess, if_neg (by simp [held, may]), if_neg memory, if_pos beyond]

/-- Every instruction and every act goes on, or finds no memory at its address. -/
theorem exec_goesOn_or_nowhere (i : Instr) (s : State) : GoesOn (exec i s) ∨ ∃ a, exec i s = .fault (.unpopulated a) := by
  by_cases host : ∃ d a w v, i = .hostCxlMemAccess d a w v
  · obtain ⟨dev, addr, write, v, rfl⟩ := host
    by_cases exposed : addr / 64 * 64 + 64 ≤ hbmBytes ∧ coveredBy ((s.device dev).hdm.take 2) (addr / 64 * 64) 64 = true ∧
        s.hostReaches dev = true
    · obtain ⟨size, exposed, reach⟩ := exposed
      exact .inl (exec_hostCxlMemAccess_goesOn write v size exposed reach)
    · refine .inr ⟨addr, exec_hostCxlMemAccess_elsewhere write v ?_⟩
      simpa only [not_and_or, not_le, Bool.not_eq_true] using exposed
  by_cases debugger : ∃ t k n w v, i = .debuggerAccess t k n w v
  · obtain ⟨t, what, n, write, v, rfl⟩ := debugger
    by_cases inside : (s.coreOf t).held = false ∨ s.debuggable t = false ∨ what = 0 ∨ n + 7 ≤ spLast
    · exact .inl (exec_debuggerAccess_goesOn write v inside)
    · simp only [not_or, Bool.not_eq_false, not_le] at inside
      obtain ⟨held, may, memory, beyond⟩ := inside
      exact .inr ⟨n, exec_debuggerAccess_nowhere write v held may memory beyond⟩
  exact .inl (exec_goesOn (fun d a w v h => host ⟨d, a, w, v, h⟩) (fun t k n w v h => debugger ⟨t, k, n, w, v, h⟩) s)

/-! ### Steps -/

theorem step_eq (s : State) : step s = match s.nextTurn.2.todo s.nextTurn.1 with
    | .idle t => .next t
    | .run i t => exec i t := by
  rfl

theorem step_goesOn_or_nowhere (s : State) : GoesOn (step s) ∨ ∃ a, step s = .fault (.unpopulated a) := by
  rw [step_eq]
  cases s.nextTurn.2.todo s.nextTurn.1 with
  | idle t => exact .inl (.next t)
  | run i t => exact exec_goesOn_or_nowhere i t

end Sys2Proof.Machine

namespace Sys2Proof.Proofs

open Sys2Proof.Machine

/-- Settles O59: each shared operation answers a state or hands on to what goes on, and so does each instruction that is built of
them; of the acts only an access of the host or of a debugger has a branch that answers no state. -/
theorem everyStepGoesOn : Obligations.EveryStepGoesOn := by
  unfold Obligations.EveryStepGoesOn
  refine ⟨fun i s host debugger => exec_goesOn host debugger s,
    fun s dev addr write v => ⟨exec_hostCxlMemAccess_goesOn write v, exec_hostCxlMemAccess_elsewhere write v⟩,
    fun s t what i write v => ⟨exec_debuggerAccess_goesOn write v, exec_debuggerAccess_nowhere write v⟩, step_goesOn_or_nowhere⟩

end Sys2Proof.Proofs
